-- ==== Sys2Proof/Word.lean ====
section
/-! DEFINITION. The word types of the OL-4: 64-bit scalars, bytes, 16,384-bit vector registers and
4,096-bit mask registers (R2), and the fields of a 32-bit instruction word (R42, R43). -/

namespace Sys2Proof

/-- A scalar register, a virtual address, a CSR value (R2). -/
abbrev Word := BitVec 64

/-- One byte of memory. -/
abbrev Byte := BitVec 8

/-- One vector register v0 to v31 (R2). -/
abbrev VReg := BitVec 16384

/-- One mask register k0 to k7, or ksm (R2). -/
abbrev KReg := BitVec 4096

/-- An instruction word (R42). -/
abbrev IWord := BitVec 32

/-- A register field of an instruction word (R43). -/
abbrev Reg := BitVec 5

end Sys2Proof
end

