-- ==== Sys2Proof/Config.lean ====
section
/-! DEFINITION. What is fixed for every OL-4 (R1, R2) and the free values: values the spec leaves
open, as constants without a body, so that no proof can see them. -/

namespace Sys2Proof

/-- Cores 0 to 191 (R1). -/
def Config.cores : Nat := 192

/-- Hardware threads 0 to 767, numbered 4·core + TID (R1). -/
def Config.threads : Nat := 768

/-- Lanes 0 to 15 of a core (R1). -/
def Config.lanes : Nat := 16

/-- Bytes of GLOBAL memory: 384 GiB (R2, R83). -/
def Config.globalBytes : Nat := 0x6000000000

/-- Entries of a core's second-level TLB (R92). -/
def Config.tlb2Entries : Nat := 1024

/-- Entries of one lane TLB bank (R92). -/
def Config.laneTlbEntries : Nat := 32

/-- FREE VALUE (log entry 7): which entry of a full TLB bank a fill replaces; R92 says only that it
affects timing. -/
opaque Config.tlbVictim : Nat → Nat

/-- FREE VALUE (log entry 8): the ML-DSA-65 signature of an attestation report (R457); the spec gives
neither the key nor the algorithm. -/
opaque Config.attestSignature : List Byte → BitVec 26472

/-- FREE VALUE (log entry 8): the nonce that the management core reads from poisoned words (R440, R457). -/
opaque Config.poisonedNonce : Nat → BitVec 512

/-- FREE VALUE (log entry 24): the DRAM layer of an HBM word, which the ARRAY log names (R447); the spec gives
no map from addresses to layers. -/
opaque Config.dramLayer : Nat → BitVec 4

end Sys2Proof
end

