-- ==== Sys2Proof/Syntax.lean ====
section
/-! DEFINITION. The syntax of the OL-4: one constructor of `Instr` per row of the table of operations
and events. The 258 instruction words carry every field of their format (R43), the fields that must
be 0 among them, so that WellFormed states the field rules of R45 to R48. The 76 steps without a word
(engines, scheduler, host, management core) carry what the arriving act brings with it. -/

namespace Sys2Proof

/-- S format: b [21:17], a [16:12], d [11:7] (R43). -/
structure SF where
  b : Reg
  a : Reg
  d : Reg
  deriving DecidableEq, Repr

/-- S format of ATOM: success order fn10[3:2], failure order fn10[1:0] (R59). -/
structure AF where
  succ : BitVec 2
  fail : BitVec 2
  b : Reg
  a : Reg
  d : Reg
  deriving DecidableEq, Repr

/-- S format of FP: the width fn10[0], 1 for .d (R58). -/
structure FF where
  wide : Bool
  b : Reg
  a : Reg
  d : Reg
  deriving DecidableEq, Repr

/-- S format of FCMP: n, so that fn10[9:1] = 8 + n, and the width fn10[0] (R58). -/
structure FCF where
  n : BitVec 2
  wide : Bool
  b : Reg
  a : Reg
  d : Reg
  deriving DecidableEq, Repr

/-- S format of CSET: the COP fn10[2:0] (R75). -/
structure KF where
  cop : BitVec 3
  b : Reg
  a : Reg
  d : Reg
  deriving DecidableEq, Repr

/-- I format of SHI: the shift amount imm15[5:0] (R57). -/
structure HF where
  shamt : BitVec 6
  a : Reg
  d : Reg
  deriving DecidableEq, Repr

/-- I format: imm15 [31:17], a, d (R43). -/
structure IF where
  imm : BitVec 15
  a : Reg
  d : Reg
  deriving DecidableEq, Repr

/-- B format: off15 [31:17], a [16:12], b [11:7] (R43). -/
structure BF where
  off : BitVec 15
  a : Reg
  b : Reg
  deriving DecidableEq, Repr

/-- U/J format: imm20 [31:12], d (R43). -/
structure UF where
  imm : BitVec 20
  d : Reg
  deriving DecidableEq, Repr

/-- C format: csr12 [31:20], a, d (R43). -/
structure CF where
  csr : BitVec 12
  a : Reg
  d : Reg
  deriving DecidableEq, Repr

/-- V format: m [25], cv [24], c2 [23], c1 [22], s2 [21:17], s1 [16:12], d (R43). -/
structure VF where
  m : Bool
  cv : Bool
  c2 : Bool
  c1 : Bool
  s2 : Reg
  s1 : Reg
  d : Reg
  deriving DecidableEq, Repr

/-- VM format: fmt [31:28], m [25], cv [24], o [23], c [22], x [21:17], base [16:12], d (R43). -/
structure VMF where
  fmt : BitVec 4
  m : Bool
  cv : Bool
  o : Bool
  c : Bool
  x : Reg
  base : Reg
  d : Reg
  deriving DecidableEq, Repr

/-- T format: the operand format [29:26] and the fields of V format (R43). -/
structure TF where
  fmt : BitVec 4
  m : Bool
  cv : Bool
  c2 : Bool
  c1 : Bool
  s2 : Reg
  s1 : Reg
  d : Reg
  deriving DecidableEq, Repr

/-- The operations of a home ALU or cluster stop (R151, R170). -/
inductive AtomOp
  | ldacq | strel | add | swp | cas | min | max | and | or | fadd | fmin | fmax
  deriving DecidableEq, Repr

/-- An atomic that arrives at a home from outside the device (R124): its operation, its width in
bytes (4 or 8), the physical address and the operands. -/
structure RemoteAtomic where
  op : AtomOp
  width : Nat
  addr : Nat
  operand : Word
  expect : Word
  deriving DecidableEq, Repr

/-- A load or store that arrives from another device (R84) or from the host (R451). -/
structure RemoteAccess where
  write : Bool
  addr : Nat
  bytes : Nat
  data : Nat
  deriving DecidableEq, Repr

/-- A contribution packet of a collective round, as it reaches a home, or the report of it, as it reaches the
leader (R374). The round counts, above bit 32, the launches that have used the group (log entry 74). `gone` marks
a notice that the member was killed and contributes to this round and later ones no more (R435). -/
structure CollPacket where
  gid : Nat
  home : Nat
  round : Nat
  rank : Nat
  cop : Nat
  cstr : Nat
  sew : Nat
  flt : Bool
  cdl : Nat
  dlvl : Nat
  elems : List (Nat × Nat)
  gone : Bool
  deriving DecidableEq, Repr

/-- A contributor set that a leader on another device sends to a home: the round, S and its DLVL
(R375); or, with `poison`, what a home tells the others: its combination read a poisoned word (R440). -/
structure SetMsg where
  round : Nat
  set : List Nat
  dlvl : Nat
  poison : Bool
  deriving DecidableEq, Repr

/-- The release of a round that a leader on another device broadcasts (R376): S, those removed from it for
a mismatch, whether the deadline fixed it, the count of late contributions, and the round's operator and type. -/
structure ReleaseMsg where
  round : Nat
  set : List Nat
  removed : List Nat
  part : Bool
  late : Nat
  cop : Nat
  sew : Nat
  flt : Bool
  deriving DecidableEq, Repr

/-- What the home of a rank on another device has to tell of a round (R376, R379): that it has written its
results, the late contributions it has discarded, as round and rank, and the bytes of its window that the round
supplies. -/
structure HomeMsg where
  home : Nat
  late : List (Nat × Nat)
  results : List (Nat × Byte)
  deriving DecidableEq, Repr

/-- A posted demand row, as it reaches the Imposer (R384, R385), with the generation that the
member that posts it has accepted; `back` marks one that the Imposer discarded, as it tells its member. `sent`: to a
new standby, what the rank's pairs had sent when the calendar was rebuilt (R396); else empty. -/
structure DemandMsg where
  gid : Nat
  rank : Nat
  add : Bool
  row : List Nat
  cdl : Nat
  gen : Nat
  back : Bool
  sent : List Nat
  deriving DecidableEq, Repr

/-- A grant of one sheet (R383). -/
structure Grant where
  tstart : Nat
  dst : Nat
  src : Nat
  sbytes : Nat
  soff : Nat
  roff : Nat
  deriving DecidableEq, Repr

/-- What an Imposer gives to one member (R387): generation, times, grants, the bytes posted to it and by it,
the places of its pairs in both buffers, what its pairs have sent before this calendar, whether its row is in
it, and whether a standby rebuilt it. -/
structure GrantsMsg where
  gen : Nat
  t0 : Nat
  tend : Nat
  grants : List Grant
  exp : List Nat
  roffs : List Nat
  bytes : List Nat
  soffs : List Nat
  sent : List Nat
  posted : Bool
  rebuilt : Bool
  deriving DecidableEq, Repr

/-- A host write of the configuration space: how many bytes wide it is, and its data (R452). -/
structure HostWrite where
  bytes : Nat
  data : Word
  deriving DecidableEq, Repr

/-- Bytes of a sheet or of a tail transfer arriving from a source, with its end flit: `off` counts from the
start of the pair (R388, R390). -/
structure ExchangeMsg where
  gid : Nat
  dst : Nat
  src : Nat
  off : Nat
  bytes : List Byte
  short : Bool
  last : Bool
  deriving DecidableEq, Repr

/-- A ready flit: destination dst lets source src send sheet k, or its tail pair when k is none, of the calendar of a
generation (R390, R392). -/
structure ReadyMsg where
  gid : Nat
  src : Nat
  dst : Nat
  sheet : Option Nat
  gen : Nat
  deriving DecidableEq, Repr

/-- One constructor per row of the table of operations and events. -/
inductive Instr
  /-- ADD (R254). -/
  | add (f : SF)
  /-- SUB (R254). -/
  | sub (f : SF)
  /-- AND (R254). -/
  | and (f : SF)
  /-- OR (R254). -/
  | or (f : SF)
  /-- XOR (R254). -/
  | xor (f : SF)
  /-- SLL (R254). -/
  | sll (f : SF)
  /-- SRL (R254). -/
  | srl (f : SF)
  /-- SRA (R254). -/
  | sra (f : SF)
  /-- SLT (R254). -/
  | slt (f : SF)
  /-- SLTN (R254). -/
  | sltn (f : SF)
  /-- MIN (R254). -/
  | min (f : SF)
  /-- MAX (R254). -/
  | max (f : SF)
  /-- MINN (R254). -/
  | minn (f : SF)
  /-- MAXN (R254). -/
  | maxn (f : SF)
  /-- MUL (R254). -/
  | mul (f : SF)
  /-- MULH (R254). -/
  | mulh (f : SF)
  /-- MULHN (R254). -/
  | mulhn (f : SF)
  /-- DIV (R255). -/
  | div (f : SF)
  /-- DIVN (R255). -/
  | divn (f : SF)
  /-- REM (R255). -/
  | rem (f : SF)
  /-- REMN (R255). -/
  | remn (f : SF)
  /-- CLZ (R254). -/
  | clz (f : SF)
  /-- CTZ (R254). -/
  | ctz (f : SF)
  /-- POPC (R254). -/
  | popc (f : SF)
  /-- ADDI (R256). -/
  | addi (f : IF)
  /-- ANDI (R256). -/
  | andi (f : IF)
  /-- ORI (R256). -/
  | ori (f : IF)
  /-- XORI (R256). -/
  | xori (f : IF)
  /-- SLTI (R256). -/
  | slti (f : IF)
  /-- SLLI (R256). -/
  | slli (f : HF)
  /-- SRLI (R256). -/
  | srli (f : HF)
  /-- SRAI (R256). -/
  | srai (f : HF)
  /-- LUI (R256). -/
  | lui (f : UF)
  /-- AUIPC (R256). -/
  | auipc (f : UF)
  /-- JAL (R261). -/
  | jal (f : UF)
  /-- JALR (R261). -/
  | jalr (f : IF)
  /-- LOOP (R262). -/
  | loop (f : BF)
  /-- FADD (R258). -/
  | fadd (f : FF)
  /-- FSUB (R258). -/
  | fsub (f : FF)
  /-- FMUL (R258). -/
  | fmul (f : FF)
  /-- FDIV (R258). -/
  | fdiv (f : FF)
  /-- FSQRT (R258). -/
  | fsqrt (f : FF)
  /-- FMA (R258). -/
  | fma (f : FF)
  /-- FMIN (R258). -/
  | fmin (f : FF)
  /-- FMAX (R258). -/
  | fmax (f : FF)
  /-- FCMP (R258). -/
  | fcmp (f : FCF)
  /-- FCVT (R259). -/
  | fcvt (f : FF)
  /-- FMV (R258). -/
  | fmv (f : FF)
  /-- LDACQ (R151). -/
  | ldacq (f : AF)
  /-- STREL (R151). -/
  | strel (f : AF)
  /-- AMOADD (R151). -/
  | amoadd (f : AF)
  /-- AMOSWP (R151). -/
  | amoswp (f : AF)
  /-- AMOCAS (R151). -/
  | amocas (f : AF)
  /-- AMOMIN (R151). -/
  | amomin (f : AF)
  /-- AMOMAX (R151). -/
  | amomax (f : AF)
  /-- AMOAND (R151). -/
  | amoand (f : AF)
  /-- AMOOR (R151). -/
  | amoor (f : AF)
  /-- LDB (R148). -/
  | ldb (f : IF)
  /-- LDBN (R148). -/
  | ldbn (f : IF)
  /-- LDH (R148). -/
  | ldh (f : IF)
  /-- LDHN (R148). -/
  | ldhn (f : IF)
  /-- LDW (R148). -/
  | ldw (f : IF)
  /-- LDWN (R148). -/
  | ldwn (f : IF)
  /-- LDD (R148). -/
  | ldd (f : IF)
  /-- STB (R148). -/
  | stb (f : IF)
  /-- STH (R148). -/
  | sth (f : IF)
  /-- STW (R148). -/
  | stw (f : IF)
  /-- STD (R148). -/
  | std (f : IF)
  /-- BEQ (R260). -/
  | beq (f : BF)
  /-- BNE (R260). -/
  | bne (f : BF)
  /-- BLT (R260). -/
  | blt (f : BF)
  /-- BGE (R260). -/
  | bge (f : BF)
  /-- BLTN (R260). -/
  | bltn (f : BF)
  /-- BGEN (R260). -/
  | bgen (f : BF)
  /-- VADD (R290). -/
  | vadd (f : VF)
  /-- VSUB (R290). -/
  | vsub (f : VF)
  /-- VMUL (R290). -/
  | vmul (f : VF)
  /-- VMULH (R290). -/
  | vmulh (f : VF)
  /-- VAND (R290). -/
  | vand (f : VF)
  /-- VOR (R290). -/
  | vor (f : VF)
  /-- VXOR (R290). -/
  | vxor (f : VF)
  /-- VSLL (R290). -/
  | vsll (f : VF)
  /-- VSRL (R290). -/
  | vsrl (f : VF)
  /-- VSRA (R290). -/
  | vsra (f : VF)
  /-- VMIN (R290). -/
  | vmin (f : VF)
  /-- VMAX (R290). -/
  | vmax (f : VF)
  /-- VMINN (R290). -/
  | vminn (f : VF)
  /-- VMAXN (R290). -/
  | vmaxn (f : VF)
  /-- VSADD (R290). -/
  | vsadd (f : VF)
  /-- VSSUB (R290). -/
  | vssub (f : VF)
  /-- VMERGE (R298). -/
  | vmerge (f : VF)
  /-- VADD_SCALAR (R290). -/
  | vaddScalar (f : VF)
  /-- VSUB_SCALAR (R290). -/
  | vsubScalar (f : VF)
  /-- VMUL_SCALAR (R290). -/
  | vmulScalar (f : VF)
  /-- VMULH_SCALAR (R290). -/
  | vmulhScalar (f : VF)
  /-- VAND_SCALAR (R290). -/
  | vandScalar (f : VF)
  /-- VOR_SCALAR (R290). -/
  | vorScalar (f : VF)
  /-- VXOR_SCALAR (R290). -/
  | vxorScalar (f : VF)
  /-- VSLL_SCALAR (R290). -/
  | vsllScalar (f : VF)
  /-- VSRL_SCALAR (R290). -/
  | vsrlScalar (f : VF)
  /-- VSRA_SCALAR (R290). -/
  | vsraScalar (f : VF)
  /-- VMIN_SCALAR (R290). -/
  | vminScalar (f : VF)
  /-- VMAX_SCALAR (R290). -/
  | vmaxScalar (f : VF)
  /-- VMINN_SCALAR (R290). -/
  | vminnScalar (f : VF)
  /-- VMAXN_SCALAR (R290). -/
  | vmaxnScalar (f : VF)
  /-- VSADD_SCALAR (R290). -/
  | vsaddScalar (f : VF)
  /-- VSSUB_SCALAR (R290). -/
  | vssubScalar (f : VF)
  /-- VMERGE_SCALAR (R298). -/
  | vmergeScalar (f : VF)
  /-- VPOPC (R291). -/
  | vpopc (f : VF)
  /-- VCLZ (R291). -/
  | vclz (f : VF)
  /-- VID (R298). -/
  | vid (f : VF)
  /-- VMVS (R298). -/
  | vmvs (f : VF)
  /-- VMVX (R298). -/
  | vmvx (f : VF)
  /-- VFADD (R292). -/
  | vfadd (f : VF)
  /-- VFSUB (R292). -/
  | vfsub (f : VF)
  /-- VFMUL (R292). -/
  | vfmul (f : VF)
  /-- VFMA (R292). -/
  | vfma (f : VF)
  /-- VFNMA (R292). -/
  | vfnma (f : VF)
  /-- VFDIV (R292). -/
  | vfdiv (f : VF)
  /-- VFMIN (R292). -/
  | vfmin (f : VF)
  /-- VFMAX (R292). -/
  | vfmax (f : VF)
  /-- VFADD_SCALAR (R292). -/
  | vfaddScalar (f : VF)
  /-- VFSUB_SCALAR (R292). -/
  | vfsubScalar (f : VF)
  /-- VFMUL_SCALAR (R292). -/
  | vfmulScalar (f : VF)
  /-- VFMA_SCALAR (R292). -/
  | vfmaScalar (f : VF)
  /-- VFNMA_SCALAR (R292). -/
  | vfnmaScalar (f : VF)
  /-- VFDIV_SCALAR (R292). -/
  | vfdivScalar (f : VF)
  /-- VFMIN_SCALAR (R292). -/
  | vfminScalar (f : VF)
  /-- VFMAX_SCALAR (R292). -/
  | vfmaxScalar (f : VF)
  /-- VFSQRT (R293). -/
  | vfsqrt (f : VF)
  /-- VFABS (R293). -/
  | vfabs (f : VF)
  /-- VFNEG (R293). -/
  | vfneg (f : VF)
  /-- VFEXP2 (R143). -/
  | vfexp2 (f : VF)
  /-- VFLOG2 (R143). -/
  | vflog2 (f : VF)
  /-- VFRSQ (R143). -/
  | vfrsq (f : VF)
  /-- VFRCP (R143). -/
  | vfrcp (f : VF)
  /-- VCVT (R294). -/
  | vcvt (f : VF)
  /-- VCMPEQ (R295). -/
  | vcmpeq (f : VF)
  /-- VCMPNE (R295). -/
  | vcmpne (f : VF)
  /-- VCMPLT (R295). -/
  | vcmplt (f : VF)
  /-- VCMPLE (R295). -/
  | vcmple (f : VF)
  /-- VCMPLTN (R295). -/
  | vcmpltn (f : VF)
  /-- VCMPLEN (R295). -/
  | vcmplen (f : VF)
  /-- VFCMPEQ (R295). -/
  | vfcmpeq (f : VF)
  /-- VFCMPLT (R295). -/
  | vfcmplt (f : VF)
  /-- VFCMPLE (R295). -/
  | vfcmple (f : VF)
  /-- VCMPEQ_SCALAR (R295). -/
  | vcmpeqScalar (f : VF)
  /-- VCMPNE_SCALAR (R295). -/
  | vcmpneScalar (f : VF)
  /-- VCMPLT_SCALAR (R295). -/
  | vcmpltScalar (f : VF)
  /-- VCMPLE_SCALAR (R295). -/
  | vcmpleScalar (f : VF)
  /-- VCMPLTN_SCALAR (R295). -/
  | vcmpltnScalar (f : VF)
  /-- VCMPLEN_SCALAR (R295). -/
  | vcmplenScalar (f : VF)
  /-- VFCMPEQ_SCALAR (R295). -/
  | vfcmpeqScalar (f : VF)
  /-- VFCMPLT_SCALAR (R295). -/
  | vfcmpltScalar (f : VF)
  /-- VFCMPLE_SCALAR (R295). -/
  | vfcmpleScalar (f : VF)
  /-- VSLIDEUP (R299). -/
  | vslideup (f : VF)
  /-- VSLIDEDN (R299). -/
  | vslidedn (f : VF)
  /-- VRGATH (R299). -/
  | vrgath (f : VF)
  /-- VCMPR (R299). -/
  | vcmpr (f : VF)
  /-- VREDSUM (R300). -/
  | vredsum (f : VF)
  /-- VREDMAX (R300). -/
  | vredmax (f : VF)
  /-- VREDMIN (R300). -/
  | vredmin (f : VF)
  /-- VFREDSUM (R300). -/
  | vfredsum (f : VF)
  /-- VFREDMAX (R300). -/
  | vfredmax (f : VF)
  /-- VFREDMIN (R300). -/
  | vfredmin (f : VF)
  /-- VARGMAX (R301). -/
  | vargmax (f : VF)
  /-- VSPSEL (R302). -/
  | vspsel (f : VF)
  /-- VCONFL (R303). -/
  | vconfl (f : VF)
  /-- VFCOMB (R304). -/
  | vfcomb (f : VF)
  /-- CAPP (R306). -/
  | capp (f : VF)
  /-- SETVL (R285). -/
  | setvl (f : SF)
  /-- SETVLI (R285). -/
  | setvli (f : IF)
  /-- VLD (R157). -/
  | vld (f : VMF)
  /-- VLDS (R159). -/
  | vlds (f : VMF)
  /-- VLDX (R159). -/
  | vldx (f : VMF)
  /-- VLDT (R163). -/
  | vldt (f : VMF)
  /-- VST (R157). -/
  | vst (f : VMF)
  /-- VSTS (R159). -/
  | vsts (f : VMF)
  /-- VSTX (R159). -/
  | vstx (f : VMF)
  /-- VSTT (R163). -/
  | vstt (f : VMF)
  /-- VLDFF (R160). -/
  | vldff (f : VMF)
  /-- VLDV (R165). -/
  | vldv (f : VMF)
  /-- VSTV (R165). -/
  | vstv (f : VMF)
  /-- VLDXA (R167). -/
  | vldxa (f : VMF)
  /-- VSTXR (R168). -/
  | vstxr (f : VMF)
  /-- VAMOADD (R170). -/
  | vamoadd (f : VMF)
  /-- VAMOMIN (R170). -/
  | vamomin (f : VMF)
  /-- VAMOMAX (R170). -/
  | vamomax (f : VMF)
  /-- VAMOSWP (R170). -/
  | vamoswp (f : VMF)
  /-- FENCE (R173). -/
  | fence (f : IF)
  /-- KAND (R296). -/
  | kand (f : VF)
  /-- KOR (R296). -/
  | kor (f : VF)
  /-- KXOR (R296). -/
  | kxor (f : VF)
  /-- KNOT (R296). -/
  | knot (f : VF)
  /-- KMOV (R296). -/
  | kmov (f : VF)
  /-- KFFS (R297). -/
  | kffs (f : VF)
  /-- KPOPC (R297). -/
  | kpopc (f : VF)
  /-- HVSET (R310). -/
  | hvset (f : VF)
  /-- HVRAND (R314). -/
  | hvrand (f : VF)
  /-- HVBIND (R315). -/
  | hvbind (f : VF)
  /-- HVPERM (R315). -/
  | hvperm (f : VF)
  /-- HVBUND (R316). -/
  | hvbund (f : VF)
  /-- HVMAJ (R318). -/
  | hvmaj (f : VF)
  /-- HVSIM (R315). -/
  | hvsim (f : VF)
  /-- HVCLEAN (R321). -/
  | hvclean (f : VF)
  /-- HVFACT (R326). -/
  | hvfact (f : VF)
  /-- HVSTAT (R330). -/
  | hvstat (f : VF)
  /-- SKSET (R334). -/
  | skset (f : VF)
  /-- SKFEED (R337). -/
  | skfeed (f : VF)
  /-- SKEST (R342). -/
  | skest (f : VF)
  /-- SKSTAT (R343). -/
  | skstat (f : VF)
  /-- SKCLR (R344). -/
  | skclr (f : VF)
  /-- MATT (R351). -/
  | matt (f : VF)
  /-- MDET (R353). -/
  | mdet (f : VF)
  /-- MZERO (R353). -/
  | mzero (f : VF)
  /-- MMA (R356). -/
  | mma (f : TF)
  /-- MLDB (R355). -/
  | mldb (f : TF)
  /-- MST (R359). -/
  | mst (f : TF)
  /-- MGEMV (R363). -/
  | mgemv (f : TF)
  /-- STRM (R203). -/
  | strm (f : VF)
  /-- SAVAIL (R216). -/
  | savail (f : VF)
  /-- SWAIT (R217). -/
  | swait (f : VF)
  /-- SCANCEL (R218). -/
  | scancel (f : VF)
  /-- SSUSP (R218). -/
  | ssusp (f : VF)
  /-- SRESM (R218). -/
  | sresm (f : VF)
  /-- VLDP (R210). -/
  | vldp (f : VF)
  /-- VSTP (R210). -/
  | vstp (f : VF)
  /-- VSTC (R374). -/
  | vstc (f : VF)
  /-- VLDC (R380). -/
  | vldc (f : VF)
  /-- CWAIT (R378). -/
  | cwait (f : VF)
  /-- DPOST (R384). -/
  | dpost (f : VF)
  /-- DPOSTA (R384). -/
  | dposta (f : VF)
  /-- XTRIM (R391). -/
  | xtrim (f : VF)
  /-- XGO (R388). -/
  | xgo (f : VF)
  /-- XWAIT (R393). -/
  | xwait (f : VF)
  /-- XSTAT (R394). -/
  | xstat (f : VF)
  /-- CSET (R370). -/
  | cset (f : KF)
  /-- CSRRD (R263). -/
  | csrrd (f : CF)
  /-- CSRWR (R263). -/
  | csrwr (f : CF)
  /-- CSRSET (R263). -/
  | csrset (f : CF)
  /-- CSRCLR (R263). -/
  | csrclr (f : CF)
  /-- TRAP (R268). -/
  | trap (f : CF)
  /-- TRET (R269). -/
  | tret (f : CF)
  /-- WFE (R270). -/
  | wfe (f : CF)
  /-- SEV (R271). -/
  | sev (f : CF)
  /-- PAUSE (R272). -/
  | pause (f : CF)
  /-- TEND (R273). -/
  | tend (f : CF)
  /-- BJOIN (R276). -/
  | bjoin (f : SF)
  /-- BLEAVE (R276). -/
  | bleave (f : SF)
  /-- BARR (R277). -/
  | barr (f : SF)
  /-- BWAIT (R277). -/
  | bwait (f : SF)
  /-- BARW (R277). -/
  | barw (f : SF)
  /-- BTEST (R277). -/
  | btest (f : SF)
  /-- WAITC (R279). -/
  | waitc (f : SF)
  /-- QPOST (R280). -/
  | qpost (f : SF)
  /-- SWAPPG (R100). -/
  | swappg (f : SF)
  /-- TLBINV (R98). -/
  | tlbinv (f : SF)
  /-- SAVECTX (R434). -/
  | savectx (f : SF)
  /-- TLBINV_RETIRE (R99): TLBINV retires once accesses through removed entries have performed and streams dropped them. -/
  | tlbinvRetire
  /-- SWAP_SUBBLOCK_MOVE (R101): The swap engine moves one 4 KiB sub-block, landing held stores at the new frame. -/
  | swapSubblockMove (swap : Nat)
  /-- SWAP_COMPLETE (R102): Rewrites both entries, removes translations, drains and clears SWLK. -/
  | swapComplete (swap : Nat)
  /-- HOME_ATOMIC (R124): The home ALU or cluster stop performs an arriving atomic on its cell. -/
  | homeAtomic (r : RemoteAtomic)
  /-- VAMOSWP_OLD_VALUE (R172): A returning old value of VAMOSWP is written into d or the saved image. -/
  | vamoswpOldValue (thr : Nat)
  /-- CLUSTER_SPAN_PACKET (R117): An owner vault serves a gather request or applies a scatter packet. -/
  | clusterSpanPacket (n : Nat)
  /-- GATHER_RESPONSE (R117): A gather response arrives and is unpacked into element positions. -/
  | gatherResponse (n : Nat)
  /-- STREAM_DISPATCH (R205): The dispatcher starts a port's head command once the previous one completed on the memory side. -/
  | streamDispatch (core port : Nat)
  /-- STREAM_ELEMENT_GROUP (R201): The stream engine serves one element group of an active command. -/
  | streamElementGroup (core port : Nat)
  /-- STREAM_COMPLETE (R213): Memory-side completion writes the token and completion mask bits. -/
  | streamComplete (core port : Nat)
  /-- STREAM_STOP (R218): A cancel or suspend takes effect at the engine's next group boundary. -/
  | streamStop (core port : Nat)
  /-- PORT_DISPLACE (R200): A lower-priority owner's commands are saved as cursors and the port passes on. -/
  | portDisplace (core port thr : Nat)
  /-- ATTACHMENT_REACQUIRE (R352): A displaced holder retakes its slots and state once enough are free and leave is granted. -/
  | attachmentReacquire (thr : Nat)
  /-- MATRIX_PASS (R357): A pass starts on the unit carrying ready MMAs of up to four holders. -/
  | matrixPass (cluster : Nat)
  /-- TILE_WRITE (R357): A pass writes its tile rows 32 ck after it starts. -/
  | tileWrite (cluster : Nat)
  /-- MGEMV_ROW (R364): A base die forms one y element from a striped B row and lands it in the port. -/
  | mgemvRow (core port row : Nat)
  /-- FACTORING_BUFFER_TAKE (R329): A higher-priority HVFACT takes the factoring buffer at the holder's next 16-sort boundary. -/
  | factoringBufferTake (core thr : Nat)
  /-- COLLECTIVE_PACKET (R374): A home accepts a contribution packet of a round. -/
  | collectivePacket (p : CollPacket)
  /-- ARRIVAL_REPORT (R375): The leader receives a member's arrival report. -/
  | arrivalReport (p : CollPacket)
  /-- COLLECTIVE_DEADLINE (R375): CDL ns after the first arrival the leader fixes S. -/
  | collectiveDeadline (gid : Nat)
  /-- HOME_COMBINE (R376): A home combines the contributions of S and writes the results. -/
  | homeCombine (gid home : Nat) (told : Option SetMsg)
  /-- ROUND_RELEASE (R376): The leader broadcasts the release once every home has written. -/
  | roundRelease (gid : Nat) (told : Option ReleaseMsg) (homes : List HomeMsg)
  /-- MEMBER_DEAD (R369): A member whose device misses the keepalive for 30 us becomes dead. -/
  | memberDead (dev : Nat)
  /-- DEMAND_ROW (R385): A posted demand row arrives at the Imposer. -/
  | demandRow (m : DemandMsg)
  /-- CALENDAR_DEADLINE (R385): CDL ns after the first row the calendar is fixed. -/
  | calendarDeadline (gid : Nat)
  /-- GRANT_WRITE (R387): The built imposition's grants, XEXP and XGENW are written to each member. -/
  | grantWrite (gid : Nat) (told : Option GrantsMsg)
  /-- SHEET_START (R388): At a sheet's TSTART the armed engine sends its granted bytes and end flit. -/
  | sheetStart (gid sheet : Nat)
  /-- EXCHANGE_BYTES (R390): Arriving bytes or an end flit are written to XRBUF and counted in XARR. -/
  | exchangeBytes (m : ExchangeMsg)
  /-- READY_FLIT (R390): A destination's ready flit lets a source send a tail pair or skewed sheet. -/
  | readyFlit (m : ReadyMsg)
  /-- LOOSE_TAIL_START (R390): At XTEND sources send their remaining pairs. -/
  | looseTailStart (gid : Nat)
  /-- IMPOSER_HEARTBEAT (R396): The primary sends a heartbeat to the standby every 10 us. -/
  | imposerHeartbeat (gid : Nat) (heard : Bool)
  /-- STANDBY_TAKEOVER (R396): After three missed heartbeats the standby rebuilds the calendar at a new generation. -/
  | standbyTakeover (gid : Nat)
  /-- LEAVE_GRANT (R410): The governor grants leave to the request at the head. -/
  | leaveGrant
  /-- LEAVE_EXPIRY (R412): After 20 us a grant expires and a renewal is queued. -/
  | leaveExpiry (n : Nat)
  /-- RENEWAL_TIMEOUT (R412): A renewal not granted within 2 us pauses its holder. -/
  | renewalTimeout (n : Nat)
  /-- DECK_CURRENT_SAMPLE (R413): Every 100 ns the governor measures deck currents and adjusts ballast, deferral and withdrawal. -/
  | deckCurrentSample (ia ib : Nat)
  /-- LAUNCH_PORT_WRITE (R400): A 64-byte host write to a launch port delivers one packet. -/
  | launchPortWrite (off size : Nat) (data : BitVec 512)
  /-- LAUNCH_PACKET (R401): A LAUNCH packet starts when its counters allow, making its logical cores ready. -/
  | launchPacket (slot : Nat)
  /-- WAITC_PACKET (R401): A WAITC packet starts and completes when its counter reaches its value. -/
  | waitcPacket (slot : Nat)
  /-- SIGNAL_PACKET (R401): A SIGNAL packet adds ARGS to its counter. -/
  | signalPacket (slot : Nat)
  /-- SETDET_PACKET (R401): A SETDET packet sets the queue's determinism level. -/
  | setdetPacket (slot : Nat)
  /-- DRAIN_PACKET (R401): A DRAIN packet starts when every earlier packet has completed. -/
  | drainPacket (slot : Nat)
  /-- MARK_PACKET (R401): A MARK packet writes its sequence number and tag. -/
  | markPacket (slot : Nat)
  /-- COUNTER_REREAD (R401): A waiting queue re-reads its counter after a change or every 10 us after a fault. -/
  | counterReread (slot : Nat)
  /-- DISPATCH (R230): A ready logical core is placed on a free thread it may run on. -/
  | dispatch
  /-- PREEMPT (R407): The scheduler chooses a victim and sends it the stop request. -/
  | preempt (groups : Nat)
  /-- QUANTUM_EXPIRY (R408): A thread holding one priority for 20 us is pre-empted for an equal-priority ready core. -/
  | quantumExpiry (groups : Nat)
  /-- PREEMPT_SAVE (R426): The stopped victim's state is written to its save slot. -/
  | preemptSave (thr : Nat)
  /-- RESTORE (R432): A saved image is read back and the logical core resumes at SPC. -/
  | restore
  /-- UNPARK (R250): A parked logical core whose condition holds becomes ready again. -/
  | unpark
  /-- CTXCTL_MAKE_RESIDENT (R423): Makes a context resident, or refuses with ERR. -/
  | ctxctlMakeResident (v : Word)
  /-- CTXCTL_KILL (R435): Kills a context through the configuration space. -/
  | ctxctlKill (v : Word)
  /-- TFWD (R423): A write forwards a thread's RTVEC trap to its U-level handler. -/
  | tfwd (v : Word)
  /-- CKILL_READ (R423): A read returns the kill record and clears V. -/
  | ckillRead
  /-- QDESC_ENABLE (R399): Writing EN = 1 creates a queue unless refused. -/
  | qdescEnable (slot : Nat) (v : Word)
  /-- QDESC_DISABLE (R403): Writing EN = 0 discards unstarted packets and closes the queue. -/
  | qdescDisable (slot : Nat) (v : Word)
  /-- MCREC0_CLEAR (R446): Writing V = 1 clears the machine-check record and OVF. -/
  | mcrec0Clear (v : Word)
  /-- ALOG0_CLEAR (R447): Writing V = 1 clears the ARRAY log record. -/
  | alog0Clear (v : Word)
  /-- LLOG0_CLEAR (R448): Writing V = 1 clears the LINK log record. -/
  | llog0Clear (v : Word)
  /-- SECNT_CLEAR (R449): Writing a soft-error counter clears it. -/
  | secntClear (i : Nat)
  /-- CONFIG_WRITE (R452): Writes a configuration register that has no behaviour of its own. -/
  | configWrite (off : Nat) (v : HostWrite)
  /-- KERNEL_LOAD (R459): KLDCMD GO with UNL = 0 starts a kernel load. -/
  | kernelLoad (v : Word)
  /-- KERNEL_UNLOAD (R459): KLDCMD GO with UNL = 1 removes a kernel index. -/
  | kernelUnload (v : Word)
  /-- KERNEL_LOAD_DONE (R459): The load completes, writes CODE and sends MSI-X vector 3. -/
  | kernelLoadDone
  /-- ATTCMD_GO (R457): Writing GO requests an attestation report. -/
  | attcmdGo (v : Word)
  /-- ATTESTATION_REPORT (R457): The management core writes and signs the report, sets DONE and sends MSI-X. -/
  | attestationReport
  /-- DEVICE_RESET (R454): Reset starts the boot sequence of the management core. -/
  | deviceReset
  /-- HOST_CXL_MEM_ACCESS (R451): A host access through the HDM window reaches GLOBAL memory. -/
  | hostCxlMemAccess (r : RemoteAccess)
  /-- HBM_PATROL_SCRUB (R436): The base die scrubs every word once per 24 h. -/
  | hbmPatrolScrub (addr : Nat)
  /-- VAULT_PATROL_SCRUB (R439): Every vault is scrubbed once per second. -/
  | vaultPatrolScrub (addr : Nat)
  /-- TSV_PARITY_RETRY (R437): A transfer that failed parity is sent again. -/
  | tsvParityRetry (stack chan : Nat) (write : Bool) (retries : Nat)
  /-- LANE_TEST (R438): After three failed retries the lane test swaps a spare or raises MC_LINK. -/
  | laneTest (stack chan : Nat) (write : Bool) (lane addr : Nat) (passed : Bool)
  /-- BOND_LANE_SWAP (R439): A vault bond lane with repeated corrections is swapped in the next idle ck. -/
  | bondLaneSwap (core bank lane : Nat)
  /-- REMAP_POISON_WALK (R443): The management core's walk kills contexts mapping a lost range. -/
  | remapPoisonWalk (vault : Bool) (unit chan bank group : Nat)
  /-- REMOTE_DOMAIN_ACCESS (R84): A load or store that another device sends over Stanas arrives and is served, or refused with PAGE_KIND, at its physical address in this device's GLOBAL or per-core VAULT range. -/
  | remoteDomainAccess (r : RemoteAccess)
  /-- DTIME_DISCIPLINE (R372): The fabric chiplets discipline DTIME to the domain clock over Stanas and update the device's offset estimate, which sets SKEW when it exceeds 125 ns. -/
  | dtimeDiscipline (dtime : Nat) (offset : Int)
  deriving DecidableEq, Repr

/-- The constructors that are steps of the engines, the scheduler, the host or the management core and
have no instruction word. -/
def Instr.isEvent : Instr → Bool
  | .tlbinvRetire => true
  | .swapSubblockMove _ => true
  | .swapComplete _ => true
  | .homeAtomic _ => true
  | .vamoswpOldValue _ => true
  | .clusterSpanPacket _ => true
  | .gatherResponse _ => true
  | .streamDispatch _ _ => true
  | .streamElementGroup _ _ => true
  | .streamComplete _ _ => true
  | .streamStop _ _ => true
  | .portDisplace _ _ _ => true
  | .attachmentReacquire _ => true
  | .matrixPass _ => true
  | .tileWrite _ => true
  | .mgemvRow _ _ _ => true
  | .factoringBufferTake _ _ => true
  | .collectivePacket _ => true
  | .arrivalReport _ => true
  | .collectiveDeadline _ => true
  | .homeCombine _ _ _ => true
  | .roundRelease _ _ _ => true
  | .memberDead _ => true
  | .demandRow _ => true
  | .calendarDeadline _ => true
  | .grantWrite _ _ => true
  | .sheetStart _ _ => true
  | .exchangeBytes _ => true
  | .readyFlit _ => true
  | .looseTailStart _ => true
  | .imposerHeartbeat _ _ => true
  | .standbyTakeover _ => true
  | .leaveGrant => true
  | .leaveExpiry _ => true
  | .renewalTimeout _ => true
  | .deckCurrentSample _ _ => true
  | .launchPortWrite _ _ _ => true
  | .launchPacket _ => true
  | .waitcPacket _ => true
  | .signalPacket _ => true
  | .setdetPacket _ => true
  | .drainPacket _ => true
  | .markPacket _ => true
  | .counterReread _ => true
  | .dispatch => true
  | .preempt _ => true
  | .quantumExpiry _ => true
  | .preemptSave _ => true
  | .restore => true
  | .unpark => true
  | .ctxctlMakeResident _ => true
  | .ctxctlKill _ => true
  | .tfwd _ => true
  | .ckillRead => true
  | .qdescEnable _ _ => true
  | .qdescDisable _ _ => true
  | .mcrec0Clear _ => true
  | .alog0Clear _ => true
  | .llog0Clear _ => true
  | .secntClear _ => true
  | .configWrite _ _ => true
  | .kernelLoad _ => true
  | .kernelUnload _ => true
  | .kernelLoadDone => true
  | .attcmdGo _ => true
  | .attestationReport => true
  | .deviceReset => true
  | .hostCxlMemAccess _ => true
  | .hbmPatrolScrub _ => true
  | .vaultPatrolScrub _ => true
  | .tsvParityRetry _ _ _ _ => true
  | .laneTest _ _ _ _ _ _ => true
  | .bondLaneSwap _ _ _ => true
  | .remapPoisonWalk _ _ _ _ _ => true
  | .remoteDomainAccess _ => true
  | .dtimeDiscipline _ _ => true
  | .add _ => false
  | .sub _ => false
  | .and _ => false
  | .or _ => false
  | .xor _ => false
  | .sll _ => false
  | .srl _ => false
  | .sra _ => false
  | .slt _ => false
  | .sltn _ => false
  | .min _ => false
  | .max _ => false
  | .minn _ => false
  | .maxn _ => false
  | .mul _ => false
  | .mulh _ => false
  | .mulhn _ => false
  | .div _ => false
  | .divn _ => false
  | .rem _ => false
  | .remn _ => false
  | .clz _ => false
  | .ctz _ => false
  | .popc _ => false
  | .addi _ => false
  | .andi _ => false
  | .ori _ => false
  | .xori _ => false
  | .slti _ => false
  | .slli _ => false
  | .srli _ => false
  | .srai _ => false
  | .lui _ => false
  | .auipc _ => false
  | .jal _ => false
  | .jalr _ => false
  | .loop _ => false
  | .fadd _ => false
  | .fsub _ => false
  | .fmul _ => false
  | .fdiv _ => false
  | .fsqrt _ => false
  | .fma _ => false
  | .fmin _ => false
  | .fmax _ => false
  | .fcmp _ => false
  | .fcvt _ => false
  | .fmv _ => false
  | .ldacq _ => false
  | .strel _ => false
  | .amoadd _ => false
  | .amoswp _ => false
  | .amocas _ => false
  | .amomin _ => false
  | .amomax _ => false
  | .amoand _ => false
  | .amoor _ => false
  | .ldb _ => false
  | .ldbn _ => false
  | .ldh _ => false
  | .ldhn _ => false
  | .ldw _ => false
  | .ldwn _ => false
  | .ldd _ => false
  | .stb _ => false
  | .sth _ => false
  | .stw _ => false
  | .std _ => false
  | .beq _ => false
  | .bne _ => false
  | .blt _ => false
  | .bge _ => false
  | .bltn _ => false
  | .bgen _ => false
  | .vadd _ => false
  | .vsub _ => false
  | .vmul _ => false
  | .vmulh _ => false
  | .vand _ => false
  | .vor _ => false
  | .vxor _ => false
  | .vsll _ => false
  | .vsrl _ => false
  | .vsra _ => false
  | .vmin _ => false
  | .vmax _ => false
  | .vminn _ => false
  | .vmaxn _ => false
  | .vsadd _ => false
  | .vssub _ => false
  | .vmerge _ => false
  | .vaddScalar _ => false
  | .vsubScalar _ => false
  | .vmulScalar _ => false
  | .vmulhScalar _ => false
  | .vandScalar _ => false
  | .vorScalar _ => false
  | .vxorScalar _ => false
  | .vsllScalar _ => false
  | .vsrlScalar _ => false
  | .vsraScalar _ => false
  | .vminScalar _ => false
  | .vmaxScalar _ => false
  | .vminnScalar _ => false
  | .vmaxnScalar _ => false
  | .vsaddScalar _ => false
  | .vssubScalar _ => false
  | .vmergeScalar _ => false
  | .vpopc _ => false
  | .vclz _ => false
  | .vid _ => false
  | .vmvs _ => false
  | .vmvx _ => false
  | .vfadd _ => false
  | .vfsub _ => false
  | .vfmul _ => false
  | .vfma _ => false
  | .vfnma _ => false
  | .vfdiv _ => false
  | .vfmin _ => false
  | .vfmax _ => false
  | .vfaddScalar _ => false
  | .vfsubScalar _ => false
  | .vfmulScalar _ => false
  | .vfmaScalar _ => false
  | .vfnmaScalar _ => false
  | .vfdivScalar _ => false
  | .vfminScalar _ => false
  | .vfmaxScalar _ => false
  | .vfsqrt _ => false
  | .vfabs _ => false
  | .vfneg _ => false
  | .vfexp2 _ => false
  | .vflog2 _ => false
  | .vfrsq _ => false
  | .vfrcp _ => false
  | .vcvt _ => false
  | .vcmpeq _ => false
  | .vcmpne _ => false
  | .vcmplt _ => false
  | .vcmple _ => false
  | .vcmpltn _ => false
  | .vcmplen _ => false
  | .vfcmpeq _ => false
  | .vfcmplt _ => false
  | .vfcmple _ => false
  | .vcmpeqScalar _ => false
  | .vcmpneScalar _ => false
  | .vcmpltScalar _ => false
  | .vcmpleScalar _ => false
  | .vcmpltnScalar _ => false
  | .vcmplenScalar _ => false
  | .vfcmpeqScalar _ => false
  | .vfcmpltScalar _ => false
  | .vfcmpleScalar _ => false
  | .vslideup _ => false
  | .vslidedn _ => false
  | .vrgath _ => false
  | .vcmpr _ => false
  | .vredsum _ => false
  | .vredmax _ => false
  | .vredmin _ => false
  | .vfredsum _ => false
  | .vfredmax _ => false
  | .vfredmin _ => false
  | .vargmax _ => false
  | .vspsel _ => false
  | .vconfl _ => false
  | .vfcomb _ => false
  | .capp _ => false
  | .setvl _ => false
  | .setvli _ => false
  | .vld _ => false
  | .vlds _ => false
  | .vldx _ => false
  | .vldt _ => false
  | .vst _ => false
  | .vsts _ => false
  | .vstx _ => false
  | .vstt _ => false
  | .vldff _ => false
  | .vldv _ => false
  | .vstv _ => false
  | .vldxa _ => false
  | .vstxr _ => false
  | .vamoadd _ => false
  | .vamomin _ => false
  | .vamomax _ => false
  | .vamoswp _ => false
  | .fence _ => false
  | .kand _ => false
  | .kor _ => false
  | .kxor _ => false
  | .knot _ => false
  | .kmov _ => false
  | .kffs _ => false
  | .kpopc _ => false
  | .hvset _ => false
  | .hvrand _ => false
  | .hvbind _ => false
  | .hvperm _ => false
  | .hvbund _ => false
  | .hvmaj _ => false
  | .hvsim _ => false
  | .hvclean _ => false
  | .hvfact _ => false
  | .hvstat _ => false
  | .skset _ => false
  | .skfeed _ => false
  | .skest _ => false
  | .skstat _ => false
  | .skclr _ => false
  | .matt _ => false
  | .mdet _ => false
  | .mzero _ => false
  | .mma _ => false
  | .mldb _ => false
  | .mst _ => false
  | .mgemv _ => false
  | .strm _ => false
  | .savail _ => false
  | .swait _ => false
  | .scancel _ => false
  | .ssusp _ => false
  | .sresm _ => false
  | .vldp _ => false
  | .vstp _ => false
  | .vstc _ => false
  | .vldc _ => false
  | .cwait _ => false
  | .dpost _ => false
  | .dposta _ => false
  | .xtrim _ => false
  | .xgo _ => false
  | .xwait _ => false
  | .xstat _ => false
  | .cset _ => false
  | .csrrd _ => false
  | .csrwr _ => false
  | .csrset _ => false
  | .csrclr _ => false
  | .trap _ => false
  | .tret _ => false
  | .wfe _ => false
  | .sev _ => false
  | .pause _ => false
  | .tend _ => false
  | .bjoin _ => false
  | .bleave _ => false
  | .barr _ => false
  | .bwait _ => false
  | .barw _ => false
  | .btest _ => false
  | .waitc _ => false
  | .qpost _ => false
  | .swappg _ => false
  | .tlbinv _ => false
  | .savectx _ => false

end Sys2Proof
end

