-- ==== Sys2Proof/WellFormed.lean ====
section
/-! DEFINITION. When an instruction is well formed: the kinds of its register fields (R45), its mask
bit (R47), its chain bits (R48), its convoy bit (R49) and the field rules of its row (R56 to R77). A
word whose instruction is not well formed raises ILLEGAL (R55). -/

namespace Sys2Proof

/-- The kinds of a register field (R45): `n` is a small number up to its bound, `z` an unused field. -/
inductive Kind
  | g | v | v1 | k | ks | p | t | n (max : Nat) | z
  deriving DecidableEq, Repr

/-- Whether a field value is allowed for a kind (R45). Kind `ks` allows 8 for ksm. -/
def Kind.ok : Kind → Reg → Bool
  | .g, _ | .v, _ | .v1, _ => true
  | .k, r => decide (r.toNat < 8)
  | .ks, r => decide (r.toNat < 9)
  | .p, r => decide (r.toNat < 16)
  | .t, r => decide (r.toNat < 4)
  | .n max, r => decide (r.toNat ≤ max)
  | .z, r => r == 0

/-- The three rules for the mask bit (R47). -/
inductive MaskRule
  | opt | req | no
  deriving DecidableEq, Repr

/-- Whether the mask bit keeps its row's rule (R47). -/
def MaskRule.ok : MaskRule → Bool → Bool
  | .opt, _ => true
  | .req, m => m
  | .no, m => !m

/-- A chain bit may be 1 only when its field has kind v (R48). -/
def chainOk (c : Bool) (kind : Kind) : Bool := !c || kind == .v

/-- The field rules of an S-format row, in the order d, a, b (R45). -/
def kindsOk (kd ka kb : Kind) (d a b : Reg) : Bool := kd.ok d && ka.ok a && kb.ok b

/-- The field rules of a V-format row (R45, R47 to R49). -/
def VF.ok (f : VF) (m : MaskRule) (convoy : Bool) (d s1 s2 : Kind) : Bool :=
  m.ok f.m && (convoy || !f.cv) && kindsOk d s1 s2 f.d f.s1 f.s2 && chainOk f.c1 s1 && chainOk f.c2 s2

/-- The field rules of a T-format row: no mask, no convoy, the accepted formats (R73). -/
def TF.ok (f : TF) (formats : List Nat) (d s1 s2 : Kind) : Bool :=
  !f.m && !f.cv && formats.contains f.fmt.toNat && kindsOk d s1 s2 f.d f.s1 f.s2
    && chainOk f.c1 s1 && chainOk f.c2 s2

/-- What the fmt field of a VM-format row may hold (R50, R68). -/
inductive FmtRule
  | any | zero | scope
  deriving DecidableEq, Repr

/-- Whether fmt keeps its row's rule: scope codes run from 0 to 6 (R50). -/
def FmtRule.ok : FmtRule → BitVec 4 → Bool
  | .any, _ => true
  | .zero, x => x == 0
  | .scope, x => decide (x.toNat ≤ 6)

/-- The source that the chain bit c of a VM-format row belongs to (R68). -/
inductive ChainOf
  | nothing | x | d
  deriving DecidableEq, Repr

/-- The field rules of a VM-format row (R68). -/
def VMF.ok (f : VMF) (fmt : FmtRule) (order : Bool) (c : ChainOf) (x : Kind) : Bool :=
  fmt.ok f.fmt && (order || !f.o) && (c != .nothing || !f.c) && x.ok f.x

/-- The field rules of FENCE (R69): scope 0 to 6, some class selected, [14:9] zero. -/
def fenceOk (f : IF) : Bool :=
  decide ((f.imm.extractLsb' 0 3).toNat ≤ 6) && f.imm.extractLsb' 3 6 != 0
    && f.imm.extractLsb' 9 6 == 0 && f.a == 0 && f.d == 0

/-- The addresses of the CSR map (R265). -/
def csrNamed (c : BitVec 12) : Bool :=
  let n := c.toNat
  decide (n ≤ 5) || (decide (8 ≤ n) && decide (n ≤ 0x15)) || (decide (0x20 ≤ n) && decide (n ≤ 0x2D))
    || (decide (0x30 ≤ n) && decide (n ≤ 0x34)) || n == 0x38 || (decide (0x40 ≤ n) && decide (n ≤ 0x46))
    || n == 0x50 || n == 0x51

/-- Whether an instruction keeps every field rule of its row. A step without a word has no field to check. -/
def Instr.wf : Instr → Bool
  | .add f => kindsOk .g .g .g f.d f.a f.b
  | .sub f => kindsOk .g .g .g f.d f.a f.b
  | .and f => kindsOk .g .g .g f.d f.a f.b
  | .or f => kindsOk .g .g .g f.d f.a f.b
  | .xor f => kindsOk .g .g .g f.d f.a f.b
  | .sll f => kindsOk .g .g .g f.d f.a f.b
  | .srl f => kindsOk .g .g .g f.d f.a f.b
  | .sra f => kindsOk .g .g .g f.d f.a f.b
  | .slt f => kindsOk .g .g .g f.d f.a f.b
  | .sltn f => kindsOk .g .g .g f.d f.a f.b
  | .min f => kindsOk .g .g .g f.d f.a f.b
  | .max f => kindsOk .g .g .g f.d f.a f.b
  | .minn f => kindsOk .g .g .g f.d f.a f.b
  | .maxn f => kindsOk .g .g .g f.d f.a f.b
  | .mul f => kindsOk .g .g .g f.d f.a f.b
  | .mulh f => kindsOk .g .g .g f.d f.a f.b
  | .mulhn f => kindsOk .g .g .g f.d f.a f.b
  | .div f => kindsOk .g .g .g f.d f.a f.b
  | .divn f => kindsOk .g .g .g f.d f.a f.b
  | .rem f => kindsOk .g .g .g f.d f.a f.b
  | .remn f => kindsOk .g .g .g f.d f.a f.b
  | .clz f => kindsOk .g .g .z f.d f.a f.b
  | .ctz f => kindsOk .g .g .z f.d f.a f.b
  | .popc f => kindsOk .g .g .z f.d f.a f.b
  | .addi _ => true
  | .andi _ => true
  | .ori _ => true
  | .xori _ => true
  | .slti _ => true
  | .slli _ => true
  | .srli _ => true
  | .srai _ => true
  | .lui _ => true
  | .auipc _ => true
  | .jal _ => true
  | .jalr _ => true
  | .loop f => f.b == 0
  | .fadd f => kindsOk .g .g .g f.d f.a f.b
  | .fsub f => kindsOk .g .g .g f.d f.a f.b
  | .fmul f => kindsOk .g .g .g f.d f.a f.b
  | .fdiv f => kindsOk .g .g .g f.d f.a f.b
  | .fsqrt f => kindsOk .g .g .z f.d f.a f.b
  | .fma f => kindsOk .g .g .g f.d f.a f.b
  | .fmin f => kindsOk .g .g .g f.d f.a f.b
  | .fmax f => kindsOk .g .g .g f.d f.a f.b
  | .fcmp f => decide (f.n.toNat ≤ 2)
  | .fcvt f => kindsOk .g .g (.n 4) f.d f.a f.b
  | .fmv f => kindsOk .g .g .z f.d f.a f.b
  | .ldacq f => kindsOk .g .g .z f.d f.a f.b && f.succ == 0 && f.fail == 0
  | .strel f => kindsOk .z .g .g f.d f.a f.b && f.succ == 0 && f.fail == 0
  | .amoadd f => kindsOk .g .g .g f.d f.a f.b && f.fail == 0
  | .amoswp f => kindsOk .g .g .g f.d f.a f.b && f.fail == 0
  | .amocas f => kindsOk .g .g .g f.d f.a f.b && decide (f.fail.toNat ≤ 1)
  | .amomin f => kindsOk .g .g .g f.d f.a f.b && f.fail == 0
  | .amomax f => kindsOk .g .g .g f.d f.a f.b && f.fail == 0
  | .amoand f => kindsOk .g .g .g f.d f.a f.b && f.fail == 0
  | .amoor f => kindsOk .g .g .g f.d f.a f.b && f.fail == 0
  | .ldb _ => true
  | .ldbn _ => true
  | .ldh _ => true
  | .ldhn _ => true
  | .ldw _ => true
  | .ldwn _ => true
  | .ldd _ => true
  | .stb _ => true
  | .sth _ => true
  | .stw _ => true
  | .std _ => true
  | .beq _ => true
  | .bne _ => true
  | .blt _ => true
  | .bge _ => true
  | .bltn _ => true
  | .bgen _ => true
  | .vadd f => f.ok .opt true .v .v .v
  | .vsub f => f.ok .opt true .v .v .v
  | .vmul f => f.ok .opt true .v .v .v
  | .vmulh f => f.ok .opt true .v .v .v
  | .vand f => f.ok .opt true .v .v .v
  | .vor f => f.ok .opt true .v .v .v
  | .vxor f => f.ok .opt true .v .v .v
  | .vsll f => f.ok .opt true .v .v .v
  | .vsrl f => f.ok .opt true .v .v .v
  | .vsra f => f.ok .opt true .v .v .v
  | .vmin f => f.ok .opt true .v .v .v
  | .vmax f => f.ok .opt true .v .v .v
  | .vminn f => f.ok .opt true .v .v .v
  | .vmaxn f => f.ok .opt true .v .v .v
  | .vsadd f => f.ok .opt true .v .v .v
  | .vssub f => f.ok .opt true .v .v .v
  | .vmerge f => f.ok .req true .v .v .v
  | .vaddScalar f => f.ok .opt true .v .v .g
  | .vsubScalar f => f.ok .opt true .v .v .g
  | .vmulScalar f => f.ok .opt true .v .v .g
  | .vmulhScalar f => f.ok .opt true .v .v .g
  | .vandScalar f => f.ok .opt true .v .v .g
  | .vorScalar f => f.ok .opt true .v .v .g
  | .vxorScalar f => f.ok .opt true .v .v .g
  | .vsllScalar f => f.ok .opt true .v .v .g
  | .vsrlScalar f => f.ok .opt true .v .v .g
  | .vsraScalar f => f.ok .opt true .v .v .g
  | .vminScalar f => f.ok .opt true .v .v .g
  | .vmaxScalar f => f.ok .opt true .v .v .g
  | .vminnScalar f => f.ok .opt true .v .v .g
  | .vmaxnScalar f => f.ok .opt true .v .v .g
  | .vsaddScalar f => f.ok .opt true .v .v .g
  | .vssubScalar f => f.ok .opt true .v .v .g
  | .vmergeScalar f => f.ok .req true .v .v .g
  | .vpopc f => f.ok .opt true .v .v .z
  | .vclz f => f.ok .opt true .v .v .z
  | .vid f => f.ok .opt true .v .z .z
  | .vmvs f => f.ok .opt true .v .g .z
  | .vmvx f => f.ok .no true .g .v .z
  | .vfadd f => f.ok .opt true .v .v .v
  | .vfsub f => f.ok .opt true .v .v .v
  | .vfmul f => f.ok .opt true .v .v .v
  | .vfma f => f.ok .opt true .v .v .v
  | .vfnma f => f.ok .opt true .v .v .v
  | .vfdiv f => f.ok .opt true .v .v .v
  | .vfmin f => f.ok .opt true .v .v .v
  | .vfmax f => f.ok .opt true .v .v .v
  | .vfaddScalar f => f.ok .opt true .v .v .g
  | .vfsubScalar f => f.ok .opt true .v .v .g
  | .vfmulScalar f => f.ok .opt true .v .v .g
  | .vfmaScalar f => f.ok .opt true .v .v .g
  | .vfnmaScalar f => f.ok .opt true .v .v .g
  | .vfdivScalar f => f.ok .opt true .v .v .g
  | .vfminScalar f => f.ok .opt true .v .v .g
  | .vfmaxScalar f => f.ok .opt true .v .v .g
  | .vfsqrt f => f.ok .opt true .v .v .z
  | .vfabs f => f.ok .opt true .v .v .z
  | .vfneg f => f.ok .opt true .v .v .z
  | .vfexp2 f => f.ok .opt true .v .v .z
  | .vflog2 f => f.ok .opt true .v .v .z
  | .vfrsq f => f.ok .opt true .v .v .z
  | .vfrcp f => f.ok .opt true .v .v .z
  | .vcvt f => f.ok .opt true .v .v (.n 9)
  | .vcmpeq f => f.ok .opt true .k .v .v
  | .vcmpne f => f.ok .opt true .k .v .v
  | .vcmplt f => f.ok .opt true .k .v .v
  | .vcmple f => f.ok .opt true .k .v .v
  | .vcmpltn f => f.ok .opt true .k .v .v
  | .vcmplen f => f.ok .opt true .k .v .v
  | .vfcmpeq f => f.ok .opt true .k .v .v
  | .vfcmplt f => f.ok .opt true .k .v .v
  | .vfcmple f => f.ok .opt true .k .v .v
  | .vcmpeqScalar f => f.ok .opt true .k .v .g
  | .vcmpneScalar f => f.ok .opt true .k .v .g
  | .vcmpltScalar f => f.ok .opt true .k .v .g
  | .vcmpleScalar f => f.ok .opt true .k .v .g
  | .vcmpltnScalar f => f.ok .opt true .k .v .g
  | .vcmplenScalar f => f.ok .opt true .k .v .g
  | .vfcmpeqScalar f => f.ok .opt true .k .v .g
  | .vfcmpltScalar f => f.ok .opt true .k .v .g
  | .vfcmpleScalar f => f.ok .opt true .k .v .g
  | .vslideup f => f.ok .opt true .v .v .g
  | .vslidedn f => f.ok .opt true .v .v .g
  | .vrgath f => f.ok .opt true .v .v .v
  | .vcmpr f => f.ok .req true .v .v .z
  | .vredsum f => f.ok .opt true .g .v .g
  | .vredmax f => f.ok .opt true .g .v .g
  | .vredmin f => f.ok .opt true .g .v .g
  | .vfredsum f => f.ok .opt true .g .v .g
  | .vfredmax f => f.ok .opt true .g .v .g
  | .vfredmin f => f.ok .opt true .g .v .g
  | .vargmax f => f.ok .opt true .g .v .z
  | .vspsel f => f.ok .opt true .v .v (.n 2)
  | .vconfl f => f.ok .opt true .v .v .z
  | .vfcomb f => f.ok .opt true .v .v .v
  | .capp f => f.ok .opt true .z .g .z
  | .setvl f => kindsOk .g .g .g f.d f.a f.b
  | .setvli f => f.imm.extractLsb' 10 5 == 0
  | .vld f => f.ok .any true .nothing .z
  | .vlds f => f.ok .any true .nothing .g
  | .vldx f => f.ok .any true .x .v
  | .vldt f => f.ok .zero true .nothing .v1
  | .vst f => f.ok .any true .d .z
  | .vsts f => f.ok .any true .d .g
  | .vstx f => f.ok .any true .d .v
  | .vstt f => f.ok .zero true .d .v1
  | .vldff f => f.ok .any true .nothing .z
  | .vldv f => f.ok .any false .nothing .z
  | .vstv f => f.ok .any false .d .z
  | .vldxa f => f.ok .scope false .x .v
  | .vstxr f => f.ok .scope false .d .v
  | .vamoadd f => f.ok .zero false .d .v
  | .vamomin f => f.ok .zero false .d .v
  | .vamomax f => f.ok .zero false .d .v
  | .vamoswp f => f.ok .zero false .d .v
  | .fence f => fenceOk f
  | .kand f => f.ok .no true .k .ks .ks
  | .kor f => f.ok .no true .k .ks .ks
  | .kxor f => f.ok .no true .k .ks .ks
  | .knot f => f.ok .no true .k .ks .z
  | .kmov f => f.ok .no true .ks .ks .z
  | .kffs f => f.ok .no true .g .ks .z
  | .kpopc f => f.ok .no true .g .ks .z
  | .hvset f => f.ok .no false .z .g .z
  | .hvrand f => f.ok .no false .v .g .z
  | .hvbind f => f.ok .no true .v .v .v
  | .hvperm f => f.ok .no true .v .v .g
  | .hvbund f => f.ok .no true .v .v .g
  | .hvmaj f => f.ok .no true .v .v .v
  | .hvsim f => f.ok .no true .g .v .v
  | .hvclean f => f.ok .no false .g .v .z
  | .hvfact f => f.ok .no false .g .v .z
  | .hvstat f => f.ok .no false .g .z .z
  | .skset f => f.ok .no false .z .g .z
  | .skfeed f => f.ok .opt false .z .v .z
  | .skest f => f.ok .opt false .v .z .z
  | .skstat f => f.ok .no false .k .g (.n 3)
  | .skclr f => f.ok .no false .z .z .z
  | .matt f => f.ok .no false .g .g .z
  | .mdet f => f.ok .no false .z .z .z
  | .mzero f => f.ok .no false .t .z .z
  | .mma f => f.ok [0, 1, 9, 10, 13, 14] .t .g (.n 1)
  | .mldb f => f.ok [0, 1, 9, 10, 13, 14] (.n 1) .g .z
  | .mst f => f.ok (List.range 16) .t .g .g
  | .mgemv f => f.ok [9, 10, 13, 14] .p .g .v
  | .strm f => f.ok .no false .p .v1 .g
  | .savail f => f.ok .no false .g .p .z
  | .swait f => f.ok .no false .z .p .z
  | .scancel f => f.ok .no false .z .p .z
  | .ssusp f => f.ok .no false .z .p .z
  | .sresm f => f.ok .no false .z .p .z
  | .vldp f => f.ok .opt true .v .p .z
  | .vstp f => f.ok .opt true .z .p .v
  | .vstc f => f.ok .opt false .z .g .v
  | .vldc f => f.ok .opt false .v .g .z
  | .cwait f => f.ok .no false .z .z .z
  | .dpost f => f.ok .no false .z .v .z
  | .dposta f => f.ok .no false .z .v .z
  | .xtrim f => f.ok .no false .z .g .g
  | .xgo f => f.ok .no false .z .z .z
  | .xwait f => f.ok .no false .g .g .z
  | .xstat f => f.ok .no false .g .z .z
  | .cset f => decide (f.cop.toNat ≤ 4)
  | .csrrd f => csrNamed f.csr && f.a == 0
  | .csrwr f => csrNamed f.csr
  | .csrset f => csrNamed f.csr
  | .csrclr f => csrNamed f.csr
  | .trap f => f.a == 0 && f.d == 0
  | .tret f => f.csr == 0 && f.a == 0 && f.d == 0
  | .wfe f => f.csr == 0 && f.a == 0 && f.d == 0
  | .sev f => f.csr == 0 && f.d == 0
  | .pause f => f.csr == 0 && f.a == 0 && f.d == 0
  | .tend f => f.csr == 0 && f.a == 0 && f.d == 0
  | .bjoin f => kindsOk .z .g .z f.d f.a f.b
  | .bleave f => kindsOk .z .g .z f.d f.a f.b
  | .barr f => kindsOk .g .g .z f.d f.a f.b
  | .bwait f => kindsOk .z .g .g f.d f.a f.b
  | .barw f => kindsOk .g .g .z f.d f.a f.b
  | .btest f => kindsOk .g .g .g f.d f.a f.b
  | .waitc f => kindsOk .z .g .g f.d f.a f.b
  | .qpost f => kindsOk .g .g .g f.d f.a f.b
  | .swappg f => kindsOk .g .g .g f.d f.a f.b
  | .tlbinv f => kindsOk .z .g .g f.d f.a f.b
  | .savectx f => kindsOk .g .g .z f.d f.a f.b
  | .tlbinvRetire => true
  | .swapSubblockMove .. => true
  | .swapComplete .. => true
  | .homeAtomic .. => true
  | .vamoswpOldValue .. => true
  | .clusterSpanPacket .. => true
  | .gatherResponse .. => true
  | .streamDispatch .. => true
  | .streamElementGroup .. => true
  | .streamComplete .. => true
  | .streamStop .. => true
  | .portDisplace .. => true
  | .attachmentReacquire .. => true
  | .matrixPass .. => true
  | .tileWrite .. => true
  | .mgemvRow .. => true
  | .factoringBufferTake .. => true
  | .collectivePacket .. => true
  | .arrivalReport .. => true
  | .collectiveDeadline .. => true
  | .homeCombine .. => true
  | .roundRelease .. => true
  | .memberDead .. => true
  | .demandRow .. => true
  | .calendarDeadline .. => true
  | .grantWrite .. => true
  | .sheetStart .. => true
  | .exchangeBytes .. => true
  | .readyFlit .. => true
  | .looseTailStart .. => true
  | .imposerHeartbeat .. => true
  | .standbyTakeover .. => true
  | .leaveGrant => true
  | .leaveExpiry .. => true
  | .renewalTimeout .. => true
  | .deckCurrentSample .. => true
  | .launchPortWrite .. => true
  | .launchPacket .. => true
  | .waitcPacket .. => true
  | .signalPacket .. => true
  | .setdetPacket .. => true
  | .drainPacket .. => true
  | .markPacket .. => true
  | .counterReread .. => true
  | .dispatch => true
  | .preempt .. => true
  | .quantumExpiry .. => true
  | .preemptSave .. => true
  | .restore => true
  | .unpark => true
  | .ctxctlMakeResident .. => true
  | .ctxctlKill .. => true
  | .tfwd .. => true
  | .ckillRead => true
  | .qdescEnable .. => true
  | .qdescDisable .. => true
  | .mcrec0Clear .. => true
  | .alog0Clear .. => true
  | .llog0Clear .. => true
  | .secntClear .. => true
  | .configWrite .. => true
  | .kernelLoad .. => true
  | .kernelUnload .. => true
  | .kernelLoadDone => true
  | .attcmdGo .. => true
  | .attestationReport => true
  | .deviceReset => true
  | .hostCxlMemAccess .. => true
  | .hbmPatrolScrub .. => true
  | .vaultPatrolScrub .. => true
  | .tsvParityRetry .. => true
  | .laneTest .. => true
  | .bondLaneSwap .. => true
  | .remapPoisonWalk .. => true
  | .remoteDomainAccess .. => true
  | .dtimeDiscipline .. => true

/-- The convoy-capable instructions (R49). -/
def Instr.convoyCapable : Instr → Bool
  | .vadd _ => true
  | .vsub _ => true
  | .vmul _ => true
  | .vmulh _ => true
  | .vand _ => true
  | .vor _ => true
  | .vxor _ => true
  | .vsll _ => true
  | .vsrl _ => true
  | .vsra _ => true
  | .vmin _ => true
  | .vmax _ => true
  | .vminn _ => true
  | .vmaxn _ => true
  | .vsadd _ => true
  | .vssub _ => true
  | .vmerge _ => true
  | .vaddScalar _ => true
  | .vsubScalar _ => true
  | .vmulScalar _ => true
  | .vmulhScalar _ => true
  | .vandScalar _ => true
  | .vorScalar _ => true
  | .vxorScalar _ => true
  | .vsllScalar _ => true
  | .vsrlScalar _ => true
  | .vsraScalar _ => true
  | .vminScalar _ => true
  | .vmaxScalar _ => true
  | .vminnScalar _ => true
  | .vmaxnScalar _ => true
  | .vsaddScalar _ => true
  | .vssubScalar _ => true
  | .vmergeScalar _ => true
  | .vpopc _ => true
  | .vclz _ => true
  | .vid _ => true
  | .vmvs _ => true
  | .vmvx _ => true
  | .vfadd _ => true
  | .vfsub _ => true
  | .vfmul _ => true
  | .vfma _ => true
  | .vfnma _ => true
  | .vfdiv _ => true
  | .vfmin _ => true
  | .vfmax _ => true
  | .vfaddScalar _ => true
  | .vfsubScalar _ => true
  | .vfmulScalar _ => true
  | .vfmaScalar _ => true
  | .vfnmaScalar _ => true
  | .vfdivScalar _ => true
  | .vfminScalar _ => true
  | .vfmaxScalar _ => true
  | .vfsqrt _ => true
  | .vfabs _ => true
  | .vfneg _ => true
  | .vfexp2 _ => true
  | .vflog2 _ => true
  | .vfrsq _ => true
  | .vfrcp _ => true
  | .vcvt _ => true
  | .vcmpeq _ => true
  | .vcmpne _ => true
  | .vcmplt _ => true
  | .vcmple _ => true
  | .vcmpltn _ => true
  | .vcmplen _ => true
  | .vfcmpeq _ => true
  | .vfcmplt _ => true
  | .vfcmple _ => true
  | .vcmpeqScalar _ => true
  | .vcmpneScalar _ => true
  | .vcmpltScalar _ => true
  | .vcmpleScalar _ => true
  | .vcmpltnScalar _ => true
  | .vcmplenScalar _ => true
  | .vfcmpeqScalar _ => true
  | .vfcmpltScalar _ => true
  | .vfcmpleScalar _ => true
  | .vslideup _ => true
  | .vslidedn _ => true
  | .vrgath _ => true
  | .vcmpr _ => true
  | .vredsum _ => true
  | .vredmax _ => true
  | .vredmin _ => true
  | .vfredsum _ => true
  | .vfredmax _ => true
  | .vfredmin _ => true
  | .vargmax _ => true
  | .vspsel _ => true
  | .vconfl _ => true
  | .vfcomb _ => true
  | .capp _ => true
  | .vld _ => true
  | .vlds _ => true
  | .vldx _ => true
  | .vldt _ => true
  | .vst _ => true
  | .vsts _ => true
  | .vstx _ => true
  | .vstt _ => true
  | .vldff _ => true
  | .vldv _ => true
  | .vstv _ => true
  | .vldxa _ => true
  | .vstxr _ => true
  | .vamoadd _ => true
  | .vamomin _ => true
  | .vamomax _ => true
  | .vamoswp _ => true
  | .kand _ => true
  | .kor _ => true
  | .kxor _ => true
  | .knot _ => true
  | .kmov _ => true
  | .kffs _ => true
  | .kpopc _ => true
  | .hvbind _ => true
  | .hvperm _ => true
  | .hvbund _ => true
  | .hvmaj _ => true
  | .hvsim _ => true
  | .vldp _ => true
  | .vstp _ => true
  | _ => false

/-- The convoy bit cv of a V, VM or T word; other formats have none. -/
def Instr.cv : Instr → Bool
  | .vadd f => f.cv
  | .vsub f => f.cv
  | .vmul f => f.cv
  | .vmulh f => f.cv
  | .vand f => f.cv
  | .vor f => f.cv
  | .vxor f => f.cv
  | .vsll f => f.cv
  | .vsrl f => f.cv
  | .vsra f => f.cv
  | .vmin f => f.cv
  | .vmax f => f.cv
  | .vminn f => f.cv
  | .vmaxn f => f.cv
  | .vsadd f => f.cv
  | .vssub f => f.cv
  | .vmerge f => f.cv
  | .vaddScalar f => f.cv
  | .vsubScalar f => f.cv
  | .vmulScalar f => f.cv
  | .vmulhScalar f => f.cv
  | .vandScalar f => f.cv
  | .vorScalar f => f.cv
  | .vxorScalar f => f.cv
  | .vsllScalar f => f.cv
  | .vsrlScalar f => f.cv
  | .vsraScalar f => f.cv
  | .vminScalar f => f.cv
  | .vmaxScalar f => f.cv
  | .vminnScalar f => f.cv
  | .vmaxnScalar f => f.cv
  | .vsaddScalar f => f.cv
  | .vssubScalar f => f.cv
  | .vmergeScalar f => f.cv
  | .vpopc f => f.cv
  | .vclz f => f.cv
  | .vid f => f.cv
  | .vmvs f => f.cv
  | .vmvx f => f.cv
  | .vfadd f => f.cv
  | .vfsub f => f.cv
  | .vfmul f => f.cv
  | .vfma f => f.cv
  | .vfnma f => f.cv
  | .vfdiv f => f.cv
  | .vfmin f => f.cv
  | .vfmax f => f.cv
  | .vfaddScalar f => f.cv
  | .vfsubScalar f => f.cv
  | .vfmulScalar f => f.cv
  | .vfmaScalar f => f.cv
  | .vfnmaScalar f => f.cv
  | .vfdivScalar f => f.cv
  | .vfminScalar f => f.cv
  | .vfmaxScalar f => f.cv
  | .vfsqrt f => f.cv
  | .vfabs f => f.cv
  | .vfneg f => f.cv
  | .vfexp2 f => f.cv
  | .vflog2 f => f.cv
  | .vfrsq f => f.cv
  | .vfrcp f => f.cv
  | .vcvt f => f.cv
  | .vcmpeq f => f.cv
  | .vcmpne f => f.cv
  | .vcmplt f => f.cv
  | .vcmple f => f.cv
  | .vcmpltn f => f.cv
  | .vcmplen f => f.cv
  | .vfcmpeq f => f.cv
  | .vfcmplt f => f.cv
  | .vfcmple f => f.cv
  | .vcmpeqScalar f => f.cv
  | .vcmpneScalar f => f.cv
  | .vcmpltScalar f => f.cv
  | .vcmpleScalar f => f.cv
  | .vcmpltnScalar f => f.cv
  | .vcmplenScalar f => f.cv
  | .vfcmpeqScalar f => f.cv
  | .vfcmpltScalar f => f.cv
  | .vfcmpleScalar f => f.cv
  | .vslideup f => f.cv
  | .vslidedn f => f.cv
  | .vrgath f => f.cv
  | .vcmpr f => f.cv
  | .vredsum f => f.cv
  | .vredmax f => f.cv
  | .vredmin f => f.cv
  | .vfredsum f => f.cv
  | .vfredmax f => f.cv
  | .vfredmin f => f.cv
  | .vargmax f => f.cv
  | .vspsel f => f.cv
  | .vconfl f => f.cv
  | .vfcomb f => f.cv
  | .capp f => f.cv
  | .vld f => f.cv
  | .vlds f => f.cv
  | .vldx f => f.cv
  | .vldt f => f.cv
  | .vst f => f.cv
  | .vsts f => f.cv
  | .vstx f => f.cv
  | .vstt f => f.cv
  | .vldff f => f.cv
  | .vldv f => f.cv
  | .vstv f => f.cv
  | .vldxa f => f.cv
  | .vstxr f => f.cv
  | .vamoadd f => f.cv
  | .vamomin f => f.cv
  | .vamomax f => f.cv
  | .vamoswp f => f.cv
  | .kand f => f.cv
  | .kor f => f.cv
  | .kxor f => f.cv
  | .knot f => f.cv
  | .kmov f => f.cv
  | .kffs f => f.cv
  | .kpopc f => f.cv
  | .hvset f => f.cv
  | .hvrand f => f.cv
  | .hvbind f => f.cv
  | .hvperm f => f.cv
  | .hvbund f => f.cv
  | .hvmaj f => f.cv
  | .hvsim f => f.cv
  | .hvclean f => f.cv
  | .hvfact f => f.cv
  | .hvstat f => f.cv
  | .skset f => f.cv
  | .skfeed f => f.cv
  | .skest f => f.cv
  | .skstat f => f.cv
  | .skclr f => f.cv
  | .matt f => f.cv
  | .mdet f => f.cv
  | .mzero f => f.cv
  | .mma f => f.cv
  | .mldb f => f.cv
  | .mst f => f.cv
  | .mgemv f => f.cv
  | .strm f => f.cv
  | .savail f => f.cv
  | .swait f => f.cv
  | .scancel f => f.cv
  | .ssusp f => f.cv
  | .sresm f => f.cv
  | .vldp f => f.cv
  | .vstp f => f.cv
  | .vstc f => f.cv
  | .vldc f => f.cv
  | .cwait f => f.cv
  | .dpost f => f.cv
  | .dposta f => f.cv
  | .xtrim f => f.cv
  | .xgo f => f.cv
  | .xwait f => f.cv
  | .xstat f => f.cv
  | _ => false

end Sys2Proof
end

