-- ==== Sys2Proof/Decode.lean ====
section
/-! DEFINITION. The decoder of 32-bit words (R42 to R77), total on any word, and the encoder written
from the same tables. -/

namespace Sys2Proof

/-- Why a word is no instruction; every one of them raises ILLEGAL (R55). -/
inductive DecodeError
  /-- a reserved major opcode (R54) -/
  | reservedMajor
  /-- a function code not listed for its major -/
  | reservedFunction
  /-- a field rule of R45, R47, R48 or R49 is broken, or csr12 names no CSR -/
  | fieldRule
  /-- fewer than four bytes -/
  | tooShort
  deriving DecidableEq, Repr

namespace IWord

/-- Bits [6:0], the major opcode (R42). -/
def major (w : IWord) : BitVec 7 := w.extractLsb' 0 7
/-- Bits [11:7]. -/
def d (w : IWord) : Reg := w.extractLsb' 7 5
/-- Bits [16:12]. -/
def a (w : IWord) : Reg := w.extractLsb' 12 5
/-- Bits [21:17]. -/
def b (w : IWord) : Reg := w.extractLsb' 17 5
/-- Bits [31:22] of S format. -/
def fn10 (w : IWord) : BitVec 10 := w.extractLsb' 22 10
/-- Bits [31:17] of I and B formats. -/
def imm15 (w : IWord) : BitVec 15 := w.extractLsb' 17 15
/-- Bits [31:12] of U/J format. -/
def imm20 (w : IWord) : BitVec 20 := w.extractLsb' 12 20
/-- Bits [31:20] of C format. -/
def csr12 (w : IWord) : BitVec 12 := w.extractLsb' 20 12
/-- Bits [19:17] of C format. -/
def fn3 (w : IWord) : BitVec 3 := w.extractLsb' 17 3
/-- Bits [31:26] of V and T formats. -/
def fn6 (w : IWord) : BitVec 6 := w.extractLsb' 26 6
/-- Bits [31:28] of VM format. -/
def vfmt (w : IWord) : BitVec 4 := w.extractLsb' 28 4
/-- Bits [27:26] of VM format. -/
def mop (w : IWord) : BitVec 2 := w.extractLsb' 26 2
/-- Bits [31:30] of T format. -/
def top (w : IWord) : BitVec 2 := w.extractLsb' 30 2
/-- Bits [29:26] of T format. -/
def tfmt (w : IWord) : BitVec 4 := w.extractLsb' 26 4
/-- Bit 25. -/
def m (w : IWord) : BitVec 1 := w.extractLsb' 25 1
/-- Bit 24. -/
def cv (w : IWord) : BitVec 1 := w.extractLsb' 24 1
/-- Bit 23: c2 in V and T formats, o in VM format. -/
def b23 (w : IWord) : BitVec 1 := w.extractLsb' 23 1
/-- Bit 22: c1 in V and T formats, c in VM format. -/
def b22 (w : IWord) : BitVec 1 := w.extractLsb' 22 1

end IWord

open IWord

/-- One bit as a Bool. -/
def bit (b : BitVec 1) : Bool := b == 1#1

/-- A Bool as one bit. -/
def unbit (b : Bool) : BitVec 1 := if b then 1#1 else 0#1

/-- The fields of S format. -/
def SF.of (w : IWord) : SF := ⟨w.b, w.a, w.d⟩
/-- The fields of an ATOM word (R59). -/
def AF.of (w : IWord) : AF := ⟨w.fn10.extractLsb' 2 2, w.fn10.extractLsb' 0 2, w.b, w.a, w.d⟩
/-- The fields of an FP word (R58). -/
def FF.of (w : IWord) : FF := ⟨bit (w.fn10.extractLsb' 0 1), w.b, w.a, w.d⟩
/-- The fields of an FCMP word (R58). -/
def FCF.of (w : IWord) : FCF := ⟨w.fn10.extractLsb' 1 2, bit (w.fn10.extractLsb' 0 1), w.b, w.a, w.d⟩
/-- The fields of a CSET word (R75). -/
def KF.of (w : IWord) : KF := ⟨w.fn10.extractLsb' 0 3, w.b, w.a, w.d⟩
/-- The fields of a SHI word (R57). -/
def HF.of (w : IWord) : HF := ⟨w.imm15.extractLsb' 0 6, w.a, w.d⟩
/-- The fields of I format. -/
def IF.of (w : IWord) : IF := ⟨w.imm15, w.a, w.d⟩
/-- The fields of B format. -/
def BF.of (w : IWord) : BF := ⟨w.imm15, w.a, w.d⟩
/-- The fields of U/J format. -/
def UF.of (w : IWord) : UF := ⟨w.imm20, w.d⟩
/-- The fields of C format. -/
def CF.of (w : IWord) : CF := ⟨w.csr12, w.a, w.d⟩
/-- The fields of V format. -/
def VF.of (w : IWord) : VF := ⟨bit w.m, bit w.cv, bit w.b23, bit w.b22, w.b, w.a, w.d⟩
/-- The fields of VM format. -/
def VMF.of (w : IWord) : VMF := ⟨w.vfmt, bit w.m, bit w.cv, bit w.b23, bit w.b22, w.b, w.a, w.d⟩
/-- The fields of T format. -/
def TF.of (w : IWord) : TF := ⟨w.tfmt, bit w.m, bit w.cv, bit w.b23, bit w.b22, w.b, w.a, w.d⟩

/-- The function codes of major 0x01 (R56). -/
def decodeOp (w : IWord) : Option Instr :=
  match w.fn10.toNat with
  | 0 => some (.add (.of w))
  | 1 => some (.sub (.of w))
  | 2 => some (.and (.of w))
  | 3 => some (.or (.of w))
  | 4 => some (.xor (.of w))
  | 5 => some (.sll (.of w))
  | 6 => some (.srl (.of w))
  | 7 => some (.sra (.of w))
  | 8 => some (.slt (.of w))
  | 9 => some (.sltn (.of w))
  | 10 => some (.min (.of w))
  | 11 => some (.max (.of w))
  | 12 => some (.minn (.of w))
  | 13 => some (.maxn (.of w))
  | 16 => some (.mul (.of w))
  | 17 => some (.mulh (.of w))
  | 18 => some (.mulhn (.of w))
  | 20 => some (.div (.of w))
  | 21 => some (.divn (.of w))
  | 22 => some (.rem (.of w))
  | 23 => some (.remn (.of w))
  | 24 => some (.clz (.of w))
  | 25 => some (.ctz (.of w))
  | 26 => some (.popc (.of w))
  | _ => none

/-- The function codes of major 0x07 (R57). -/
def decodeShi (w : IWord) : Option Instr :=
  if w.imm15.extractLsb' 6 7 != 0#7 then none else
  match (w.imm15.extractLsb' 13 2).toNat with
  | 0 => some (.slli (.of w))
  | 1 => some (.srli (.of w))
  | 2 => some (.srai (.of w))
  | _ => none

/-- The function codes of major 0x0D (R58). -/
def decodeFp (w : IWord) : Option Instr :=
  match (w.fn10.extractLsb' 1 9).toNat with
  | 0 => some (.fadd (.of w))
  | 1 => some (.fsub (.of w))
  | 2 => some (.fmul (.of w))
  | 3 => some (.fdiv (.of w))
  | 4 => some (.fsqrt (.of w))
  | 5 => some (.fma (.of w))
  | 6 => some (.fmin (.of w))
  | 7 => some (.fmax (.of w))
  | 8 => some (.fcmp (.of w))
  | 9 => some (.fcmp (.of w))
  | 10 => some (.fcmp (.of w))
  | 11 => some (.fcvt (.of w))
  | 12 => some (.fmv (.of w))
  | _ => none

/-- The function codes of major 0x0E (R59). -/
def decodeAtom (w : IWord) : Option Instr :=
  if w.fn10.extractLsb' 4 2 != 0#2 then none else
  match (w.fn10.extractLsb' 6 4).toNat with
  | 0 => some (.ldacq (.of w))
  | 1 => some (.strel (.of w))
  | 2 => some (.amoadd (.of w))
  | 3 => some (.amoswp (.of w))
  | 4 => some (.amocas (.of w))
  | 5 => some (.amomin (.of w))
  | 6 => some (.amomax (.of w))
  | 7 => some (.amoand (.of w))
  | 8 => some (.amoor (.of w))
  | _ => none

/-- The function codes of major 0x20 (R62). -/
def decodeVint (w : IWord) : Option Instr :=
  match w.fn6.toNat with
  | 0 => some (.vadd (.of w))
  | 1 => some (.vsub (.of w))
  | 2 => some (.vmul (.of w))
  | 3 => some (.vmulh (.of w))
  | 4 => some (.vand (.of w))
  | 5 => some (.vor (.of w))
  | 6 => some (.vxor (.of w))
  | 7 => some (.vsll (.of w))
  | 8 => some (.vsrl (.of w))
  | 9 => some (.vsra (.of w))
  | 10 => some (.vmin (.of w))
  | 11 => some (.vmax (.of w))
  | 12 => some (.vminn (.of w))
  | 13 => some (.vmaxn (.of w))
  | 14 => some (.vsadd (.of w))
  | 15 => some (.vssub (.of w))
  | 16 => some (.vmerge (.of w))
  | 24 => some (.vpopc (.of w))
  | 25 => some (.vclz (.of w))
  | 26 => some (.vid (.of w))
  | 27 => some (.vmvs (.of w))
  | 28 => some (.vmvx (.of w))
  | _ => none

/-- The function codes of major 0x21 (R62). -/
def decodeVints (w : IWord) : Option Instr :=
  match w.fn6.toNat with
  | 0 => some (.vaddScalar (.of w))
  | 1 => some (.vsubScalar (.of w))
  | 2 => some (.vmulScalar (.of w))
  | 3 => some (.vmulhScalar (.of w))
  | 4 => some (.vandScalar (.of w))
  | 5 => some (.vorScalar (.of w))
  | 6 => some (.vxorScalar (.of w))
  | 7 => some (.vsllScalar (.of w))
  | 8 => some (.vsrlScalar (.of w))
  | 9 => some (.vsraScalar (.of w))
  | 10 => some (.vminScalar (.of w))
  | 11 => some (.vmaxScalar (.of w))
  | 12 => some (.vminnScalar (.of w))
  | 13 => some (.vmaxnScalar (.of w))
  | 14 => some (.vsaddScalar (.of w))
  | 15 => some (.vssubScalar (.of w))
  | 16 => some (.vmergeScalar (.of w))
  | _ => none

/-- The function codes of major 0x22 (R63). -/
def decodeVfp (w : IWord) : Option Instr :=
  match w.fn6.toNat with
  | 0 => some (.vfadd (.of w))
  | 1 => some (.vfsub (.of w))
  | 2 => some (.vfmul (.of w))
  | 3 => some (.vfma (.of w))
  | 4 => some (.vfnma (.of w))
  | 5 => some (.vfdiv (.of w))
  | 6 => some (.vfmin (.of w))
  | 7 => some (.vfmax (.of w))
  | 16 => some (.vfsqrt (.of w))
  | 17 => some (.vfabs (.of w))
  | 18 => some (.vfneg (.of w))
  | 19 => some (.vfexp2 (.of w))
  | 20 => some (.vflog2 (.of w))
  | 21 => some (.vfrsq (.of w))
  | 22 => some (.vfrcp (.of w))
  | 24 => some (.vcvt (.of w))
  | _ => none

/-- The function codes of major 0x23 (R63). -/
def decodeVfps (w : IWord) : Option Instr :=
  match w.fn6.toNat with
  | 0 => some (.vfaddScalar (.of w))
  | 1 => some (.vfsubScalar (.of w))
  | 2 => some (.vfmulScalar (.of w))
  | 3 => some (.vfmaScalar (.of w))
  | 4 => some (.vfnmaScalar (.of w))
  | 5 => some (.vfdivScalar (.of w))
  | 6 => some (.vfminScalar (.of w))
  | 7 => some (.vfmaxScalar (.of w))
  | _ => none

/-- The function codes of major 0x24 (R65). -/
def decodeVcmp (w : IWord) : Option Instr :=
  match w.fn6.toNat with
  | 0 => some (.vcmpeq (.of w))
  | 1 => some (.vcmpne (.of w))
  | 2 => some (.vcmplt (.of w))
  | 3 => some (.vcmple (.of w))
  | 4 => some (.vcmpltn (.of w))
  | 5 => some (.vcmplen (.of w))
  | 8 => some (.vfcmpeq (.of w))
  | 9 => some (.vfcmplt (.of w))
  | 10 => some (.vfcmple (.of w))
  | _ => none

/-- The function codes of major 0x25 (R65). -/
def decodeVcmps (w : IWord) : Option Instr :=
  match w.fn6.toNat with
  | 0 => some (.vcmpeqScalar (.of w))
  | 1 => some (.vcmpneScalar (.of w))
  | 2 => some (.vcmpltScalar (.of w))
  | 3 => some (.vcmpleScalar (.of w))
  | 4 => some (.vcmpltnScalar (.of w))
  | 5 => some (.vcmplenScalar (.of w))
  | 8 => some (.vfcmpeqScalar (.of w))
  | 9 => some (.vfcmpltScalar (.of w))
  | 10 => some (.vfcmpleScalar (.of w))
  | _ => none

/-- The function codes of major 0x26 (R66). -/
def decodeVperm (w : IWord) : Option Instr :=
  match w.fn6.toNat with
  | 0 => some (.vslideup (.of w))
  | 1 => some (.vslidedn (.of w))
  | 2 => some (.vrgath (.of w))
  | 3 => some (.vcmpr (.of w))
  | 8 => some (.vredsum (.of w))
  | 9 => some (.vredmax (.of w))
  | 10 => some (.vredmin (.of w))
  | 11 => some (.vfredsum (.of w))
  | 12 => some (.vfredmax (.of w))
  | 13 => some (.vfredmin (.of w))
  | 14 => some (.vargmax (.of w))
  | 16 => some (.vspsel (.of w))
  | 17 => some (.vconfl (.of w))
  | 18 => some (.vfcomb (.of w))
  | 19 => some (.capp (.of w))
  | _ => none

/-- The function codes of major 0x27 (R67). -/
def decodeSetvl (w : IWord) : Option Instr :=
  match w.fn10.toNat with
  | 0 => some (.setvl (.of w))
  | _ => none

/-- The function codes of major 0x40 (R51). -/
def decodeVldg (w : IWord) : Option Instr :=
  match w.mop.toNat with
  | 0 => some (.vld (.of w))
  | 1 => some (.vlds (.of w))
  | 2 => some (.vldx (.of w))
  | 3 => some (.vldt (.of w))
  | _ => none

/-- The function codes of major 0x41 (R51). -/
def decodeVstg (w : IWord) : Option Instr :=
  match w.mop.toNat with
  | 0 => some (.vst (.of w))
  | 1 => some (.vsts (.of w))
  | 2 => some (.vstx (.of w))
  | 3 => some (.vstt (.of w))
  | _ => none

/-- The function codes of major 0x50 (R70). -/
def decodeKops (w : IWord) : Option Instr :=
  match w.fn6.toNat with
  | 0 => some (.kand (.of w))
  | 1 => some (.kor (.of w))
  | 2 => some (.kxor (.of w))
  | 3 => some (.knot (.of w))
  | 4 => some (.kmov (.of w))
  | 8 => some (.kffs (.of w))
  | 9 => some (.kpopc (.of w))
  | _ => none

/-- The function codes of major 0x58 (R71). -/
def decodeHv (w : IWord) : Option Instr :=
  match w.fn6.toNat with
  | 0 => some (.hvset (.of w))
  | 1 => some (.hvrand (.of w))
  | 2 => some (.hvbind (.of w))
  | 3 => some (.hvperm (.of w))
  | 4 => some (.hvbund (.of w))
  | 5 => some (.hvmaj (.of w))
  | 6 => some (.hvsim (.of w))
  | 8 => some (.hvclean (.of w))
  | 9 => some (.hvfact (.of w))
  | 10 => some (.hvstat (.of w))
  | _ => none

/-- The function codes of major 0x60 (R72). -/
def decodeStick (w : IWord) : Option Instr :=
  match w.fn6.toNat with
  | 0 => some (.skset (.of w))
  | 1 => some (.skfeed (.of w))
  | 2 => some (.skest (.of w))
  | 3 => some (.skstat (.of w))
  | 4 => some (.skclr (.of w))
  | _ => none

/-- The function codes of major 0x64 (R73). -/
def decodeMat (w : IWord) : Option Instr :=
  match w.fn6.toNat with
  | 0 => some (.matt (.of w))
  | 1 => some (.mdet (.of w))
  | 2 => some (.mzero (.of w))
  | _ => none

/-- The function codes of major 0x65 (R73). -/
def decodeMtile (w : IWord) : Option Instr :=
  match w.top.toNat with
  | 0 => some (.mma (.of w))
  | 1 => some (.mldb (.of w))
  | 2 => some (.mst (.of w))
  | 3 => some (.mgemv (.of w))
  | _ => none

/-- The function codes of major 0x68 (R74). -/
def decodeStrms (w : IWord) : Option Instr :=
  match w.fn6.toNat with
  | 0 => some (.strm (.of w))
  | 1 => some (.savail (.of w))
  | 2 => some (.swait (.of w))
  | 3 => some (.scancel (.of w))
  | 4 => some (.ssusp (.of w))
  | 5 => some (.sresm (.of w))
  | 8 => some (.vldp (.of w))
  | 9 => some (.vstp (.of w))
  | _ => none

/-- The function codes of major 0x6C (R75). -/
def decodeColl (w : IWord) : Option Instr :=
  match w.fn6.toNat with
  | 0 => some (.vstc (.of w))
  | 1 => some (.vldc (.of w))
  | 2 => some (.cwait (.of w))
  | 3 => some (.dpost (.of w))
  | 4 => some (.dposta (.of w))
  | 8 => some (.xtrim (.of w))
  | 9 => some (.xgo (.of w))
  | 10 => some (.xwait (.of w))
  | 11 => some (.xstat (.of w))
  | _ => none

/-- The function codes of major 0x6D (R75). -/
def decodeCset (w : IWord) : Option Instr :=
  if w.fn10.extractLsb' 3 7 == 0#7 then some (.cset (.of w)) else none

/-- The function codes of major 0x70 (R76). -/
def decodeCsr (w : IWord) : Option Instr :=
  match w.fn3.toNat with
  | 0 => some (.csrrd (.of w))
  | 1 => some (.csrwr (.of w))
  | 2 => some (.csrset (.of w))
  | 3 => some (.csrclr (.of w))
  | _ => none

/-- The function codes of major 0x71 (R76). -/
noncomputable def decodeSys (w : IWord) : Option Instr :=
  match w.fn3.toNat with
  | 0 => some (.trap (.of w))
  | 1 => some (.tret (.of w))
  | 2 => some (.wfe (.of w))
  | 3 => some (.sev (.of w))
  | 4 => some (.pause (.of w))
  | 5 => some (.tend (.of w))
  | _ => none

/-- The function codes of major 0x72 (R77). -/
noncomputable def decodeBar (w : IWord) : Option Instr :=
  match w.fn10.toNat with
  | 0 => some (.bjoin (.of w))
  | 1 => some (.bleave (.of w))
  | 2 => some (.barr (.of w))
  | 3 => some (.bwait (.of w))
  | 4 => some (.barw (.of w))
  | 5 => some (.btest (.of w))
  | 6 => some (.waitc (.of w))
  | 7 => some (.qpost (.of w))
  | _ => none

/-- The function codes of major 0x73 (R77). -/
noncomputable def decodePriv (w : IWord) : Option Instr :=
  match w.fn10.toNat with
  | 0 => some (.swappg (.of w))
  | 1 => some (.tlbinv (.of w))
  | 2 => some (.savectx (.of w))
  | _ => none

/-- The instruction whose row a word falls in, with its fields as they stand, before the field rules:
`none` for a reserved major, `some none` for a reserved function code (R54, R55). -/
noncomputable def decodeRow (w : IWord) : Option (Option Instr) :=
  match w.major.toNat with
  | 0x01 => some (decodeOp w)
  | 0x02 => some (some (.addi (.of w)))
  | 0x03 => some (some (.andi (.of w)))
  | 0x04 => some (some (.ori (.of w)))
  | 0x05 => some (some (.xori (.of w)))
  | 0x06 => some (some (.slti (.of w)))
  | 0x07 => some (decodeShi w)
  | 0x08 => some (some (.lui (.of w)))
  | 0x09 => some (some (.auipc (.of w)))
  | 0x0A => some (some (.jal (.of w)))
  | 0x0B => some (some (.jalr (.of w)))
  | 0x0C => some (some (.loop (.of w)))
  | 0x0D => some (decodeFp w)
  | 0x0E => some (decodeAtom w)
  | 0x0F => some (some (.ldb (.of w)))
  | 0x10 => some (some (.ldbn (.of w)))
  | 0x11 => some (some (.ldh (.of w)))
  | 0x12 => some (some (.ldhn (.of w)))
  | 0x13 => some (some (.ldw (.of w)))
  | 0x14 => some (some (.ldwn (.of w)))
  | 0x15 => some (some (.ldd (.of w)))
  | 0x16 => some (some (.stb (.of w)))
  | 0x17 => some (some (.sth (.of w)))
  | 0x18 => some (some (.stw (.of w)))
  | 0x19 => some (some (.std (.of w)))
  | 0x1A => some (some (.beq (.of w)))
  | 0x1B => some (some (.bne (.of w)))
  | 0x1C => some (some (.blt (.of w)))
  | 0x1D => some (some (.bge (.of w)))
  | 0x1E => some (some (.bltn (.of w)))
  | 0x1F => some (some (.bgen (.of w)))
  | 0x20 => some (decodeVint w)
  | 0x21 => some (decodeVints w)
  | 0x22 => some (decodeVfp w)
  | 0x23 => some (decodeVfps w)
  | 0x24 => some (decodeVcmp w)
  | 0x25 => some (decodeVcmps w)
  | 0x26 => some (decodeVperm w)
  | 0x27 => some (decodeSetvl w)
  | 0x28 => some (some (.setvli (.of w)))
  | 0x40 => some (decodeVldg w)
  | 0x41 => some (decodeVstg w)
  | 0x42 => some (if w.mop == 0#2 then some (.vldff (.of w)) else none)
  | 0x43 => some (if w.mop == 0#2 then some (.vldv (.of w)) else none)
  | 0x44 => some (if w.mop == 0#2 then some (.vstv (.of w)) else none)
  | 0x45 => some (if w.mop == 2#2 then some (.vldxa (.of w)) else none)
  | 0x46 => some (if w.mop == 2#2 then some (.vstxr (.of w)) else none)
  | 0x47 => some (if w.mop == 2#2 then some (.vamoadd (.of w)) else none)
  | 0x48 => some (if w.mop == 2#2 then some (.vamomin (.of w)) else none)
  | 0x49 => some (if w.mop == 2#2 then some (.vamomax (.of w)) else none)
  | 0x4A => some (if w.mop == 2#2 then some (.vamoswp (.of w)) else none)
  | 0x4B => some (some (.fence (.of w)))
  | 0x50 => some (decodeKops w)
  | 0x58 => some (decodeHv w)
  | 0x60 => some (decodeStick w)
  | 0x64 => some (decodeMat w)
  | 0x65 => some (decodeMtile w)
  | 0x68 => some (decodeStrms w)
  | 0x6C => some (decodeColl w)
  | 0x6D => some (decodeCset w)
  | 0x70 => some (decodeCsr w)
  | 0x71 => some (decodeSys w)
  | 0x72 => some (decodeBar w)
  | 0x73 => some (decodePriv w)
  | _ => none

/-- The decoder: the instruction of a word, or why it is none (R55). -/
noncomputable def decode (w : IWord) : Except DecodeError Instr :=
  match decodeRow w with
  | none => .error .reservedMajor
  | some none => .error .reservedFunction
  | some (some i) => if i.wf then .ok i else .error .fieldRule

/-- A word from its four bytes, the lowest address first (R42). -/
def wordOfBytes (b0 b1 b2 b3 : Byte) : IWord := b3 ++ b2 ++ b1 ++ b0

/-- The four bytes of a word, the lowest address first (R42). -/
def bytesOfWord (w : IWord) : List Byte :=
  [w.extractLsb' 0 8, w.extractLsb' 8 8, w.extractLsb' 16 8, w.extractLsb' 24 8]

/-- Decode the instruction at the head of a list of bytes, and the bytes after it. -/
noncomputable def decodeBytes : List Byte → Except DecodeError (Instr × List Byte)
  | b0 :: b1 :: b2 :: b3 :: rest => (decode (wordOfBytes b0 b1 b2 b3)).map (·, rest)
  | _ => .error .tooShort

/-- The host's question: the instruction this decoder reads from a word numbered as the table numbers it. -/
noncomputable def decodeTableWord (nbits w : Nat) : Option Instr :=
  if nbits = 32 then
    match decodeBytes (bytesOfWord (BitVec.ofNat 32 w)) with
    | .ok (i, _) => some i
    | .error _ => none
  else none

/-- An S-format word. -/
def packS (fn10 : BitVec 10) (b a d : Reg) (major : BitVec 7) : IWord := fn10 ++ b ++ a ++ d ++ major
/-- An I-format word. -/
def packI (imm : BitVec 15) (a d : Reg) (major : BitVec 7) : IWord := imm ++ a ++ d ++ major
/-- A U/J-format word. -/
def packU (imm : BitVec 20) (d : Reg) (major : BitVec 7) : IWord := imm ++ d ++ major
/-- A C-format word. -/
def packC (csr : BitVec 12) (fn3 : BitVec 3) (a d : Reg) (major : BitVec 7) : IWord :=
  csr ++ fn3 ++ a ++ d ++ major
/-- A V- or T-format word: fn6, m, cv, c2, c1, s2, s1, d. -/
def packV (fn6 : BitVec 6) (m cv c2 c1 : BitVec 1) (s2 s1 d : Reg) (major : BitVec 7) : IWord :=
  fn6 ++ m ++ cv ++ c2 ++ c1 ++ s2 ++ s1 ++ d ++ major

/-- A V-format word from its fields. -/
def VF.pack (f : VF) (fn6 : BitVec 6) (major : BitVec 7) : IWord :=
  packV fn6 (unbit f.m) (unbit f.cv) (unbit f.c2) (unbit f.c1) f.s2 f.s1 f.d major
/-- A VM-format word from its fields. -/
def VMF.pack (f : VMF) (mop : BitVec 2) (major : BitVec 7) : IWord :=
  packV (f.fmt ++ mop) (unbit f.m) (unbit f.cv) (unbit f.o) (unbit f.c) f.x f.base f.d major
/-- A T-format word from its fields. -/
def TF.pack (f : TF) (op : BitVec 2) (major : BitVec 7) : IWord :=
  packV (op ++ f.fmt) (unbit f.m) (unbit f.cv) (unbit f.c2) (unbit f.c1) f.s2 f.s1 f.d major

/-- The word of an instruction (R43 to R77); a step without a word has the word 0, which is reserved. -/
def encode : Instr → IWord
  | .add f => packS 0#10 f.b f.a f.d 0x01#7
  | .sub f => packS 1#10 f.b f.a f.d 0x01#7
  | .and f => packS 2#10 f.b f.a f.d 0x01#7
  | .or f => packS 3#10 f.b f.a f.d 0x01#7
  | .xor f => packS 4#10 f.b f.a f.d 0x01#7
  | .sll f => packS 5#10 f.b f.a f.d 0x01#7
  | .srl f => packS 6#10 f.b f.a f.d 0x01#7
  | .sra f => packS 7#10 f.b f.a f.d 0x01#7
  | .slt f => packS 8#10 f.b f.a f.d 0x01#7
  | .sltn f => packS 9#10 f.b f.a f.d 0x01#7
  | .min f => packS 10#10 f.b f.a f.d 0x01#7
  | .max f => packS 11#10 f.b f.a f.d 0x01#7
  | .minn f => packS 12#10 f.b f.a f.d 0x01#7
  | .maxn f => packS 13#10 f.b f.a f.d 0x01#7
  | .mul f => packS 16#10 f.b f.a f.d 0x01#7
  | .mulh f => packS 17#10 f.b f.a f.d 0x01#7
  | .mulhn f => packS 18#10 f.b f.a f.d 0x01#7
  | .div f => packS 20#10 f.b f.a f.d 0x01#7
  | .divn f => packS 21#10 f.b f.a f.d 0x01#7
  | .rem f => packS 22#10 f.b f.a f.d 0x01#7
  | .remn f => packS 23#10 f.b f.a f.d 0x01#7
  | .clz f => packS 24#10 f.b f.a f.d 0x01#7
  | .ctz f => packS 25#10 f.b f.a f.d 0x01#7
  | .popc f => packS 26#10 f.b f.a f.d 0x01#7
  | .addi f => packI f.imm f.a f.d 0x02#7
  | .andi f => packI f.imm f.a f.d 0x03#7
  | .ori f => packI f.imm f.a f.d 0x04#7
  | .xori f => packI f.imm f.a f.d 0x05#7
  | .slti f => packI f.imm f.a f.d 0x06#7
  | .slli f => packI (0#2 ++ 0#7 ++ f.shamt) f.a f.d 0x07#7
  | .srli f => packI (1#2 ++ 0#7 ++ f.shamt) f.a f.d 0x07#7
  | .srai f => packI (2#2 ++ 0#7 ++ f.shamt) f.a f.d 0x07#7
  | .lui f => packU f.imm f.d 0x08#7
  | .auipc f => packU f.imm f.d 0x09#7
  | .jal f => packU f.imm f.d 0x0A#7
  | .jalr f => packI f.imm f.a f.d 0x0B#7
  | .loop f => packI f.off f.a f.b 0x0C#7
  | .fadd f => packS (0#9 ++ unbit f.wide) f.b f.a f.d 0x0D#7
  | .fsub f => packS (1#9 ++ unbit f.wide) f.b f.a f.d 0x0D#7
  | .fmul f => packS (2#9 ++ unbit f.wide) f.b f.a f.d 0x0D#7
  | .fdiv f => packS (3#9 ++ unbit f.wide) f.b f.a f.d 0x0D#7
  | .fsqrt f => packS (4#9 ++ unbit f.wide) f.b f.a f.d 0x0D#7
  | .fma f => packS (5#9 ++ unbit f.wide) f.b f.a f.d 0x0D#7
  | .fmin f => packS (6#9 ++ unbit f.wide) f.b f.a f.d 0x0D#7
  | .fmax f => packS (7#9 ++ unbit f.wide) f.b f.a f.d 0x0D#7
  | .fcmp f => packS (2#7 ++ f.n ++ unbit f.wide) f.b f.a f.d 0x0D#7
  | .fcvt f => packS (11#9 ++ unbit f.wide) f.b f.a f.d 0x0D#7
  | .fmv f => packS (12#9 ++ unbit f.wide) f.b f.a f.d 0x0D#7
  | .ldacq f => packS (0#4 ++ 0#2 ++ f.succ ++ f.fail) f.b f.a f.d 0x0E#7
  | .strel f => packS (1#4 ++ 0#2 ++ f.succ ++ f.fail) f.b f.a f.d 0x0E#7
  | .amoadd f => packS (2#4 ++ 0#2 ++ f.succ ++ f.fail) f.b f.a f.d 0x0E#7
  | .amoswp f => packS (3#4 ++ 0#2 ++ f.succ ++ f.fail) f.b f.a f.d 0x0E#7
  | .amocas f => packS (4#4 ++ 0#2 ++ f.succ ++ f.fail) f.b f.a f.d 0x0E#7
  | .amomin f => packS (5#4 ++ 0#2 ++ f.succ ++ f.fail) f.b f.a f.d 0x0E#7
  | .amomax f => packS (6#4 ++ 0#2 ++ f.succ ++ f.fail) f.b f.a f.d 0x0E#7
  | .amoand f => packS (7#4 ++ 0#2 ++ f.succ ++ f.fail) f.b f.a f.d 0x0E#7
  | .amoor f => packS (8#4 ++ 0#2 ++ f.succ ++ f.fail) f.b f.a f.d 0x0E#7
  | .ldb f => packI f.imm f.a f.d 0x0F#7
  | .ldbn f => packI f.imm f.a f.d 0x10#7
  | .ldh f => packI f.imm f.a f.d 0x11#7
  | .ldhn f => packI f.imm f.a f.d 0x12#7
  | .ldw f => packI f.imm f.a f.d 0x13#7
  | .ldwn f => packI f.imm f.a f.d 0x14#7
  | .ldd f => packI f.imm f.a f.d 0x15#7
  | .stb f => packI f.imm f.a f.d 0x16#7
  | .sth f => packI f.imm f.a f.d 0x17#7
  | .stw f => packI f.imm f.a f.d 0x18#7
  | .std f => packI f.imm f.a f.d 0x19#7
  | .beq f => packI f.off f.a f.b 0x1A#7
  | .bne f => packI f.off f.a f.b 0x1B#7
  | .blt f => packI f.off f.a f.b 0x1C#7
  | .bge f => packI f.off f.a f.b 0x1D#7
  | .bltn f => packI f.off f.a f.b 0x1E#7
  | .bgen f => packI f.off f.a f.b 0x1F#7
  | .vadd f => f.pack 0#6 0x20#7
  | .vsub f => f.pack 1#6 0x20#7
  | .vmul f => f.pack 2#6 0x20#7
  | .vmulh f => f.pack 3#6 0x20#7
  | .vand f => f.pack 4#6 0x20#7
  | .vor f => f.pack 5#6 0x20#7
  | .vxor f => f.pack 6#6 0x20#7
  | .vsll f => f.pack 7#6 0x20#7
  | .vsrl f => f.pack 8#6 0x20#7
  | .vsra f => f.pack 9#6 0x20#7
  | .vmin f => f.pack 10#6 0x20#7
  | .vmax f => f.pack 11#6 0x20#7
  | .vminn f => f.pack 12#6 0x20#7
  | .vmaxn f => f.pack 13#6 0x20#7
  | .vsadd f => f.pack 14#6 0x20#7
  | .vssub f => f.pack 15#6 0x20#7
  | .vmerge f => f.pack 16#6 0x20#7
  | .vaddScalar f => f.pack 0#6 0x21#7
  | .vsubScalar f => f.pack 1#6 0x21#7
  | .vmulScalar f => f.pack 2#6 0x21#7
  | .vmulhScalar f => f.pack 3#6 0x21#7
  | .vandScalar f => f.pack 4#6 0x21#7
  | .vorScalar f => f.pack 5#6 0x21#7
  | .vxorScalar f => f.pack 6#6 0x21#7
  | .vsllScalar f => f.pack 7#6 0x21#7
  | .vsrlScalar f => f.pack 8#6 0x21#7
  | .vsraScalar f => f.pack 9#6 0x21#7
  | .vminScalar f => f.pack 10#6 0x21#7
  | .vmaxScalar f => f.pack 11#6 0x21#7
  | .vminnScalar f => f.pack 12#6 0x21#7
  | .vmaxnScalar f => f.pack 13#6 0x21#7
  | .vsaddScalar f => f.pack 14#6 0x21#7
  | .vssubScalar f => f.pack 15#6 0x21#7
  | .vmergeScalar f => f.pack 16#6 0x21#7
  | .vpopc f => f.pack 24#6 0x20#7
  | .vclz f => f.pack 25#6 0x20#7
  | .vid f => f.pack 26#6 0x20#7
  | .vmvs f => f.pack 27#6 0x20#7
  | .vmvx f => f.pack 28#6 0x20#7
  | .vfadd f => f.pack 0#6 0x22#7
  | .vfsub f => f.pack 1#6 0x22#7
  | .vfmul f => f.pack 2#6 0x22#7
  | .vfma f => f.pack 3#6 0x22#7
  | .vfnma f => f.pack 4#6 0x22#7
  | .vfdiv f => f.pack 5#6 0x22#7
  | .vfmin f => f.pack 6#6 0x22#7
  | .vfmax f => f.pack 7#6 0x22#7
  | .vfaddScalar f => f.pack 0#6 0x23#7
  | .vfsubScalar f => f.pack 1#6 0x23#7
  | .vfmulScalar f => f.pack 2#6 0x23#7
  | .vfmaScalar f => f.pack 3#6 0x23#7
  | .vfnmaScalar f => f.pack 4#6 0x23#7
  | .vfdivScalar f => f.pack 5#6 0x23#7
  | .vfminScalar f => f.pack 6#6 0x23#7
  | .vfmaxScalar f => f.pack 7#6 0x23#7
  | .vfsqrt f => f.pack 16#6 0x22#7
  | .vfabs f => f.pack 17#6 0x22#7
  | .vfneg f => f.pack 18#6 0x22#7
  | .vfexp2 f => f.pack 19#6 0x22#7
  | .vflog2 f => f.pack 20#6 0x22#7
  | .vfrsq f => f.pack 21#6 0x22#7
  | .vfrcp f => f.pack 22#6 0x22#7
  | .vcvt f => f.pack 24#6 0x22#7
  | .vcmpeq f => f.pack 0#6 0x24#7
  | .vcmpne f => f.pack 1#6 0x24#7
  | .vcmplt f => f.pack 2#6 0x24#7
  | .vcmple f => f.pack 3#6 0x24#7
  | .vcmpltn f => f.pack 4#6 0x24#7
  | .vcmplen f => f.pack 5#6 0x24#7
  | .vfcmpeq f => f.pack 8#6 0x24#7
  | .vfcmplt f => f.pack 9#6 0x24#7
  | .vfcmple f => f.pack 10#6 0x24#7
  | .vcmpeqScalar f => f.pack 0#6 0x25#7
  | .vcmpneScalar f => f.pack 1#6 0x25#7
  | .vcmpltScalar f => f.pack 2#6 0x25#7
  | .vcmpleScalar f => f.pack 3#6 0x25#7
  | .vcmpltnScalar f => f.pack 4#6 0x25#7
  | .vcmplenScalar f => f.pack 5#6 0x25#7
  | .vfcmpeqScalar f => f.pack 8#6 0x25#7
  | .vfcmpltScalar f => f.pack 9#6 0x25#7
  | .vfcmpleScalar f => f.pack 10#6 0x25#7
  | .vslideup f => f.pack 0#6 0x26#7
  | .vslidedn f => f.pack 1#6 0x26#7
  | .vrgath f => f.pack 2#6 0x26#7
  | .vcmpr f => f.pack 3#6 0x26#7
  | .vredsum f => f.pack 8#6 0x26#7
  | .vredmax f => f.pack 9#6 0x26#7
  | .vredmin f => f.pack 10#6 0x26#7
  | .vfredsum f => f.pack 11#6 0x26#7
  | .vfredmax f => f.pack 12#6 0x26#7
  | .vfredmin f => f.pack 13#6 0x26#7
  | .vargmax f => f.pack 14#6 0x26#7
  | .vspsel f => f.pack 16#6 0x26#7
  | .vconfl f => f.pack 17#6 0x26#7
  | .vfcomb f => f.pack 18#6 0x26#7
  | .capp f => f.pack 19#6 0x26#7
  | .setvl f => packS 0#10 f.b f.a f.d 0x27#7
  | .setvli f => packI f.imm f.a f.d 0x28#7
  | .vld f => f.pack 0#2 0x40#7
  | .vlds f => f.pack 1#2 0x40#7
  | .vldx f => f.pack 2#2 0x40#7
  | .vldt f => f.pack 3#2 0x40#7
  | .vst f => f.pack 0#2 0x41#7
  | .vsts f => f.pack 1#2 0x41#7
  | .vstx f => f.pack 2#2 0x41#7
  | .vstt f => f.pack 3#2 0x41#7
  | .vldff f => f.pack 0#2 0x42#7
  | .vldv f => f.pack 0#2 0x43#7
  | .vstv f => f.pack 0#2 0x44#7
  | .vldxa f => f.pack 2#2 0x45#7
  | .vstxr f => f.pack 2#2 0x46#7
  | .vamoadd f => f.pack 2#2 0x47#7
  | .vamomin f => f.pack 2#2 0x48#7
  | .vamomax f => f.pack 2#2 0x49#7
  | .vamoswp f => f.pack 2#2 0x4A#7
  | .fence f => packI f.imm f.a f.d 0x4B#7
  | .kand f => f.pack 0#6 0x50#7
  | .kor f => f.pack 1#6 0x50#7
  | .kxor f => f.pack 2#6 0x50#7
  | .knot f => f.pack 3#6 0x50#7
  | .kmov f => f.pack 4#6 0x50#7
  | .kffs f => f.pack 8#6 0x50#7
  | .kpopc f => f.pack 9#6 0x50#7
  | .hvset f => f.pack 0#6 0x58#7
  | .hvrand f => f.pack 1#6 0x58#7
  | .hvbind f => f.pack 2#6 0x58#7
  | .hvperm f => f.pack 3#6 0x58#7
  | .hvbund f => f.pack 4#6 0x58#7
  | .hvmaj f => f.pack 5#6 0x58#7
  | .hvsim f => f.pack 6#6 0x58#7
  | .hvclean f => f.pack 8#6 0x58#7
  | .hvfact f => f.pack 9#6 0x58#7
  | .hvstat f => f.pack 10#6 0x58#7
  | .skset f => f.pack 0#6 0x60#7
  | .skfeed f => f.pack 1#6 0x60#7
  | .skest f => f.pack 2#6 0x60#7
  | .skstat f => f.pack 3#6 0x60#7
  | .skclr f => f.pack 4#6 0x60#7
  | .matt f => f.pack 0#6 0x64#7
  | .mdet f => f.pack 1#6 0x64#7
  | .mzero f => f.pack 2#6 0x64#7
  | .mma f => f.pack 0#2 0x65#7
  | .mldb f => f.pack 1#2 0x65#7
  | .mst f => f.pack 2#2 0x65#7
  | .mgemv f => f.pack 3#2 0x65#7
  | .strm f => f.pack 0#6 0x68#7
  | .savail f => f.pack 1#6 0x68#7
  | .swait f => f.pack 2#6 0x68#7
  | .scancel f => f.pack 3#6 0x68#7
  | .ssusp f => f.pack 4#6 0x68#7
  | .sresm f => f.pack 5#6 0x68#7
  | .vldp f => f.pack 8#6 0x68#7
  | .vstp f => f.pack 9#6 0x68#7
  | .vstc f => f.pack 0#6 0x6C#7
  | .vldc f => f.pack 1#6 0x6C#7
  | .cwait f => f.pack 2#6 0x6C#7
  | .dpost f => f.pack 3#6 0x6C#7
  | .dposta f => f.pack 4#6 0x6C#7
  | .xtrim f => f.pack 8#6 0x6C#7
  | .xgo f => f.pack 9#6 0x6C#7
  | .xwait f => f.pack 10#6 0x6C#7
  | .xstat f => f.pack 11#6 0x6C#7
  | .cset f => packS (0#7 ++ f.cop) f.b f.a f.d 0x6D#7
  | .csrrd f => packC f.csr 0#3 f.a f.d 0x70#7
  | .csrwr f => packC f.csr 1#3 f.a f.d 0x70#7
  | .csrset f => packC f.csr 2#3 f.a f.d 0x70#7
  | .csrclr f => packC f.csr 3#3 f.a f.d 0x70#7
  | .trap f => packC f.csr 0#3 f.a f.d 0x71#7
  | .tret f => packC f.csr 1#3 f.a f.d 0x71#7
  | .wfe f => packC f.csr 2#3 f.a f.d 0x71#7
  | .sev f => packC f.csr 3#3 f.a f.d 0x71#7
  | .pause f => packC f.csr 4#3 f.a f.d 0x71#7
  | .tend f => packC f.csr 5#3 f.a f.d 0x71#7
  | .bjoin f => packS 0#10 f.b f.a f.d 0x72#7
  | .bleave f => packS 1#10 f.b f.a f.d 0x72#7
  | .barr f => packS 2#10 f.b f.a f.d 0x72#7
  | .bwait f => packS 3#10 f.b f.a f.d 0x72#7
  | .barw f => packS 4#10 f.b f.a f.d 0x72#7
  | .btest f => packS 5#10 f.b f.a f.d 0x72#7
  | .waitc f => packS 6#10 f.b f.a f.d 0x72#7
  | .qpost f => packS 7#10 f.b f.a f.d 0x72#7
  | .swappg f => packS 0#10 f.b f.a f.d 0x73#7
  | .tlbinv f => packS 1#10 f.b f.a f.d 0x73#7
  | .savectx f => packS 2#10 f.b f.a f.d 0x73#7
  | .tlbinvRetire => 0#32
  | .swapSubblockMove .. => 0#32
  | .swapComplete .. => 0#32
  | .homeAtomic .. => 0#32
  | .vamoswpOldValue .. => 0#32
  | .clusterSpanPacket .. => 0#32
  | .gatherResponse .. => 0#32
  | .streamDispatch .. => 0#32
  | .streamElementGroup .. => 0#32
  | .streamComplete .. => 0#32
  | .streamStop .. => 0#32
  | .portDisplace .. => 0#32
  | .attachmentReacquire .. => 0#32
  | .matrixPass .. => 0#32
  | .tileWrite .. => 0#32
  | .mgemvRow .. => 0#32
  | .factoringBufferTake .. => 0#32
  | .collectivePacket .. => 0#32
  | .arrivalReport .. => 0#32
  | .collectiveDeadline .. => 0#32
  | .homeCombine .. => 0#32
  | .roundRelease .. => 0#32
  | .memberDead .. => 0#32
  | .demandRow .. => 0#32
  | .calendarDeadline .. => 0#32
  | .grantWrite .. => 0#32
  | .sheetStart .. => 0#32
  | .exchangeBytes .. => 0#32
  | .readyFlit .. => 0#32
  | .looseTailStart .. => 0#32
  | .imposerHeartbeat .. => 0#32
  | .standbyTakeover .. => 0#32
  | .leaveGrant => 0#32
  | .leaveExpiry .. => 0#32
  | .renewalTimeout .. => 0#32
  | .deckCurrentSample .. => 0#32
  | .launchPortWrite .. => 0#32
  | .launchPacket .. => 0#32
  | .waitcPacket .. => 0#32
  | .signalPacket .. => 0#32
  | .setdetPacket .. => 0#32
  | .drainPacket .. => 0#32
  | .markPacket .. => 0#32
  | .counterReread .. => 0#32
  | .dispatch => 0#32
  | .preempt .. => 0#32
  | .quantumExpiry .. => 0#32
  | .preemptSave .. => 0#32
  | .restore => 0#32
  | .unpark => 0#32
  | .ctxctlMakeResident .. => 0#32
  | .ctxctlKill .. => 0#32
  | .tfwd .. => 0#32
  | .ckillRead => 0#32
  | .qdescEnable .. => 0#32
  | .qdescDisable .. => 0#32
  | .mcrec0Clear .. => 0#32
  | .alog0Clear .. => 0#32
  | .llog0Clear .. => 0#32
  | .secntClear .. => 0#32
  | .configWrite .. => 0#32
  | .kernelLoad .. => 0#32
  | .kernelUnload .. => 0#32
  | .kernelLoadDone => 0#32
  | .attcmdGo .. => 0#32
  | .attestationReport => 0#32
  | .deviceReset => 0#32
  | .hostCxlMemAccess .. => 0#32
  | .hbmPatrolScrub .. => 0#32
  | .vaultPatrolScrub .. => 0#32
  | .tsvParityRetry .. => 0#32
  | .laneTest .. => 0#32
  | .bondLaneSwap .. => 0#32
  | .remapPoisonWalk .. => 0#32
  | .remoteDomainAccess .. => 0#32
  | .dtimeDiscipline .. => 0#32

end Sys2Proof
end

