-- ==== Sys2Proof/Machine/State.lean ====
section
/-! DEFINITION. The state of one OL-4 device as plain data: its logical cores and hardware threads,
memory, translations, caches, ports, matrix units, collectives and exchange, scheduler, reliability and
host registers; the reasons a step can stop; and the state after reset. -/

namespace Sys2Proof.Machine

/-- A finite map: pairs of key and value, keys rising. -/
abbrev FMap (α : Type) := List (Nat × α)

/-- The value at a key. -/
def FMap.get? {α : Type} : FMap α → Nat → Option α
  | [], _ => none
  | (i, x) :: m, n => if i = n then some x else FMap.get? m n

/-- The map with a key's value replaced or added. -/
def FMap.set {α : Type} : FMap α → Nat → α → FMap α
  | [], n, y => [(n, y)]
  | (i, x) :: m, n, y =>
    if n < i then (n, y) :: (i, x) :: m
    else if i = n then (n, y) :: m
    else (i, x) :: FMap.set m n y

/-- The map without a key. -/
def FMap.erase {α : Type} (m : FMap α) (n : Nat) : FMap α := m.filter (·.1 != n)

/-- The levels at which a thread runs (R417). -/
inductive Level
  | u | s
  deriving DecidableEq, Repr

/-- The trap causes (R419). -/
inductive Cause
  | illegal | priv | misalign | overlap | convoy | vtypeIll | groupAlign
  | pageNp | pageProt | pageKind | bounds | poison | stream
  | bunreach | deadlock | noattach | case | stick | xfail | clate | soft
  deriving DecidableEq, Repr

/-- The code of a cause (R419 and the rules that name it). -/
def Cause.code : Cause → BitVec 8
  | .illegal => 0x01
  | .priv => 0x02
  | .misalign => 0x03
  | .overlap => 0x04
  | .convoy => 0x05
  | .vtypeIll => 0x06
  | .groupAlign => 0x07
  | .pageNp => 0x10
  | .pageProt => 0x11
  | .pageKind => 0x12
  | .bounds => 0x13
  | .poison => 0x14
  | .stream => 0x18
  | .bunreach => 0x30
  | .deadlock => 0x31
  | .noattach => 0x32
  | .case => 0x33
  | .stick => 0x34
  | .xfail => 0x40
  | .clate => 0x41
  | .soft => 0x50

/-- The memory kinds, with their PTE codes (R83). -/
inductive MemKind
  | global | vault | domain | host
  deriving DecidableEq, Repr

/-- The PTE code of a kind (R83). -/
def MemKind.code : MemKind → BitVec 2
  | .global => 0
  | .vault => 1
  | .domain => 2
  | .host => 3

/-- The kind of a PTE code (R83). -/
def MemKind.ofCode (b : BitVec 2) : MemKind :=
  match b.toNat with
  | 0 => .global
  | 1 => .vault
  | 2 => .domain
  | _ => .host

/-- One translation held in a lane bank, in a second-level TLB or in a stream cursor (R92): `bank` is the
lane, or 16 for the second level; `vpn` is the virtual address shifted right by `shift`; `leaf` is where
the leaf lies and `pte` what it held. -/
structure TlbEntry where
  core : Nat
  bank : Nat
  ctx : Nat
  shift : Nat
  vpn : Nat
  leaf : Nat
  pte : Word
  deriving DecidableEq, Repr

/-- A recorded fault of an engine (R209): its cause and the address of R95. -/
structure RecFault where
  cause : Cause
  addr : Word
  deriving DecidableEq, Repr

/-- A shape record (R28, R161): the base e0, the descriptor e1, and five extents, strides and starts. -/
structure Shape where
  e0 : Word
  e1 : Word
  ext : List Word
  stride : List Word
  start : List Word
  deriving DecidableEq, Repr

/-- One element in a port's buffer: its register value, none for a pushed skip, and the flags its
conversion raised (R207, R210). -/
structure PortElem where
  val : Option Nat
  flags : BitVec 5
  deriving DecidableEq, Repr

/-- What an MGEMV result command holds beside its shape fields (R362, R363). -/
structure MgemvJob where
  area : Nat
  fmt : BitVec 4
  desc : List Word
  x : List Nat
  xElems : Nat
  rowsDone : List (Nat × Nat × BitVec 5)
  deriving DecidableEq, Repr

/-- A command on a port (R203, R210, R219). `hold`: its fault has been delivered, and its memory side
waits for the instruction to be executed again (R209). `paused`: the governor has withdrawn its leave, and it is
suspended until leave is granted again (R411). `after`: by port, how many elements that VSTP had pushed when it was
appended have still to reach memory before it makes an access (R189). -/
structure Cmd where
  owner : Nat
  shape : Shape
  vtype : BitVec 16
  exp : Nat
  mem : Nat
  reg : Nat
  token : Reg
  tokenPending : Bool
  started : Bool
  done : Bool
  suspended : Bool
  paused : Bool
  stopAsked : Bool
  fault : Option RecFault
  hold : Bool
  satk : BitVec 4
  buf : List PortElem
  wrote : List Nat
  xlat : Option TlbEntry
  after : FMap Nat
  mgemv : Option MgemvJob
  deriving DecidableEq, Repr

/-- A port: the thread that owns it and its commands, the head first (R199, R200). -/
structure Port where
  owner : Option Nat
  cmds : List Cmd
  deriving DecidableEq, Repr

/-- A command saved as a cursor (R219), by displacement or with an image: its port and its place. -/
structure SavedCmd where
  port : Nat
  cmd : Cmd
  deriving DecidableEq, Repr

/-- The Stick's record of one element (R336). -/
structure StickRec where
  est : BitVec 32
  best : BitVec 32
  nh : Nat
  cc : Nat
  sc : Nat
  ready : Bool
  converged : Bool
  stagnant : Bool
  fallback : Bool
  fbc : Nat
  hist : List (BitVec 32)
  deriving DecidableEq, Repr

/-- An old value of VAMOSWP that has not arrived yet (R172): the register and element it goes to. -/
structure OldVal where
  reg : Nat
  elem : Nat
  sew : Nat
  val : Nat
  deriving DecidableEq, Repr

/-- A membership of a barrier (R276): its address, its home key and its slot. -/
structure Membership where
  addr : Word
  home : Nat
  slot : Nat
  deriving DecidableEq, Repr

/-- The kind of operation that holds leave (R409). -/
inductive LeaveKind
  | matt | hvfact | mgemv | xgo | strm
  deriving DecidableEq, Repr

/-- What a thread waits for, as the scheduler sees it. The first three are waits for R249. -/
inductive WaitFor
  | none
  | waitc (home : Nat) (val : Word)
  | bwait (home : Nat) (phase : BitVec 32)
  | barw (home : Nat) (phase : BitVec 32)
  | tlbinv (va sel : Word)
  | savectx (ctx : Nat) (d : Reg)
  | port (p : Nat)
  | fact
  | tiles
  | other
  deriving DecidableEq, Repr

/-- What a launch fixes for each of its logical cores (R226 to R233, R404). -/
structure Job where
  ctx : Nat
  priv : Bool
  launch : Nat
  kidx : Nat
  prio : Nat
  lcore : Nat
  nlcore : Nat
  dlvl : Nat
  args : Word
  counts : List Nat
  folen : Nat
  points : Nat
  entry : Word
  vregs : Nat
  skdepth : Nat
  casesorts : Nat
  deck : Option Nat
  deriving DecidableEq, Repr

/-- The collective state of a member in one group (R373, R378): rounds contributed to, and those of them
whose CWAIT has completed. -/
structure CollMember where
  next : Nat
  waited : Nat
  deriving DecidableEq, Repr

/-- What a member knows of one source (R390): bytes arrived, bytes posted, complete, dead, its place in the
receive buffer, and the keys of the bytes that its counter counts (R393). -/
structure XSource where
  arr : Nat
  exp : Nat
  complete : Bool
  dead : Bool
  roff : Nat
  keys : List Nat
  deriving DecidableEq, Repr

/-- A transfer of a pair in the loose tail (R389, R390): its offset in the pair, its bytes, and whether it is a
missed sheet that was trimmed (R391). -/
structure TailPart where
  off : Nat
  n : Nat
  short : Bool
  deriving DecidableEq, Repr

/-- What a member knows of one destination: bytes it posted, its place in the send buffer, and the transfers
that remain in the loose tail, in ascending offset (R387, R390). -/
structure XDest where
  bytes : Nat
  soff : Nat
  tail : List TailPart
  deriving DecidableEq, Repr

/-- The exchange state of a member in one group (R381 to R397): the generation it has accepted last, the area's
4 KiB blocks as physical address and map, the core on whose behalf the engine acts, buffers, grants, sheets sent or
passed to the tail, trims, ready flits, those of a calendar still to be accepted apart. `after`: what VSTP had pushed
before the XGO, as for a stream (R189); `cut`: its logical core was killed (R395). -/
structure XchMember where
  active : Bool
  dposted : Bool
  posted : Bool
  gid : Nat
  gen : Nat
  core : Nat
  area : List (Nat × Bool)
  sbuf : Word
  rbuf : Word
  rlen : Word
  armed : Bool
  after : FMap Nat
  joined : Bool
  disarmed : Bool
  granted : Bool
  t0 : Nat
  tend : Nat
  grants : List Grant
  started : List Nat
  trims : List (Nat × Nat)
  ready : List (Nat × Option Nat)
  readyNext : List ReadyMsg
  sources : List XSource
  dests : List XDest
  flags : BitVec 9
  faults : List RecFault
  fail6 : Bool
  cut : Bool
  deriving DecidableEq, Repr

/-- A tile row, a B buffer and the attachment of a thread to its cluster's matrix unit (R349 to R358). -/
structure BBuf where
  fmt : Option (BitVec 4)
  bytes : List Byte
  deriving DecidableEq, Repr

/-- The attachment: slots held (none while displaced), rows of the four tiles of 32 FP32 each, the two
B buffers and the two width bits; when it was taken, and, displaced, since when its holder waits for it (R351, R352). -/
structure Attach where
  rows : Nat
  slots : List Nat
  displaced : Bool
  tiles : List (List (BitVec 1024))
  bbufs : List BBuf
  wide01 : Bool
  wide23 : Bool
  since : Nat
  waits : Option Nat
  deriving DecidableEq, Repr

/-- One logical core: its launch's constants, its architectural registers and the state that is saved and
restored with it (R231, R429). -/
structure LCore where
  job : Job
  folio : Nat
  folioEnd : Nat
  pc : Word
  level : Level
  g : Vector Word 32
  v : Vector VReg 32
  k : Vector KReg 8
  ksm : KReg
  vext : Vector Nat 32
  kext : Vector Nat 9
  vl : Nat
  vtype : Word
  vstart : BitVec 13
  satk : BitVec 4
  frm : BitVec 2
  fflags : BitVec 5
  cgrp : Word
  cop : BitVec 3
  cstr : BitVec 31
  cdl : BitVec 32
  cmapb : Word
  ccnt : Word
  coll : FMap CollMember
  hvw : Word
  caseb : Word
  casen : Word
  hvcap : Word
  hvn : Word
  hvdist : Word
  hvnext : Word
  hvout : Word
  hvmth : Word
  hvitl : Word
  hvseed : Word
  hvpart : Word
  hvfth : Word
  hvstw : Word
  skcfg : Word
  sktol : Word
  skflr : Word
  skwin : Word
  skcnt : BitVec 48
  stick : List StickRec
  attach : Option Attach
  tvec : Word
  tpc : Word
  tcause : BitVec 10
  tval : Word
  wphase : BitVec 32
  bwp : Bool
  evf : Bool
  pprv : Bool
  tact : Bool
  atRtvec : Bool
  xbase : Word
  xgen : BitVec 32
  xchs : FMap XchMember
  barriers : List Membership
  oldVals : List OldVal
  unseen : List (Reg × Nat × List Nat)
  displaced : List SavedCmd
  waitFor : WaitFor
  unreachMark : Bool
  barw : Option (BitVec 32)
  placed : Nat
  placedAt : Nat
  deriving DecidableEq, Repr

/-- A hardware thread (R1, R424): SSCR, whether a logical core runs on it, a stop request of the
scheduler with the number of element groups the convoy under way still takes (R427), whether it has
stopped, the logical core, as launch and LCORE, that the thread is freed for (R407), a TFWD that waits for the
end of the instruction under way (R420), and the logical core. -/
structure HThread where
  sscr : Word
  occupied : Bool
  stopAsked : Option Nat
  stopped : Bool
  incoming : Option (Nat × Nat)
  fwd : Bool
  lc : LCore
  deriving DecidableEq, Repr

/-- The convoy window (R241, R242): the elements that the members of the convoy under way commit, from
`lo` to `hi` - 1, the VL they see, and whether the convoy completes, so that whole-result members act.
`places` holds the keys that the memory member's elements reach, `data` the bytes that its loads read, `shape`
the record it read at issue (R162). -/
structure Window where
  lo : Nat
  hi : Nat
  vl : Nat
  whole : Bool
  places : List (Nat × List Nat)
  data : List (Nat × List Byte)
  shape : Option Shape
  deriving DecidableEq, Repr

/-- The state of one 4 KiB sub-block of a swap (R101). -/
inductive SubBlock
  | waiting
  | moving
  | landed
  deriving DecidableEq, Repr

/-- A swap in flight (R100 to R102): the places of its two entries, their frames with their kinds, and its eight
sub-blocks. -/
structure Swap where
  id : Nat
  entryA : Nat
  entryB : Nat
  frameA : Nat
  frameB : Nat
  kindA : MemKind
  kindB : MemKind
  blocks : List SubBlock
  deriving DecidableEq, Repr

/-- A cluster-span packet (R117): the thread that waits for it, the owner core, the elements it covers with
their vault offsets, the bytes of each element at the memory width, the data of a scatter or of a response. -/
structure SpanPacket where
  id : Nat
  thr : Nat
  owner : Nat
  scatter : Bool
  response : Bool
  width : Nat
  elems : List (Nat × Nat)
  data : List (List Byte)
  deriving DecidableEq, Repr

/-- What a thread keeps of a cluster-span access under way: where it issued, the places of its elements, the responses unpacked so far
by element, and the packets not yet answered. -/
structure SpanOp where
  thr : Nat
  pc : Word
  places : List (Nat × List Nat)
  vals : List (Nat × List Byte)
  left : Nat
  deriving DecidableEq, Repr

/-- A matrix pass (R357): the thread that issued it, its tile, format and SLC, the rows of A it read, the
column bytes of B, and whether it has started. -/
structure Pass where
  thr : Nat
  prio : Nat
  tile : Nat
  fmt : BitVec 4
  slc : Nat
  rows : List (List Byte)
  b : List Byte
  started : Bool
  deriving DecidableEq, Repr

/-- An HVFACT under way (R325, R326): the control words of slot 48, the estimates, their history (newest
first), the tie-break, the counters of the pass, and, while it cleans up, the best and runner-up distance of
the sorts of the pass so far. -/
structure Fact where
  phase : Nat
  fact : Nat
  sort : Nat
  sweep : Nat
  rbest : Nat
  stag : Nat
  chg : Bool
  marg : Nat
  idx : List Nat
  est : List Nat
  hist : List (List Nat)
  tie : Nat
  counters : List Int
  dist : Nat
  next : Nat
  deriving DecidableEq, Repr

/-- The holder of a core's factoring buffer, and its HVFACT once it has begun (R325, R329). -/
structure FactHold where
  thr : Nat
  run : Option Fact
  deriving DecidableEq, Repr

/-- Who holds or asks for leave: a thread's operation, or a command on a port (R409). -/
structure LeaveRef where
  kind : LeaveKind
  thr : Nat
  core : Nat
  port : Nat
  deriving DecidableEq, Repr

/-- A request for leave waiting at the governor (R410, R412): charge in milliwatts, the deck charged, none
for half to each. -/
structure LeaveReq where
  ref : LeaveRef
  charge : Nat
  deck : Option Nat
  prio : Nat
  order : Nat
  renewal : Bool
  asked : Nat
  deriving DecidableEq, Repr

/-- Leave granted (R410 to R412). -/
structure LeaveHeld where
  ref : LeaveRef
  charge : Nat
  deck : Option Nat
  prio : Nat
  order : Nat
  at_ : Nat
  deriving DecidableEq, Repr

/-- A queue slot (R399, R400): the fields of its QDESC, its packets not started, its held host writes, and
the launches started from it that have not completed. -/
structure Queue where
  en : Bool
  cflt : Bool
  nbad : Nat
  qnum : Nat
  qdlvl : Nat
  ctx : Nat
  prio : Nat
  fifo : List (BitVec 512)
  held : List (BitVec 512)
  deriving DecidableEq, Repr

/-- A launch under way (R226 to R230, R401): its packet's constants, the folio count, the logical core below
which all are dispatched, those dispatched above it, how many have ended, and whether one has been parked for
this stall (R249). -/
structure Launch where
  seq : Nat
  slot : Nat
  ctx : Nat
  kidx : Nat
  prio : Nat
  dlvl : Nat
  nlc : Nat
  args : Word
  counts : List Nat
  sig : Option Word
  folios : Nat
  points : Nat
  nextLc : Nat
  ahead : List Nat
  ended : Nat
  parkedThisStall : Bool
  deriving DecidableEq, Repr

/-- One level of a loop table (R37, R41): kind 1 T, 2 C, 3 D; the constant count, none for the launch's. -/
structure LoopLevel where
  kind : Nat
  count : Option Nat
  deriving DecidableEq, Repr

/-- A loaded kernel (R39, R40, R459). -/
structure Kernel where
  kidx : Nat
  ctx : Nat
  entry : Word
  folen : Nat
  vregs : Nat
  skdepth : Nat
  casesorts : Nat
  vaultb : Nat
  parkb : Nat
  loops : List LoopLevel
  vaultVa : Word
  vaultSize : Nat
  deriving DecidableEq, Repr

/-- Where a saved image lies (R429): a slot of a core's save area, or a pool block from 1,536 upward. -/
inductive ImageAt
  | slot (core slot : Nat)
  | pool (block : Nat)
  deriving DecidableEq, Repr

/-- A logical core saved by pre-emption, parking or SAVECTX. What its image in memory holds is restored from
there; the rest (launch constants, memberships, collective and exchange state) is kept here, with its former
thread (R428) and the DEADLOCK that it is owed, as the number of logical cores parked then (R250). -/
structure SavedLc where
  at_ : ImageAt
  lc : LCore
  ready : Bool
  parked : Bool
  order : Nat
  thr : Nat
  owed : Option Nat
  deriving DecidableEq, Repr

/-- The owner of a core's vault image (R406): the kernel and the launches that have run there. -/
structure ImageOwner where
  kidx : Nat
  ctx : Nat
  launches : List Nat
  deriving DecidableEq, Repr

/-- A round at this device's home (R374 to R376): the packets accepted in arrival order, the set fixed with
its DLVL, and, once the results are written, the offsets supplied. -/
structure HomeRound where
  gid : Nat
  round : Nat
  packets : List CollPacket
  set : Option (List Nat × Nat)
  written : Option (List Nat)
  deriving DecidableEq, Repr

/-- A round led by this device's member (R375, R376): reports in arrival order, when the first came, the
set fixed, those removed for a mismatch, its DLVL, whether the deadline fixed it, and whether it is released. -/
structure LeaderRound where
  gid : Nat
  round : Nat
  reports : List CollPacket
  firstAt : Nat
  fixed : Option (List Nat)
  removed : List Nat
  dlvl : Nat
  part : Bool
  released : Bool
  deriving DecidableEq, Repr

/-- A released round as this device knows it (R376, R378): its contributor set and what the homes on other
devices have told of it. -/
structure Released where
  gid : Nat
  info : ReleaseMsg
  homes : List HomeMsg
  deriving DecidableEq, Repr

/-- A contribution of this device's member whose packets some homes have still to accept (R374): the launch and
LCORE that made it, the report that then goes to the leader, the homes that have not accepted, and what VSTP had pushed
before it, as for a stream (R189). -/
structure CollPush where
  launch : Nat
  lcore : Nat
  report : CollPacket
  left : List Nat
  after : FMap Nat
  deriving DecidableEq, Repr

/-- A member that contributes no more, from a round on (R435). -/
structure GoneMember where
  gid : Nat
  rank : Nat
  round : Nat
  deriving DecidableEq, Repr

/-- The Imposer engine of this device for one group's exchange (R385 to R387, R396): rows by rank with when the
first came and its CDL, the calendar once fixed and whether it has been written to the members, and, on a
standby, the heartbeats missed; `lead` marks a standby that has taken over, `sent` what pairs had sent then, `layout`
the rows of the first calendar, by which the pairs lie in the buffers; `place` is 0 for the primary of the exchange, 1
for its standby; `firstGen` the generation of the first calendar of the exchange fixed last, which a member has
accepted before it posts for a later one. -/
structure Imposition where
  gid : Nat
  lead : Bool
  rows : FMap (List Nat)
  firstAt : Nat
  cdl : Nat
  fixedAt : Option Nat
  written : Bool
  sheets : List (List (Nat × Nat) × Nat)
  t0 : Nat
  gen : Nat
  missed : Nat
  sent : FMap (List Nat)
  layout : FMap (List Nat)
  rebuilt : Bool
  place : Nat
  firstGen : Nat
  deriving DecidableEq, Repr

/-- A range of words retired (R442, R443): 512 rows of one bank, or a channel. -/
inductive Retired
  | range (vault : Bool) (unit chan bank group : Nat)
  | channel (stack chan : Nat)
  deriving DecidableEq, Repr

/-- A bit error present in an array and not yet met (R436, R439): the key of its word, and the bit, none
when it cannot be corrected. -/
structure Latent where
  word : Nat
  bit : Option Nat
  deriving DecidableEq, Repr

/-- The last corrections counted against a bond lane of a vault bank, newest first, in ns (R439). -/
structure BondCount where
  core : Nat
  bank : Nat
  lane : Nat
  times : List Nat
  deriving DecidableEq, Repr

/-- Copies of a remap table that disagree on the entry of a range: one from the other two, or all three (R442). -/
structure RemapError where
  range : Retired
  all : Bool
  deriving DecidableEq, Repr

/-- A kernel load under way, as its command started it (R458). -/
structure LoadJob where
  kidx : Nat
  ctx : Nat
  dsc : Word
  txt : Word
  vlt : Word
  deriving DecidableEq, Repr

/-- What boot reads from the package (R454 to R456): flash, fuses, training, digests. -/
structure PackageFacts where
  keyOk : Bool
  sigOk : Bool
  fwver : BitVec 16
  hbm : BitVec 8
  ports : BitVec 5
  mods : BitVec 4
  rate : BitVec 4
  digests : List (BitVec 512)
  deriving DecidableEq, Repr

/-- The registers of the configuration space that are not elsewhere (R423, R452 to R458), and the ones of
errors and logs (R446 to R449). `linked`: step 1 of the boot has trained UCIe (R454). What a step of the boot found it
keeps until the next reset: MODS, RATE, FWVER, STACKS and PORTS of BOOTST (R455), and the measurements M0 to M3. -/
structure HostRegs where
  linked : Bool
  mods : BitVec 4
  rate : BitVec 4
  fwver : BitVec 16
  hbm : BitVec 8
  ports : BitVec 5
  measured : List (BitVec 512)
  ctxtb : Word
  rtvec : Word
  ctxctlErr : Bool
  ctxctlCtx : BitVec 12
  ckill : Word
  svpb : Word
  svpn : Word
  gtbase : Word
  bootState : BitVec 4
  dmsig : Word
  attDone : Bool
  attMbox : Bool
  attAddr : Word
  attJob : Option (Bool × Word)
  attbuf : List Host.Cell
  loading : Option LoadJob
  kldCode : BitVec 16
  kldUnl : Bool
  kldKidx : BitVec 16
  kldCtx : BitVec 12
  klddsc : Word
  kldtxt : Word
  kldvlt : Word
  mcrec0 : Word
  mcrec1 : Word
  alog0 : Word
  alog1 : Word
  llog0 : Word
  secnt : List (BitVec 32)
  deriving DecidableEq, Repr

/-- The power governor and the deck balance (R410 to R413, R445): P_m in milliwatts, requests, grants, the
currents in milliamperes, the ballast of each deck in amperes, the deck whose leave MC_DECK withholds, and
when the next window of MC_DECK is whole. -/
structure Governor where
  pm : Nat
  reqs : List LeaveReq
  grants : List LeaveHeld
  order : Nat
  ia : Nat
  ib : Nat
  ballastA : Nat
  ballastB : Nat
  deckHold : Option Nat
  deckAt : Nat
  deriving DecidableEq, Repr

/-- What this device sends over Stanas: contributions and reports (R374), a fixed set and a release (R375,
R376), rows (R384), sheet and tail bytes with end flits (R388, R390, R395), ready flits, grants of a
calendar (R387), Imposer heartbeats (R396); and what it answers to a read, or an atomic, of another device or of the
host: none for poison (R440). -/
inductive OutMsg
  | contribution (p : CollPacket)
  | report (p : CollPacket)
  | fixedSet (gid : Nat) (m : SetMsg)
  | homeDone (gid round home : Nat) (late : List (Nat × Nat))
  | release (gid : Nat) (m : ReleaseMsg)
  | row (m : DemandMsg)
  | bytes (m : ExchangeMsg)
  | ready (m : ReadyMsg)
  | grants (gid rank : Nat) (m : GrantsMsg)
  | heartbeat (gid : Nat)
  | answer (addr : Nat) (data : Option (List Byte))
  deriving DecidableEq, Repr

/-- An access that another device sends, or bytes of an exchange (R84, R124, R390), as the swap engine may hold it
(R101). -/
inductive RemoteOp
  | atomic (r : RemoteAtomic)
  | access (r : RemoteAccess)
  | bytes (m : ExchangeMsg)
  deriving DecidableEq, Repr

/-- What takes effect next, in the order of the agenda: a thread's turn, the passing of time in ns, a step
of an engine or of the outside, acts of the caches, arrays and meters that no instruction orders, and the next
step of the management core's boot (R454). -/
inductive Act
  | turn (thr : Nat)
  | tick (ns : Nat)
  | event (i : Instr)
  | fillData (core key : Nat)
  | dropData (core key : Nat)
  | fillInsn (core key : Nat)
  | dropInsn (core key : Nat)
  | dropTlb (core bank vpn : Nat)
  | upset (word : Nat) (bit : Option Nat)
  | remapUpset (e : RemapError)
  | power (milliwatts : Nat)
  | facts (p : PackageFacts)
  | boot
  deriving DecidableEq, Repr

/-- The state of one device. -/
structure State where
  threads : FMap HThread
  cur : Nat
  agenda : List Act
  dev : Nat
  dtime : Nat
  dtOffset : Int
  seq : Nat
  fresh : Nat
  win : Option Window
  mem : List Host.Cell
  poison : List Nat
  retired : List Retired
  latent : List Latent
  tlb : List TlbEntry
  dcache : List Host.Cell
  icache : List Host.Cell
  swaps : List Swap
  packets : List SpanPacket
  spans : List SpanOp
  heldRemote : List RemoteOp
  ports : FMap Port
  passes : List Pass
  factHolder : FMap FactHold
  vaultOwner : FMap ImageOwner
  contexts : List Nat
  kernels : List Kernel
  queues : FMap Queue
  launches : List Launch
  saved : List SavedLc
  gov : Governor
  homes : List HomeRound
  leaders : List LeaderRound
  releases : List Released
  pushes : List CollPush
  gone : List GoneMember
  collRuns : FMap Nat
  ghosts : List LCore
  imposers : List Imposition
  xgens : FMap Nat
  early : List ExchangeMsg
  outbox : List OutMsg
  unreach : List (Nat × BitVec 32)
  late : FMap (List (Nat × Nat))
  dead : List Nat
  host : HostRegs
  pkg : PackageFacts
  msix : List Nat
  tsvSpares : FMap Nat
  bondSpares : FMap Nat
  bondCounts : List BondCount
  streamTurns : FMap Nat
  lateralBanks : List Nat
  remapErrors : List RemapError
  remapWalks : List Retired
  deriving DecidableEq, Repr

/-- The exchange state of a member with no exchange. -/
def XchMember.start : XchMember :=
  { active := false, dposted := false, posted := false, gid := 0, gen := 0, core := 0, area := [], sbuf := 0, rbuf := 0, rlen := 0,
    armed := false, after := [], joined := false, disarmed := false, granted := false, t0 := 0, tend := 0, grants := [],
    started := [], trims := [], ready := [], readyNext := [], sources := [], dests := [], flags := 0, faults := [], fail6 := false, cut := false }

/-- The constants of a thread to which nothing has been dispatched. -/
def Job.nothing : Job :=
  { ctx := 0, priv := false, launch := 0, kidx := 0, prio := 0, lcore := 0, nlcore := 0, dlvl := 0, args := 0,
    counts := [], folen := 0, points := 0, entry := 0, vregs := 32, skdepth := 0, casesorts := 0, deck := none }

/-- A logical core before the writes of its first folio (R52, R231, R422): VTYPE reads VILL, every other
register and CSR 0; a privileged one runs at S with PPRV = 1. -/
def LCore.start (j : Job) : LCore :=
  { job := j, folio := 0, folioEnd := 0, pc := j.entry, level := if j.priv then .s else .u,
    g := Vector.replicate 32 0, v := Vector.replicate 32 0, k := Vector.replicate 8 0, ksm := 0,
    vext := Vector.replicate 32 0, kext := Vector.replicate 9 0, vl := 0, vtype := 0x8000000000000000,
    vstart := 0, satk := 0, frm := 0, fflags := 0, cgrp := 0, cop := 0, cstr := 0, cdl := 0, cmapb := 0,
    ccnt := 0, coll := [], hvw := 0, caseb := 0, casen := 0, hvcap := 0, hvn := 0, hvdist := 0,
    hvnext := 0, hvout := 0, hvmth := 0, hvitl := 0, hvseed := 0, hvpart := 0, hvfth := 0, hvstw := 0,
    skcfg := 0, sktol := 0, skflr := 0, skwin := 0, skcnt := 0, stick := [], attach := none, tvec := 0,
    tpc := 0, tcause := 0, tval := 0, wphase := 0, bwp := false, evf := false, pprv := j.priv, tact := false,
    atRtvec := false, xbase := 0, xgen := 0, xchs := [], barriers := [], oldVals := [], unseen := [],
    displaced := [], waitFor := .none, unreachMark := false, barw := none, placed := 0, placedAt := 0 }

/-- A hardware thread that holds no logical core; SSCR resets to 0 (R424). -/
def HThread.idle : HThread := ⟨0, false, none, false, none, false, .start .nothing⟩

/-- The package as a part that boots (log entry 4): DESIGN CHOICE. -/
def PackageFacts.plain : PackageFacts :=
  { keyOk := true, sigOk := true, fwver := 0, hbm := 0xFF, ports := 24, mods := 4, rate := 0,
    digests := [0, 0, 0, 0] }

/-- The registers of the configuration space at reset: all read 0 (R423, R446 to R449, R454 to R458). -/
def HostRegs.reset : HostRegs :=
  { linked := false, mods := 0, rate := 0, fwver := 0, hbm := 0, ports := 0, measured := [], ctxtb := 0, rtvec := 0, ctxctlErr := false, ctxctlCtx := 0, ckill := 0, svpb := 0, svpn := 0, gtbase := 0,
    bootState := 0, dmsig := 0, attDone := false, attMbox := false, attAddr := 0,
    attJob := none, attbuf := [], loading := none, kldCode := 0, kldUnl := false,
    kldKidx := 0, kldCtx := 0, klddsc := 0, kldtxt := 0, kldvlt := 0, mcrec0 := 0, mcrec1 := 0, alog0 := 0,
    alog1 := 0, llog0 := 0, secnt := List.replicate 10 0 }

/-- The governor at reset: nothing asked, nothing granted (log entry 4 for the currents and P_m). -/
def Governor.reset : Governor :=
  { pm := 0, reqs := [], grants := [], order := 0, ia := 0, ib := 0, ballastA := 0, ballastB := 0,
    deckHold := none, deckAt := 0 }

/-- The device right after reset (R107, R454): nothing runs, the management core is at step 1 of boot. -/
def State.reset : State :=
  { threads := [], cur := 0, agenda := [], dev := 0, dtime := 0, dtOffset := 0, seq := 0, fresh := 0,
    win := none, mem := [], poison := [], retired := [], latent := [], tlb := [], dcache := [], icache := [],
    swaps := [], packets := [], spans := [], heldRemote := [], ports := [], passes := [], factHolder := [], vaultOwner := [],
    contexts := [], kernels := [], queues := [], launches := [], saved := [], gov := .reset, homes := [],
    leaders := [], releases := [], pushes := [], gone := [], collRuns := [], ghosts := [], imposers := [], xgens := [], early := [], outbox := [], unreach := [], late := [], dead := [], host := .reset,
    pkg := .plain, msix := [], tsvSpares := [], bondSpares := [], bondCounts := [], streamTurns := [], lateralBanks := [], remapErrors := [], remapWalks := [] }

/-- Why the machine stops with a fault. -/
inductive Fault
  /-- An access names a physical place that the map of R83 does not give (an address of kind GLOBAL above
  0x5F_FFFF_FFFF, or a table outside GLOBAL). Raised by the memory operations of Ops. Safe: the spec names
  no place and no outcome. -/
  | noSuchPlace (addr : Nat)
  deriving DecidableEq, Repr

/-- Why a step has no meaning. -/
inductive Refusal
  /-- The arm of Dispatch for an instruction that has no meaning yet. Safe: nothing is claimed of it. -/
  | notModelled (mnemonic : String)
  deriving DecidableEq, Repr

end Sys2Proof.Machine
end

