-- ==== Sys2Proof/Machine/Float.lean ====
section
/-! DEFINITION. Floating formats and arithmetic (R129 to R131, R138, R141 to R143): decoding, exact
results as integers with a sticky bit, one rounding, and the flags. -/

namespace Sys2Proof.Machine

/-- A floating format (R129): its width, mantissa bits, bias, whether it has infinities, the canonical NaN
where it has one (R130), and the code of its largest finite value. -/
structure Fmt where
  w : Nat
  mb : Nat
  bias : Nat
  inf : Bool
  nan : Option Nat
  maxCode : Nat
  deriving DecidableEq, Repr

namespace Fmt

/-- FP64. -/
def fp64 : Fmt := ⟨64, 52, 1023, true, some 0x7FF8000000000000, 0x7FEFFFFFFFFFFFFF⟩
/-- FP32. -/
def fp32 : Fmt := ⟨32, 23, 127, true, some 0x7FC00000, 0x7F7FFFFF⟩
/-- BF16. -/
def bf16 : Fmt := ⟨16, 7, 127, true, some 0x7FC0, 0x7F7F⟩
/-- FP16. -/
def fp16 : Fmt := ⟨16, 10, 15, true, some 0x7E00, 0x7BFF⟩
/-- E5M2. -/
def e5m2 : Fmt := ⟨8, 2, 15, true, some 0x7E, 0x7B⟩
/-- E4M3: no infinity, and S.1111.111 is the NaN. -/
def e4m3 : Fmt := ⟨8, 3, 7, false, some 0x7F, 0x7E⟩
/-- E3M2: every code is finite. -/
def e3m2 : Fmt := ⟨6, 2, 3, false, none, 0x1F⟩
/-- E2M3: every code is finite. -/
def e2m3 : Fmt := ⟨6, 3, 1, false, none, 0x1F⟩
/-- E2M1, the ordinary codes of E2M1B. -/
def e2m1 : Fmt := ⟨4, 1, 1, false, none, 0x7⟩

/-- The exponent of the smallest step: that of the subnormals. -/
def qmin (f : Fmt) : Int := 1 - (f.bias : Int) - (f.mb : Int)

/-- The code of +∞ in a format that has one. -/
def infCode (f : Fmt) : Nat := f.maxCode + 1

end Fmt

/-- A decoded value: a finite one is m·2^e with a sign. -/
inductive FVal
  | nan
  | inf (neg : Bool)
  | fin (neg : Bool) (m : Nat) (e : Int)
  deriving DecidableEq, Repr

/-- +0. -/
def FVal.zero : FVal := .fin false 0 0

/-- Decode a code (R129, R131). -/
def Fmt.decode (f : Fmt) (code : Nat) : FVal :=
  let neg := code / 2 ^ (f.w - 1) % 2 == 1
  let mag := code % 2 ^ (f.w - 1)
  if f.maxCode < mag then (if f.inf && mag == f.infCode then .inf neg else .nan)
  else
    let e := mag / 2 ^ f.mb
    let m := mag % 2 ^ f.mb
    if e = 0 then .fin neg m f.qmin else .fin neg (m + 2 ^ f.mb) (f.qmin + (e : Int) - 1)

/-- The flags NV, DZ, OF, UF, NX (R142). -/
def fNV : BitVec 5 := 16
/-- Division by zero. -/
def fDZ : BitVec 5 := 8
/-- Overflow. -/
def fOF : BitVec 5 := 4
/-- Underflow. -/
def fUF : BitVec 5 := 2
/-- Inexact. -/
def fNX : BitVec 5 := 1

/-- Round to nearest, ties to even (R141). -/
def rne : BitVec 2 := 0

/-- An exact magnitude m·2^e, or, with `sticky`, one strictly between m·2^e and (m + 1)·2^e. -/
structure Exact where
  neg : Bool
  m : Nat
  e : Int
  sticky : Bool
  deriving DecidableEq, Repr

/-- Round a magnitude to a multiple of 2^q under a mode (R141): the multiple, and whether it is inexact. -/
def roundTo (x : Exact) (q : Int) (rm : BitVec 2) : Nat × Bool :=
  if q ≤ x.e ∧ !x.sticky then (x.m * 2 ^ (x.e - q).toNat, false)
  else
    let up := (x.e - q).toNat
    let d := (q - x.e).toNat
    let m := x.m * 2 ^ up
    let n := m / 2 ^ d
    let r := m % 2 ^ d
    let inexact := r != 0 || x.sticky
    let twice := 2 * r
    let more := decide (2 ^ d < twice) || (twice == 2 ^ d && x.sticky)
    let tie := twice == 2 ^ d && !x.sticky && r != 0
    let inc := match rm.toNat with
      | 0 => more || (tie && n % 2 == 1)
      | 1 => false
      | 2 => x.neg && inexact
      | _ => !x.neg && inexact
    (if inc then n + 1 else n, inexact)

/-- The exponent of the leading bit of a magnitude that is not 0. -/
def Exact.top (x : Exact) : Int := (Nat.log2 x.m : Int) + x.e

/-- The magnitude rounded once to a format's precision, its exponents unbounded above (R138): the code
it would have, whether that is inexact, and whether the result is tiny after rounding (R142). -/
structure Rounded where
  bits : Nat
  nx : Bool
  tiny : Bool
  deriving DecidableEq, Repr

/-- Round a magnitude that is not 0 to a format's precision. -/
def Fmt.round (f : Fmt) (x : Exact) (rm : BitVec 2) : Rounded :=
  let q := max (x.top - (f.mb : Int)) f.qmin
  let r := roundTo x q rm
  let u := roundTo x (x.top - (f.mb : Int)) rm
  let tiny := decide ((u.1 : Int) * 2 ^ (x.top - (f.mb : Int) - f.qmin + 64).toNat < 2 ^ (f.mb + 64))
    && decide (x.top < f.qmin + f.mb)
  ⟨r.1 + (q - f.qmin).toNat * 2 ^ f.mb, r.2, tiny⟩

/-- A sign placed over a magnitude. -/
def Fmt.signed (f : Fmt) (neg : Bool) (mag : Nat) : Nat := mag + (if neg then 2 ^ (f.w - 1) else 0)

/-- The flags of an inexact or tiny result. -/
def Rounded.flags (r : Rounded) : BitVec 5 :=
  if r.nx then (if r.tiny then fUF ||| fNX else fNX) else 0

/-- The canonical NaN of a format, or its largest finite value where it has none (R130, R138). -/
def Fmt.nanCode (f : Fmt) : Nat := f.nan.getD f.maxCode

/-- Whether an overflow under a mode gives infinity, as IEEE 754 prescribes. -/
def overflowInf (neg : Bool) (rm : BitVec 2) : Bool :=
  match rm.toNat with
  | 0 => true
  | 1 => false
  | 2 => neg
  | _ => !neg

/-- Deliver an arithmetic result in a format with infinities, rounded once (R142, R257). -/
def Fmt.deliver (f : Fmt) (x : Exact) (rm : BitVec 2) : Nat × BitVec 5 :=
  if x.m = 0 ∧ !x.sticky then (f.signed x.neg 0, 0)
  else
    let r := f.round x rm
    if f.maxCode < r.bits then
      (f.signed x.neg (if overflowInf x.neg rm then f.infCode else f.maxCode), fOF ||| fNX)
    else (f.signed x.neg r.bits, r.flags)

/-- The result of a narrowing (R138): the code, its flags, and whether the element is marked. -/
structure Narrowed where
  code : Nat
  flags : BitVec 5
  mark : Bool
  deriving DecidableEq, Repr

/-- Narrow a value to a floating target by R138: beyond the range it saturates, with OF and NX. -/
def Fmt.narrow (f : Fmt) (v : FVal) (rm : BitVec 2) : Narrowed :=
  match v with
  | .nan => ⟨f.nanCode, 0, true⟩
  | .inf neg => if f.inf then ⟨f.signed neg f.infCode, 0, false⟩ else ⟨f.signed neg f.maxCode, fOF ||| fNX, true⟩
  | .fin neg m e =>
    if m = 0 then ⟨f.signed neg 0, 0, false⟩
    else
      let r := f.round ⟨neg, m, e, false⟩ rm
      if f.maxCode < r.bits then ⟨f.signed neg f.maxCode, fOF ||| fNX, true⟩
      else ⟨f.signed neg r.bits, r.flags, false⟩

/-- A value as an arithmetic or a conversion writes it, rounded once as IEEE 754 prescribes (R137, R142). -/
def Fmt.ofVal (f : Fmt) (v : FVal) (rm : BitVec 2) : Nat × BitVec 5 :=
  match v with
  | .nan => (f.nanCode, 0)
  | .inf neg => (f.signed neg f.infCode, 0)
  | .fin neg m e => f.deliver ⟨neg, m, e, false⟩ rm

/-! ## Exact results -/

/-- Whether a value is a NaN. -/
def FVal.isNan : FVal → Bool
  | .nan => true
  | _ => false

/-- A value negated. -/
def FVal.negate : FVal → FVal
  | .nan => .nan
  | .inf n => .inf (!n)
  | .fin n m e => .fin (!n) m e

/-- A signed magnitude as an integer multiple of 2^e. -/
def signedInt (neg : Bool) (m : Nat) : Int := if neg then -(m : Int) else m

/-- The exact sum of two finite values; an exact zero from unlike signs is +0, or −0 rounding down. -/
def finAdd (n1 : Bool) (m1 : Nat) (e1 : Int) (n2 : Bool) (m2 : Nat) (e2 : Int) (rm : BitVec 2) : FVal :=
  let e := min e1 e2
  let x := signedInt n1 (m1 * 2 ^ (e1 - e).toNat) + signedInt n2 (m2 * 2 ^ (e2 - e).toNat)
  if x = 0 then .fin (if n1 == n2 && m1 == 0 && m2 == 0 then n1 else rm == 2) 0 e
  else .fin (decide (x < 0)) x.natAbs e

/-- The exact sum, and whether it is invalid. -/
def FVal.add (a b : FVal) (rm : BitVec 2) : FVal × BitVec 5 :=
  match a, b with
  | .nan, _ | _, .nan => (.nan, 0)
  | .inf x, .inf y => if x == y then (.inf x, 0) else (.nan, fNV)
  | .inf x, .fin _ _ _ => (.inf x, 0)
  | .fin _ _ _, .inf y => (.inf y, 0)
  | .fin n1 m1 e1, .fin n2 m2 e2 => (finAdd n1 m1 e1 n2 m2 e2 rm, 0)

/-- The exact product, and whether it is invalid: 0 times infinity. -/
def FVal.mul (a b : FVal) : FVal × BitVec 5 :=
  match a, b with
  | .nan, _ | _, .nan => (.nan, 0)
  | .inf x, .inf y => (.inf (x != y), 0)
  | .inf x, .fin y m _ | .fin y m _, .inf x => if m = 0 then (.nan, fNV) else (.inf (x != y), 0)
  | .fin n1 m1 e1, .fin n2 m2 e2 => (.fin (n1 != n2) (m1 * m2) (e1 + e2), 0)

/-- The arithmetic operation of two codes whose exact result is a value: rounded once, flags joined. -/
def Fmt.finish (f : Fmt) (r : FVal × BitVec 5) (rm : BitVec 2) : Nat × BitVec 5 :=
  let o := f.ofVal r.1 rm
  (o.1, o.2 ||| r.2)

/-- a + b (R258). -/
def Fmt.fadd (f : Fmt) (a b : Nat) (rm : BitVec 2) : Nat × BitVec 5 :=
  f.finish ((f.decode a).add (f.decode b) rm) rm

/-- a − b. -/
def Fmt.fsub (f : Fmt) (a b : Nat) (rm : BitVec 2) : Nat × BitVec 5 :=
  f.finish ((f.decode a).add (f.decode b).negate rm) rm

/-- a · b. -/
def Fmt.fmul (f : Fmt) (a b : Nat) (rm : BitVec 2) : Nat × BitVec 5 :=
  f.finish ((f.decode a).mul (f.decode b)) rm

/-- a · b + d rounded once, the product negated for the VFNMA form; 0 · ∞ is invalid whatever d holds
(R130, R258). -/
def Fmt.ffma (f : Fmt) (negProd : Bool) (a b d : Nat) (rm : BitVec 2) : Nat × BitVec 5 :=
  let p := (f.decode a).mul (f.decode b)
  let r := (if negProd then p.1.negate else p.1).add (f.decode d) rm
  f.finish (r.1, p.2 ||| r.2) rm

/-- Scale a magnitude up by whole bits, so that it has at least `bits` bits. -/
def widen (m bits : Nat) : Nat × Nat :=
  let k := bits - Nat.log2 m
  (m * 2 ^ k, k)

/-- a / b (R143, R258): exact quotient rounded once. -/
def Fmt.fdiv (f : Fmt) (a b : Nat) (rm : BitVec 2) : Nat × BitVec 5 :=
  match f.decode a, f.decode b with
  | .nan, _ | _, .nan => (f.nanCode, 0)
  | .inf _, .inf _ => (f.nanCode, fNV)
  | .inf x, .fin y _ _ => (f.signed (x != y) f.infCode, 0)
  | .fin x _ _, .inf y => (f.signed (x != y) 0, 0)
  | .fin x m1 e1, .fin y m2 e2 =>
    if m2 = 0 then
      if m1 = 0 then (f.nanCode, fNV) else (f.signed (x != y) f.infCode, fDZ)
    else if m1 = 0 then (f.signed (x != y) 0, 0)
    else
      let w := widen m1 (Nat.log2 m2 + f.mb + 4)
      f.deliver ⟨x != y, w.1 / m2, e1 - (w.2 : Int) - e2, w.1 % m2 != 0⟩ rm

/-- The integer square root by bits from `k` down: the greatest r with r² ≤ n, among those above `acc`. -/
def isqrtFrom (n : Nat) : Nat → Nat → Nat
  | 0, acc => acc
  | k + 1, acc =>
    let t := acc + 2 ^ k
    isqrtFrom n k (if t * t ≤ n then t else acc)

/-- The integer square root. -/
def isqrt (n : Nat) : Nat := isqrtFrom n (Nat.log2 n / 2 + 1) 0

/-- A magnitude with an even exponent and at least `bits` bits. -/
def evenWide (m : Nat) (e : Int) (bits : Nat) : Nat × Int :=
  let w := widen m bits
  let e' := e - (w.2 : Int)
  if e' % 2 = 0 then (w.1, e') else (2 * w.1, e' - 1)

/-- √a (R143, R258). -/
def Fmt.fsqrt (f : Fmt) (a : Nat) (rm : BitVec 2) : Nat × BitVec 5 :=
  match f.decode a with
  | .nan => (f.nanCode, 0)
  | .inf neg => if neg then (f.nanCode, fNV) else (f.infCode, 0)
  | .fin neg m e =>
    if m = 0 then (f.signed neg 0, 0)
    else if neg then (f.nanCode, fNV)
    else
      let w := evenWide m e (2 * f.mb + 8)
      let r := isqrt w.1
      f.deliver ⟨false, r, w.2 / 2, r * r != w.1⟩ rm

/-- 1/√a (R143). -/
def Fmt.frsq (f : Fmt) (a : Nat) (rm : BitVec 2) : Nat × BitVec 5 :=
  match f.decode a with
  | .nan => (f.nanCode, 0)
  | .inf neg => if neg then (f.nanCode, fNV) else (0, 0)
  | .fin neg m e =>
    if m = 0 then (f.signed neg f.infCode, fDZ)
    else if neg then (f.nanCode, fNV)
    else
      let w := evenWide m e 0
      let k := f.mb + 8 + Nat.log2 w.1
      let n := 2 ^ (2 * k)
      let r := isqrt (n / w.1)
      f.deliver ⟨false, r, -(w.2 / 2) - (k : Int), r * r * w.1 != n⟩ rm

/-- 1/a (R143). -/
def Fmt.frcp (f : Fmt) (a : Nat) (rm : BitVec 2) : Nat × BitVec 5 := f.fdiv (f.signed false (f.bias * 2 ^ f.mb)) a rm

/-- Bits of the fixed point in which the transcendental functions are worked out (log entry 15). -/
def fixBits : Nat := 256

/-- ln 2 · 2^256, truncated. -/
def ln2Fix : Nat := 0xB17217F7D1CF79ABC9E3B39803F2F6AF40F343267298B62D8A0D175B8BAAFA2B

/-- The series of exp at t·2^-256, from term k on, with `fuel` terms left; `term` is t^k/k!. -/
def expSeries (t : Nat) : Nat → Nat → Nat → Nat
  | 0, _, _ => 0
  | fuel + 1, k, term => term + expSeries t fuel (k + 1) (term * t / 2 ^ fixBits / (k + 1))

/-- 2^f · 2^256 for a fraction f·2^-256 below 1. -/
def exp2Fix (f : Nat) : Nat := expSeries (f * ln2Fix / 2 ^ fixBits) 64 0 (2 ^ fixBits)

/-- 2^a (R143): exact at integers, otherwise irrational, worked out to 256 bits and rounded once. -/
def Fmt.fexp2 (f : Fmt) (a : Nat) (rm : BitVec 2) : Nat × BitVec 5 :=
  match f.decode a with
  | .nan => (f.nanCode, 0)
  | .inf neg => if neg then (0, 0) else (f.infCode, 0)
  | .fin neg m e =>
    let lim : Nat := 2 ^ 16
    let whole := if 0 ≤ e then m * 2 ^ (min e.toNat 40) else m / 2 ^ (-e).toNat
    if m = 0 then f.deliver ⟨false, 1, 0, false⟩ rm
    else if lim ≤ whole then f.deliver ⟨false, 1, if neg then -(lim : Int) else lim, true⟩ rm
    else if 0 ≤ e ∨ m % 2 ^ (-e).toNat = 0 then
      f.deliver ⟨false, 1, if neg then -(whole : Int) else whole, false⟩ rm
    else
      let frac := m % 2 ^ (-e).toNat * 2 ^ fixBits / 2 ^ (-e).toNat
      let base : Int := if neg then -(whole : Int) - 1 else whole
      let fr := if neg then 2 ^ fixBits - frac else frac
      f.deliver ⟨false, exp2Fix fr, base - fixBits, true⟩ rm

/-- The series of atanh: the sum of z^(2k+1)/(2k+1) from term k on; `pow` is z^(2k+1). -/
def atanhSeries (z2 : Nat) : Nat → Nat → Nat → Nat
  | 0, _, _ => 0
  | fuel + 1, k, pow => pow / (2 * k + 1) + atanhSeries z2 fuel (k + 1) (pow * z2 / 2 ^ fixBits)

/-- log2 of m/2^k · 2^256, for m from 2^k up to 2^(k+1). -/
def log2Fix (m k : Nat) : Nat :=
  let z := (m - 2 ^ k) * 2 ^ fixBits / (m + 2 ^ k)
  2 * atanhSeries (z * z / 2 ^ fixBits) 90 0 z * 2 ^ fixBits / ln2Fix

/-- log2 a (R143): exact at powers of two, otherwise irrational, worked out to 256 bits and rounded once. -/
def Fmt.flog2 (f : Fmt) (a : Nat) (rm : BitVec 2) : Nat × BitVec 5 :=
  match f.decode a with
  | .nan => (f.nanCode, 0)
  | .inf neg => if neg then (f.nanCode, fNV) else (f.infCode, 0)
  | .fin neg m e =>
    if m = 0 then (f.signed true f.infCode, fDZ)
    else if neg then (f.nanCode, fNV)
    else
      let k := Nat.log2 m
      let top : Int := (k : Int) + e
      if m = 2 ^ k then f.deliver ⟨decide (top < 0), top.natAbs, 0, false⟩ rm
      else
        let x : Int := top * 2 ^ fixBits + (log2Fix m k : Int)
        f.deliver ⟨decide (x < 0), (if x < 0 then x.natAbs - 1 else x.natAbs), -(fixBits : Int), true⟩ rm

/-! ## Order (R258, R292, R295) -/

/-- A value as an integer multiple of 2^e, for e at or below its own exponent. -/
def scaled (neg : Bool) (m : Nat) (e lo : Int) : Int := signedInt neg (m * 2 ^ (e - lo).toNat)

/-- a < b of values that are not NaN; −0 and +0 are equal. -/
def FVal.lt : FVal → FVal → Bool
  | .nan, _ | _, .nan => false
  | .inf a, .inf b => a && !b
  | .inf a, .fin _ _ _ => a
  | .fin _ _ _, .inf b => !b
  | .fin n1 m1 e1, .fin n2 m2 e2 => decide (scaled n1 m1 e1 (min e1 e2) < scaled n2 m2 e2 (min e1 e2))

/-- a = b of values that are not NaN; −0 and +0 are equal. -/
def FVal.eq : FVal → FVal → Bool
  | .nan, _ | _, .nan => false
  | .inf a, .inf b => a == b
  | .inf _, .fin _ _ _ | .fin _ _ _, .inf _ => false
  | .fin n1 m1 e1, .fin n2 m2 e2 => scaled n1 m1 e1 (min e1 e2) == scaled n2 m2 e2 (min e1 e2)

/-- The sign of a value; a zero keeps its own. -/
def FVal.isNeg : FVal → Bool
  | .nan => false
  | .inf n | .fin n _ _ => n

/-- a below b where −0 is below +0. -/
def FVal.below (a b : FVal) : Bool := a.lt b || (a.eq b && a.isNeg && !b.isNeg)

/-- The lesser of two codes (R258): −0 < +0, a NaN loses, two NaNs give the canonical NaN. -/
def Fmt.fmin (f : Fmt) (a b : Nat) : Nat :=
  let x := f.decode a
  let y := f.decode b
  if x.isNan && y.isNan then f.nanCode else if x.isNan then b else if y.isNan then a
  else if y.below x then b else a

/-- The greater of two codes. -/
def Fmt.fmax (f : Fmt) (a b : Nat) : Nat :=
  let x := f.decode a
  let y := f.decode b
  if x.isNan && y.isNan then f.nanCode else if x.isNan then b else if y.isNan then a
  else if x.below y then b else a

/-- FCMP n (R258): a NaN gives 0, and raises NV for less and less or equal. -/
def Fmt.fcmp (f : Fmt) (n : Nat) (a b : Nat) : Bool × BitVec 5 :=
  let x := f.decode a
  let y := f.decode b
  if x.isNan || y.isNan then (false, if n = 0 then 0 else fNV)
  else if n = 0 then (x.eq y, 0)
  else if n = 1 then (x.lt y, 0)
  else (x.lt y || x.eq y, 0)

/-! ## Integers and floating values (R142, R259) -/

/-- The range of an integer format of w bits. -/
def intMin (signed : Bool) (w : Nat) : Int := if signed then -(2 ^ (w - 1) : Int) else 0
/-- The largest value of an integer format of w bits. -/
def intMax (signed : Bool) (w : Nat) : Int := if signed then 2 ^ (w - 1) - 1 else 2 ^ w - 1

/-- A two's complement reading of w bits. -/
def signedOf (w x : Nat) : Int := if x % 2 ^ w < 2 ^ (w - 1) then (x % 2 ^ w : Nat) else (x % 2 ^ w : Nat) - (2 ^ w : Int)

/-- An integer reduced to w bits. -/
def wrap (w : Nat) (x : Int) : Nat := (x % (2 ^ w : Int)).toNat

/-- A value converted to an integer of w bits under a mode (R138, R142): out of range and NaN raise NV. -/
def FVal.toInt (v : FVal) (signed : Bool) (w : Nat) (rm : BitVec 2) : Narrowed :=
  let hi := wrap w (intMax signed w)
  let lo := wrap w (intMin signed w)
  match v with
  | .nan => ⟨hi, fNV, true⟩
  | .inf neg => ⟨if neg then lo else hi, fNV, true⟩
  | .fin neg m e =>
    let r := roundTo ⟨neg, m, e, false⟩ 0 rm
    let x := signedInt neg r.1
    if intMax signed w < x then ⟨hi, fNV, true⟩
    else if x < intMin signed w then ⟨lo, fNV, true⟩
    else ⟨wrap w x, if r.2 then fNX else 0, false⟩

/-- An integer converted to a format, rounded once. -/
def Fmt.ofInt (f : Fmt) (x : Int) (rm : BitVec 2) : Nat × BitVec 5 :=
  f.deliver ⟨decide (x < 0), x.natAbs, 0, false⟩ rm

/-! ## Dot products (R145) -/

/-- A sum of products kept exact: its value as an integer multiple of 2^e, the infinities met, and whether
a NaN arose, whether it is invalid, and whether every product so far is −0. -/
structure Dot where
  x : Int
  e : Int
  posInf : Bool
  negInf : Bool
  nan : Bool
  nv : Bool
  allNegZero : Bool
  deriving DecidableEq, Repr

/-- Nothing summed. Products of integers are never −0. -/
def Dot.empty (ints : Bool) : Dot := ⟨0, 0, false, false, false, false, !ints⟩

/-- One more product. -/
def Dot.add (d : Dot) (a b : FVal) : Dot :=
  match a.mul b with
  | (.nan, fl) => { d with nan := true, nv := d.nv || fl != 0, allNegZero := false }
  | (.inf neg, _) =>
    { d with posInf := d.posInf || !neg, negInf := d.negInf || neg, allNegZero := false }
  | (.fin neg m e, _) =>
    let lo := min d.e e
    { d with x := d.x * 2 ^ (d.e - lo).toNat + signedInt neg (m * 2 ^ (e - lo).toNat), e := lo,
             allNegZero := d.allNegZero && neg && m == 0 }

/-- The p of R145: the exact sum rounded once to FP32. A NaN product raises NV (R145). -/
def Dot.round (d : Dot) : Nat × BitVec 5 :=
  if d.nan || (d.posInf && d.negInf) then (Fmt.fp32.nanCode, fNV)
  else if d.posInf then (Fmt.fp32.infCode, 0)
  else if d.negInf then (Fmt.fp32.signed true Fmt.fp32.infCode, 0)
  else if d.x = 0 then (Fmt.fp32.signed d.allNegZero 0, 0)
  else Fmt.fp32.deliver ⟨decide (d.x < 0), d.x.natAbs, d.e, false⟩ rne

/-- The p of two rows of values; `ints`: both are of integers. -/
def dotP (ints : Bool) (a b : List FVal) : Nat × BitVec 5 :=
  ((a.zip b).foldl (fun (d : Dot) p => d.add p.1 p.2) (Dot.empty ints)).round

/-- DotRound (R145): the accumulator and p are FP32 codes. -/
def dotRound (ints : Bool) (acc : Nat) (a b : List FVal) : Nat × BitVec 5 :=
  let p := dotP ints a b
  let r := Fmt.fp32.fadd acc p.1 rne
  (r.1, p.2 ||| r.2)

/-! ## FP64 by slicing (R146) -/

/-- The exponent of the leading bit of a value, none for 0. -/
def FVal.top? : FVal → Option Int
  | .fin _ m e => if m = 0 then none else some ((Nat.log2 m : Int) + e)
  | _ => none

/-- The greatest leading exponent of a row, or 0 when every element is 0. -/
def rowTop (l : List FVal) : Int := (l.filterMap FVal.top?).foldl (fun a b => some (match a with | none => b | some x => max x b)) none |>.getD 0

/-- An element aligned to a row's exponent and truncated (R146). -/
def aligned (S : Nat) (E : Int) : FVal → Int
  | .fin neg m e => signedInt neg (roundTo ⟨false, m, e + (8 * S - 3 : Int) - E, false⟩ 0 1).1
  | _ => 0

/-- The balanced base-256 digits of R146, least significant first, with `n` left. -/
def digitsLow : Nat → Int → List Int
  | 0, _ => []
  | n + 1, x =>
    let d := (x + 128) % 256 - 128
    d :: digitsLow n ((x - d) / 256)

/-- Digits (R146): digit 0 is the most significant. -/
def digits (S : Nat) (x : Int) : List Int := (digitsLow S x).reverse

/-- The pairs (i, j) with i + j ≤ S − 1. -/
def slicePairs (S : Nat) : List (Nat × Nat) :=
  (List.range S).flatMap fun i => (List.range (S - i)).map fun j => (i, j)

/-- SliceDot (R146): FP64 codes. -/
def sliceDot (acc : Nat) (a b : List FVal) (S : Nat) : Nat × BitVec 5 :=
  let bad (v : FVal) : Bool := match v with | .fin _ _ _ => false | _ => true
  if a.any bad || b.any bad then (Fmt.fp64.nanCode, fNV)
  else
    let Ea := rowTop a
    let Eb := rowTop b
    let al := a.map fun v => digits S (aligned S Ea v)
    let be := b.map fun v => digits S (aligned S Eb v)
    let pairSum (i j : Nat) : Int := ((al.zip be).map fun p => p.1.getD i 0 * p.2.getD j 0).sum
    let T := ((slicePairs S).map fun p => pairSum p.1 p.2 * 2 ^ (8 * (2 * S - 2 - p.1 - p.2))).sum
    let p := Fmt.fp64.deliver ⟨decide (T < 0), T.natAbs, Ea + Eb - 2 * (8 * S - 3 : Int), false⟩ rne
    let r := Fmt.fp64.fadd acc p.1 rne
    (r.1, p.2 ||| r.2)

end Sys2Proof.Machine
end

