-- ==== Sys2Proof/Machine/Ops.lean ====
section
/-! DEFINITION. The named operations over threads, registers and memory: the current logical core, reads
and writes of registers, bytes of memory in canonical form, poison and machine checks, the freeing of what
a logical core holds, the kill of a context, and taking and returning from a trap. -/

namespace Sys2Proof.Machine

/-! ## Orders -/

/-- Put an item before the first of a list that it does not follow. -/
def insertBy {α : Type} (le : α → α → Bool) (x : α) : List α → List α
  | [] => [x]
  | y :: l => if le x y then x :: y :: l else y :: insertBy le x l

/-- A list in an order; items that the order does not separate keep their places. -/
def sortBy {α : Type} (le : α → α → Bool) (l : List α) : List α := l.foldr (insertBy le) []

/-! ## Threads and registers -/

/-- A hardware thread; one never written is idle. -/
def State.thr (s : State) (n : Nat) : HThread := (FMap.get? s.threads n).getD .idle

/-- Replace a hardware thread. -/
def State.setThr (s : State) (n : Nat) (t : HThread) : State := { s with threads := FMap.set s.threads n t }

/-- The logical core of the thread whose turn it is. -/
def State.lc (s : State) : LCore := (s.thr s.cur).lc

/-- Replace the logical core of the thread whose turn it is. -/
def State.setLc (s : State) (c : LCore) : State := s.setThr s.cur { s.thr s.cur with lc := c }

/-- Replace the logical core of any thread. -/
def State.setLcOf (s : State) (n : Nat) (c : LCore) : State := s.setThr n { s.thr n with lc := c }

/-- The core of the thread whose turn it is (R1). -/
def State.core (s : State) : Nat := s.cur / 4

/-- The 768 device thread numbers, ascending (R1). -/
def threadNumbers : List Nat := List.range 768

/-- Read a g register; g0 reads 0 (R253). -/
def LCore.rd (c : LCore) (r : Reg) : Word :=
  if r = 0 then 0 else c.g[r.toNat]'(by have := r.isLt; omega)

/-- Write a g register; a write to g0 is discarded (R253). -/
def LCore.wr (c : LCore) (r : Reg) (x : Word) : LCore :=
  if r = 0 then c else { c with g := c.g.set r.toNat x (by have := r.isLt; omega) }

/-- Pass control to the next word (R42). -/
def LCore.advance (c : LCore) : LCore := { c with pc := c.pc + 4 }

/-- A vector register by number. -/
def LCore.vreg (c : LCore) (n : Nat) : VReg := if h : n < 32 then c.v[n] else 0

/-- Write a vector register whose slices below `slices` have now been written (R431). -/
def LCore.setVreg (c : LCore) (n : Nat) (x : VReg) (slices : Nat) : LCore :=
  if h : n < 32 then
    { c with v := c.v.set n x, vext := c.vext.set n (max c.vext[n] slices) }
  else c

/-- A mask register by its field value: k0 to k7, or 8 for ksm (R45). -/
def LCore.kreg (c : LCore) (n : Nat) : KReg := if h : n < 8 then c.k[n] else c.ksm

/-- Write a mask register whose slices below `slices` have now been written (R431). -/
def LCore.setKreg (c : LCore) (n : Nat) (x : KReg) (slices : Nat) : LCore :=
  if h : n < 8 then
    { c with k := c.k.set n x, kext := c.kext.set n (max c.kext[n] slices) }
  else { c with ksm := x, kext := c.kext.set 8 (max c.kext[8] slices) }

/-- Set flags in FFLAGS, which is sticky (R142): NV DZ OF UF NX from bit 4 down. -/
def LCore.raise (c : LCore) (f : BitVec 5) : LCore := { c with fflags := c.fflags ||| f }

/-- An event seen by the sequencer (R415): its number, strictly rising. -/
def State.stamp (s : State) : State := { s with seq := s.seq + 1 }

/-- The sequence number of the event stamped last; the first after reset has number 0 (R415). -/
def State.eventNo (s : State) : Nat := s.seq - 1

/-- A fresh index for a free value. -/
def State.tickFresh (s : State) : State := { s with fresh := s.fresh + 1 }

/-! ## Bytes of memory -/

/-- The byte at a key; an unlisted key reads 0 (R107, log entry 3). -/
def Memory.get : List Host.Cell → Nat → Byte
  | [], _ => 0
  | (k, b) :: m, a => if k = a then b else Memory.get m a

/-- Write a byte, keeping the form: keys rising, no cell that holds 0. -/
def Memory.put : List Host.Cell → Nat → Byte → List Host.Cell
  | [], a, b => if b = 0 then [] else [(a, b)]
  | (k, c) :: m, a, b =>
    if a < k then (if b = 0 then (k, c) :: m else (a, b) :: (k, c) :: m)
    else if a = k then (if b = 0 then m else (a, b) :: m)
    else (k, c) :: Memory.put m a b

/-- Write bytes at their keys, in order. -/
def Memory.putAll (m : List Host.Cell) (l : List (Nat × Byte)) : List Host.Cell :=
  l.foldl (fun m p => Memory.put m p.1 p.2) m

/-- The canonical form: keys strictly rising and no cell that holds what an unlisted key reads as. -/
def Memory.wf : List Host.Cell → Bool
  | [] => true
  | (k, b) :: m => b != 0 && m.all (fun c => decide (k < c.1)) && Memory.wf m

/-- A cache or a sparse array: like memory, but a listed 0 differs from an absent byte. -/
def Cells.get? : List Host.Cell → Nat → Option Byte
  | [], _ => none
  | (k, b) :: m, a => if k = a then some b else Cells.get? m a

/-- Add or replace a cached byte. -/
def Cells.put (m : List Host.Cell) (a : Nat) (b : Byte) : List Host.Cell := FMap.set m a b

/-- `n` keys from `a` upward. -/
def keysFrom (a n : Nat) : List Nat := (List.range n).map (a + ·)

/-- Bytes read as a little-endian number. -/
def leNat : List Byte → Nat
  | [] => 0
  | b :: l => b.toNat + 256 * leNat l

/-- The `n` little-endian bytes of a number. -/
def leBytes : Nat → Nat → List Byte
  | 0, _ => []
  | n + 1, x => BitVec.ofNat 8 x :: leBytes n (x / 256)

/-- `n` bytes of memory from a key. -/
def State.bytes (s : State) (a n : Nat) : List Byte := (keysFrom a n).map (Memory.get s.mem)

/-- A little-endian number of `n` bytes in memory. -/
def State.num (s : State) (a n : Nat) : Nat := leNat (s.bytes a n)

/-- Write the `n` little-endian bytes of a number. -/
def State.putNum (s : State) (a n x : Nat) : State :=
  { s with mem := Memory.putAll s.mem ((keysFrom a n).zip (leBytes n x)) }

/-! ## The physical map (R83) as keys: 2^48 times the space, plus the physical address. Space 0 is this
device, 1 is host memory, 2 + d is device d. -/

/-- First key of host memory. -/
def hostBase : Nat := 0x1000000000000

/-- First key of device d. -/
def deviceBase (d : Nat) : Nat := (2 + d) * 0x1000000000000

/-- First physical address of the vaults (R83). -/
def vaultBase : Nat := 0x8000000000

/-- First physical address of the self window (R83). -/
def selfBase : Nat := 0x8100000000

/-- The key of offset o of core n's vault, save area included (R83, R105). -/
def vaultKey (n o : Nat) : Nat := vaultBase + 0x400000 * n + o

/-- Whether a physical address lies in GLOBAL (R83). -/
def inGlobal (a : Nat) : Bool := decide (a < Config.globalBytes)

/-- Whether a physical address lies in the visible part of some core's vault (R83). -/
def inVault (a : Nat) : Bool :=
  decide (vaultBase ≤ a) && decide (a < vaultKey 192 0) && decide ((a - vaultBase) % 0x400000 < 0x300000)

/-- Whether a physical address lies in the self window (R83). -/
def inSelf (a : Nat) : Bool := decide (selfBase ≤ a) && decide (a < selfBase + 0x300000)

/-- The core whose vault holds a local key. -/
def vaultCore (a : Nat) : Nat := (a - vaultBase) / 0x400000

/-- The plain-map address of the cell that the striped map gives to a GLOBAL address (R123). -/
def stripedCell (p : Nat) : Nat :=
  let stack := p / 0x8000 % 8
  let chan := p / 0x400 % 32
  let row := p / 0x40000 * 4 + p / 0x100 % 4
  row * 0x10000 + chan * 0x800 + stack * 0x100 + p % 0x100

/-! ## Errors of the arrays (R436 to R449) -/

/-- The word of an array that holds a key: 32 bytes in HBM, 16 in a vault (R436, R439). -/
def wordOf (a : Nat) : Nat := if a < vaultBase then a / 32 * 32 else a / 16 * 16

/-- The bytes of the word at a word's key. -/
def wordBytes (w : Nat) : Nat := if w < vaultBase then 32 else 16

/-- The stack and channel of a GLOBAL cell under the plain map (R123). -/
def stackOf (a : Nat) : Nat := a / 0x100 % 8
/-- The channel of a GLOBAL cell under the plain map (R123). -/
def chanOf (a : Nat) : Nat := a / 0x800 % 32
/-- The channel address of a GLOBAL cell under the plain map (R123). -/
def chanAddr (a : Nat) : Nat := a / 0x10000 * 0x100 + a % 0x100

/-- Whether a retired range holds a word (R442, R443). A range of an HBM bank is taken as 512 rows of
1 KiB of channel address, 16 banks interleaved by row (log entry 13: DESIGN CHOICE); of a vault, 512 bank words. -/
def Retired.holds : Retired → Nat → Bool
  | .channel st ch, a => inGlobal a && stackOf a == st && chanOf a == ch
  | .range false st ch bank grp, a =>
    inGlobal a && stackOf a == st && chanOf a == ch && chanAddr a / 0x400 % 16 == bank
      && chanAddr a / 0x4000 / 512 == grp
  | .range true core _ bank grp, a =>
    decide (vaultBase ≤ a) && decide (a < vaultKey 192 0) && vaultCore a == core
      && (a - vaultBase) % 0x400000 / 16 % 16 == bank && (a - vaultBase) % 0x400000 / 256 / 512 == grp

/-- Whether the word that holds a key is poisoned (R440, R443). -/
def State.poisoned (s : State) (a : Nat) : Bool :=
  s.poison.contains (wordOf a) || s.retired.any (·.holds a)

/-- Count one in a soft-error counter, saturating (R449). -/
def State.count (s : State) (i : Nat) : State :=
  let c := s.host.secnt.getD i 0
  { s with host := { s.host with secnt := s.host.secnt.set i (if c == 0xFFFFFFFF then c else c + 1) } }

/-- A machine check: stamped, recorded or counted as overflow, MSI-X vector 0 (R446, R449). -/
def State.machineCheck (s : State) (code : BitVec 8) (info : BitVec 48) : State :=
  let s := { s.stamp with msix := s.msix ++ [0] }
  if s.host.mcrec0.getLsbD 63 then
    { s with host := { s.host with mcrec0 := s.host.mcrec0 ||| 0x4000000000000000 } }.count 9
  else
    { s with host := { s.host with mcrec0 := 0x8000000000000000 ||| (code ++ info).setWidth 64,
                                   mcrec1 := BitVec.ofNat 64 s.eventNo } }

/-- An ARRAY log record, or its overflow (R447). -/
def State.arrayLog (s : State) (word : Nat) (bit : Option Nat) : State :=
  if s.host.alog0.getLsbD 63 then
    { s with host := { s.host with alog0 := s.host.alog0 ||| 0x4000000000000000 } }
  else
    let vault := decide (vaultBase ≤ word)
    let unit := if vault then vaultCore word else stackOf word
    let chan := if vault then word / 16 % 16 else chanOf word
    let v := 2 ^ 63 + (if bit = none then 2 ^ 61 else 0) + (if vault then 2 ^ 60 else 0) + unit * 2 ^ 52
      + chan * 2 ^ 47 + (if vault then 0 else (Config.dramLayer word).toNat) * 2 ^ 43 + bit.getD 0 * 2 ^ 35
    { s with host := { s.host with alog0 := BitVec.ofNat 64 v, alog1 := BitVec.ofNat 64 word } }

/-- Count a correction against the bond lane of a vault bank's port, keeping the last three (R439). -/
def State.countBond (s : State) (word bit : Nat) : State :=
  let core := vaultCore word
  let bank := word / 16 % 16
  let is (x : BondCount) : Bool := x.core == core && x.bank == bank && x.lane == bit
  let times := s.dtime :: ((s.bondCounts.find? is).map (·.times)).getD []
  { s with bondCounts := ⟨core, bank, bit, times.take 3⟩ :: s.bondCounts.filter (!is ·) }

/-- A read meets the errors present in the word of a key (R436, R439): a single bit is corrected and
logged, an uncorrectable word is poisoned and raises MC_ARRAY. -/
def State.meet (s : State) (a : Nat) : State :=
  let w := wordOf a
  match s.latent.find? (·.word == w) with
  | none => s
  | some l =>
    let v := decide (vaultBase ≤ w)
    match l.bit with
    | some b =>
      let s := (s.arrayLog w (some b)).count (if v then 4 else 0)
      if v then s.countBond w b else s
    | none =>
      let s := { s with latent := s.latent.filter (·.word != w), poison := s.poison ++ [w] }
      ((s.arrayLog w none).count (if v then 5 else 1)).machineCheck 0x60 (BitVec.ofNat 48 w)

/-- The words that hold some keys, each once, in the order in which they are reached. -/
def wordsOf (keys : List Nat) : List Nat := (keys.map wordOf).eraseDups

/-- One read reaches each word of its keys once (R120): each meets its error. -/
def State.meets (s : State) (keys : List Nat) : State :=
  if s.latent.isEmpty then s else (wordsOf keys).foldl State.meet s

/-- Read bytes at their keys: none when a word they lie in is poisoned (R440). -/
def State.read (s : State) (keys : List Nat) : State × Option (List Byte) :=
  let s := s.meets keys
  (s, if keys.any s.poisoned then none else some (keys.map (Memory.get s.mem)))

/-- The words that a store writes whole, of which it clears the poison and any error (R441). -/
def wholeWords (keys : List Nat) : List Nat :=
  (wordsOf keys).filter fun w => (keysFrom w (wordBytes w)).all keys.contains

/-- The words of some reached keys that are read, merged and written back, when the bytes `whole` are replaced: a bank
word not written whole (R108), and one that holds a byte of which only some bits are replaced (R135). A store of whole
bytes to a part of a GLOBAL word meets no error (log entry 12). -/
def partWords (keys whole : List Nat) : List Nat :=
  (wordsOf keys).filter fun w => !(wholeWords whole).contains w
    && ((decide (vaultBase ≤ w) && decide (w < hostBase)) || keys.any fun k => wordOf k == w && !whole.contains k)

/-- A word is read and written back: it meets its error, and what was corrected is gone (R108, R436). -/
def State.rewrite (s : State) (a : Nat) : State :=
  let s := s.meet a
  { s with latent := s.latent.filter (·.word != wordOf a) }

/-- The bytes of a store, without what it does to the errors of its words. A store to an object that was a barrier, but
for its BEXP, makes it anew (R274): what was found of its phase is forgotten (R247; log entry 103). -/
def State.poke (s : State) (l : List (Nat × Byte)) : State :=
  { s with mem := Memory.putAll s.mem l,
           unreach := s.unreach.filter fun u => !l.any fun p => decide (u.1 + 4 ≤ p.1) && decide (p.1 < u.1 + 64) }

/-- What one merged write that reaches some keys, and replaces the bytes `whole` of them entirely, does to the errors
of their words (R108, R120, R135, R441). -/
def State.merged (s : State) (keys whole : List Nat) : State :=
  if s.poison.isEmpty && s.latent.isEmpty then s
  else
    let full := wholeWords whole
    let s1 : State := { s with poison := s.poison.filter (!full.contains ·),
                               latent := s.latent.filter (fun x => !full.contains x.word) }
    (partWords keys whole).foldl State.rewrite s1

/-- What one merged write of bytes at some keys does to the errors of their words (R108, R120, R441). -/
def State.overwritten (s : State) (keys : List Nat) : State := s.merged keys keys

/-- Store bytes at their keys, in order (R441). -/
def State.write (s : State) (l : List (Nat × Byte)) : State := (s.poke l).overwritten (l.map (·.1))

/-- The write half of a read-modify-write whose read has met the words (R125): they are written back
corrected. -/
def State.writeBack (s : State) (l : List (Nat × Byte)) : State :=
  { s with mem := Memory.putAll s.mem l,
           latent := s.latent.filter fun x => !(wordsOf (l.map (·.1))).contains x.word }

/-- The write half of a read-modify-write of a number of `n` bytes. -/
def State.putBack (s : State) (a n x : Nat) : State := s.writeBack ((keysFrom a n).zip (leBytes n x))

/-! ## The scalar data cache and the instruction cache (R149, R174, R196) -/

/-- The key of a byte in a cache of a core. -/
def cacheKey (core a : Nat) : Nat := core * 2 ^ 64 + a

/-- Invalidate the whole scalar data cache of a core (R196). -/
def State.dropCache (s : State) (core : Nat) : State :=
  { s with dcache := s.dcache.filter fun c => c.1 / 2 ^ 64 != core }

/-- Invalidate bytes of the scalar data cache of a core (R196). -/
def State.dropLines (s : State) (core : Nat) (keys : List Nat) : State :=
  if s.dcache.isEmpty then s
  else { s with dcache := s.dcache.filter fun c => !(c.1 / 2 ^ 64 == core && keys.contains (c.1 % 2 ^ 64)) }

/-- Invalidate the instruction cache of a core (R174). -/
def State.dropInsns (s : State) (core : Nat) : State :=
  { s with icache := s.icache.filter fun c => c.1 / 2 ^ 64 != core }

/-- Whether the scalar data cache of a core may hold a key: GLOBAL and the core's own vault (R149, R196). -/
def cacheable (core a : Nat) : Bool :=
  decide (a < hostBase) && (inGlobal a || (decide (vaultBase ≤ a) && vaultCore a == core))

/-! ## Barriers (R245 to R248, R274) -/

/-- The fields of a barrier object at its key (R274). -/
def State.barExp (s : State) (b : Nat) : Nat := s.num b 4
/-- BARV. -/
def State.barArr (s : State) (b : Nat) : Nat := s.num (b + 4) 4
/-- BREG. -/
def State.barReg (s : State) (b : Nat) : Nat := s.num (b + 8) 4
/-- BPHASE. -/
def State.barPhase (s : State) (b : Nat) : BitVec 32 := BitVec.ofNat 32 (s.num (b + 12) 4)
/-- Whether KIND is 1: explicit. -/
def State.barExplicit (s : State) (b : Nat) : Bool := s.num (b + 16) 4 % 2 == 1
/-- The map of occupied slots. -/
def State.barSlots (s : State) (b : Nat) : BitVec 128 := BitVec.ofNat 128 (s.num (b + 0x14) 16)
/-- The map of slots whose member has arrived. -/
def State.barArrived (s : State) (b : Nat) : BitVec 128 := BitVec.ofNat 128 (s.num (b + 0x24) 16)

/-- The registered members that have not arrived: the set U of R247, counted. -/
def State.barMissing (s : State) (b : Nat) : Nat := (s.barSlots b &&& ~~~(s.barArrived b)).cpop.toNat

/-- What was found of a barrier's phase is forgotten. -/
def State.barForget (s : State) (b : Nat) : State := { s with unreach := s.unreach.filter (·.1 != b) }

/-- The completion test (R246): the phase advances, the arrived count and map clear. -/
def State.barComplete (s : State) (b : Nat) : State :=
  if 1 ≤ s.barExp b ∧ s.barExp b ≤ s.barArr b then
    (((s.putBack (b + 4) 4 0).putBack (b + 12) 4 (s.barPhase b + 1).toNat).putBack (b + 0x24) 16 0).barForget b
  else s

/-- Whether an explicit barrier's phase cannot complete through its members (R247). -/
def State.barStuck (s : State) (b : Nat) : Bool :=
  s.barExplicit b && decide (s.barMissing b < s.barExp b - s.barArr b)

/-- After a barrier event: a phase that can complete through its members again is no longer held unable to (R247). -/
def State.barSettle (s : State) (b : Nat) : State := if s.barStuck b then s else s.barForget b

/-- Whether a thread waits on a phase of a barrier. -/
def WaitFor.onBarrier : WaitFor → Nat → BitVec 32 → Bool
  | .bwait h p, b, q | .barw h p, b, q => h == b && p == q
  | _, _, _ => false

/-- The test of R247. A phase that it finds unable to complete is recorded, for later waits, and every thread waiting
on it is to receive BUNREACH. -/
def State.barUnreach (s : State) (b : Nat) : State :=
  if s.barStuck b then
    let ph := s.barPhase b
    let mark (c : LCore) : LCore := if c.waitFor.onBarrier b ph then { c with unreachMark := true } else c
    { s with unreach := (b, ph) :: s.unreach.filter (·.1 != b),
             threads := s.threads.map fun t => (t.1, { t.2 with lc := mark t.2.lc }),
             saved := s.saved.map fun i => { i with lc := mark i.lc } }
  else s.barForget b

/-- Deregister the member of a slot (R246, R276), then make both tests. -/
def State.barLeave (s : State) (m : Membership) : State :=
  let b := m.home
  let one := BitVec.ofNat 128 (2 ^ m.slot)
  let s1 := s.putBack (b + 8) 4 (s.barReg b - 1)
  let s2 := if s.barExplicit b then s1 else s1.putBack b 4 (s.barReg b - 1)
  let s3 := (s2.putBack (b + 0x14) 16 (s.barSlots b &&& ~~~one).toNat).putBack (b + 0x24) 16
    (s.barArrived b &&& ~~~one).toNat
  s3.barComplete b |>.barUnreach b

/-- Deregister a logical core from every barrier it has joined. The object is read and written at its home: one that is
poisoned is not written, and the answer says so (R440). -/
def State.barLeaveAll (s : State) (c : LCore) : State × Bool :=
  c.barriers.foldl (fun a m =>
    match a.1.read (keysFrom m.home 64) with
    | (s, none) => (s, true)
    | (s, some _) => (s.barLeave m, a.2)) (s, false)

/-! ## What a logical core holds -/

/-- Give back the leave of a thread's operations of some kinds (R409). -/
def State.giveBack (s : State) (n : Nat) (kinds : List LeaveKind) : State :=
  { s with gov := { s.gov with
      reqs := s.gov.reqs.filter fun r => !(r.ref.thr == n && kinds.contains r.ref.kind),
      grants := s.gov.grants.filter fun r => !(r.ref.thr == n && kinds.contains r.ref.kind) } }

/-- Every kind of leave. -/
def LeaveKind.all : List LeaveKind := [.matt, .hvfact, .mgemv, .xgo, .strm]

/-- The key of a port of a core in the map of ports. -/
def portKey (core p : Nat) : Nat := core * 16 + p

/-- A port; one never used is free. -/
def State.port (s : State) (core p : Nat) : Port := (FMap.get? s.ports (portKey core p)).getD ⟨none, []⟩

/-- Replace a port. -/
def State.setPort (s : State) (core p : Nat) (x : Port) : State :=
  { s with ports := FMap.set s.ports (portKey core p) x }

/-- Remove every command of a thread from its core's ports, writing no token (R221). -/
def State.dropPorts (s : State) (n : Nat) : State :=
  { s with ports := s.ports.map fun p =>
      (p.1, if p.2.owner == some n then ⟨none, []⟩ else p.2) }

/-! ## Groups (R368, R373, R384, R453) -/

/-- An entry of the group table: its members as device and LCORE, by rank. -/
structure Group where
  n : Nat
  ctx : Nat
  xrate : Nat
  gwin : Nat
  gwlen : Nat
  members : List (Nat × Nat)
  deriving DecidableEq, Repr

/-- The entry obeys R368. -/
def Group.sound (g : Group) : Bool :=
  decide (1 ≤ g.n) && decide (g.n ≤ 900) && decide (1 ≤ g.xrate) && decide (g.xrate ≤ 4800)
    && g.gwlen % 4096 == 0 && decide (4096 ≤ g.gwlen) && decide (g.gwlen ≤ 2 ^ 30)
    && decide (g.gwin + 2 * g.gwlen ≤ Config.globalBytes) && decide ((g.members.map (·.1)).Nodup)

/-- The entry of a group on this device; none when it is absent (R453). -/
def State.group? (s : State) (gid : Nat) : Option Group :=
  let b := s.host.gtbase.toNat + 4096 * gid
  let n := s.num b 2
  let member (r : Nat) : Nat × Nat :=
    let w := s.num (b + 0x40 + 4 * r) 4
    (w / 2 ^ 20 % 1024, w % 2 ^ 20)
  let g : Group := ⟨n, s.num (b + 2) 2, s.num (b + 4) 4, s.num (b + 8) 8, s.num (b + 16) 8, (List.range n).map member⟩
  if decide (gid < 4096) && s.num (b + 0x18) 4 == 1 && g.sound then some g else none

/-- The rank of the member on a device. -/
def Group.rankOf (g : Group) (dev : Nat) : Option Nat := g.members.findIdx? (·.1 == dev)

/-- A logical core is the member of a group on this device (R368). -/
def Group.isMember (g : Group) (dev : Nat) (c : LCore) : Bool :=
  g.ctx == c.job.ctx && g.members.any fun m => m.1 == dev && m.2 == c.job.lcore

/-- The groups whose entries make a logical core a member (R368): of those whose entry holds a byte that is not 0. -/
def State.groupsOf (s : State) (c : LCore) : List Nat :=
  let base := s.host.gtbase.toNat
  let gids := (s.mem.filterMap fun x => if base ≤ x.1 ∧ x.1 < base + 2 ^ 24 then some ((x.1 - base) / 4096) else none).eraseDups
  gids.filter fun gid => (s.group? gid).any (·.isMember s.dev c)

/-- The rank of this device in a group: unknown to the core, it is the place of DEV in the entry (R453). -/
def State.rankIn (s : State) (gid : Nat) : Nat :=
  let base := s.host.gtbase.toNat + 4096 * gid
  let n := s.num base 2
  ((List.range n).find? fun r => s.num (base + 0x40 + 4 * r) 4 / 2 ^ 20 % 1024 == s.dev).getD 0

/-- The first round of the next launch that uses a group (log entry 74): launches count above bit 32, from those
that have contributed here, or whose rounds are known here. -/
def State.runBase (s : State) (gid : Nat) : Nat :=
  let known := (s.homes.filter (·.gid == gid)).map (·.round) ++ (s.leaders.filter (·.gid == gid)).map (·.round)
    ++ (s.releases.filter (·.gid == gid)).map (·.info.round)
  2 ^ 32 * (known.map (· / 2 ^ 32)).foldl max ((FMap.get? s.collRuns gid).getD 0)

/-- The collective state of a logical core in a group (R373, R378). -/
def State.collIn (s : State) (c : LCore) (gid : Nat) : CollMember :=
  (FMap.get? c.coll gid).getD ⟨s.runBase gid, s.runBase gid⟩

/-- The exchange state of a logical core in a group. -/
def LCore.xchIn (c : LCore) (gid : Nat) : XchMember := (FMap.get? c.xchs gid).getD .start

/-- Replace the exchange state of a logical core in a group. -/
def LCore.setXch (c : LCore) (gid : Nat) (x : XchMember) : LCore := { c with xchs := FMap.set c.xchs gid x }

/-- Change the exchange state of a logical core in every group. -/
def LCore.mapXch (c : LCore) (f : XchMember → XchMember) : LCore := { c with xchs := c.xchs.map fun p => (p.1, f p.2) }

/-- The notices of a killed member (R435): to the leader of every group that it is a member of, whether or not it has
named it in CSET (R368), that it contributes no more, from its next round on. -/
def State.goneNotices (s : State) (c : LCore) : List OutMsg :=
  let gids := (c.coll.map (·.1) ++ (if c.cgrp.getLsbD 63 then [c.cgrp.toNat % 4096] else []) ++ s.groupsOf c).eraseDups
  gids.map fun g => .report
    { gid := g, home := 0, round := (s.collIn c g).next, rank := s.rankIn g, cop := 0, cstr := 0, sew := 0, flt := false,
      cdl := 0, dlvl := 0, elems := [], gone := true }

/-- The exchange of a killed member (R395): its engine sends a 0-byte end flit at each remaining sheet and in each
remaining transfer of the tail, once it has its grants, and nothing is written for it any more. -/
def XchMember.cancelled (x : XchMember) : XchMember := { x with disarmed := true, cut := true, area := [], rlen := 0 }

/-- What the engines still do for a logical core that is no more, if it has an exchange under way (R388, R395). -/
def LCore.ghost (c : LCore) (f : XchMember → XchMember) : List LCore :=
  let l := (c.xchs.filter (·.2.active)).map fun p => (p.1, f p.2)
  if l.isEmpty then [] else [{ LCore.start c.job with xchs := l }]

/-- The leave of the exchange of a group (R409). -/
def xgoLeave (gid : Nat) : LeaveRef := ⟨.xgo, Config.threads + gid, 0, gid⟩

/-- A contribution's arrival may be reported: every home has accepted it, and what VSTP had pushed before it is in memory
(R189, R374). -/
def CollPush.ready (x : CollPush) : Bool := x.left.isEmpty && x.after.isEmpty

/-- The arrivals that may be reported go to their leaders (R374). -/
def State.sendReports (s : State) : State :=
  { s with pushes := s.pushes.filter (!·.ready),
           outbox := s.outbox ++ (s.pushes.filter (·.ready)).map fun x => OutMsg.report x.report }

/-- A contribution that a logical core made. -/
def CollPush.madeBy (x : CollPush) (c : LCore) : Bool := x.launch == c.job.launch && x.lcore == c.job.lcore

/-- What a killed logical core had pushed is discarded: its contributions wait for it no more. -/
def State.unblockPushes (s : State) (c : LCore) : State :=
  let l := s.pushes.map fun x => if x.madeBy c then { x with after := [] } else x
  State.sendReports { s with pushes := l }

/-- Free what a logical core holds when its context is killed, but for its image (R435): barriers,
ports, matrix passes, factoring buffer, packets and leave; its exchanges and rounds go on without it. `n` is its
thread, if it has one. -/
def State.freeHeld (s : State) (c : LCore) (n : Option Nat) : State :=
  let s := (s.barLeaveAll c).1
  let s := (c.xchs.filter (·.2.active)).foldl (fun s p => s.giveBack (Config.threads + p.1) [.xgo]) s
  let s := s.unblockPushes c
  let s := { s with outbox := s.outbox ++ s.goneNotices c, ghosts := s.ghosts ++ c.ghost .cancelled }
  match n with
  | none => s
  | some n =>
    let s := (s.dropPorts n).giveBack n LeaveKind.all
    { s with passes := s.passes.filter (·.thr != n), factHolder := s.factHolder.filter (·.2.thr != n),
             packets := s.packets.filter (·.thr != n), spans := s.spans.filter (·.thr != n) }

/-- A thread that holds no logical core; SSCR stays (R424). -/
def State.vacate (s : State) (n : Nat) : State :=
  s.setThr n { HThread.idle with sscr := (s.thr n).sscr }

/-- A launch has completed or ended: its share in vault images ends with it (R406). -/
def State.endLaunch (s : State) (seq : Nat) : State :=
  { s with launches := s.launches.filter (·.seq != seq),
           vaultOwner := (s.vaultOwner.map fun o =>
             (o.1, { o.2 with launches := o.2.launches.filter (· != seq) })).filter (!·.2.launches.isEmpty) }

/-- A queue of a killed context is emptied and its EN cleared (R402). -/
def Queue.emptiedFor (q : Queue) (ctx : Nat) : Queue :=
  if q.en && q.ctx == ctx then { q with en := false, fifo := [], held := [] } else q

/-- The notices of the members of groups among the logical cores of a launch that have not been dispatched (R368, R435). -/
def State.goneWaiting (s : State) (l : Launch) : List OutMsg :=
  ((List.range l.nlc).filter fun k => decide (l.nextLc ≤ k) && !l.ahead.contains k).flatMap fun k =>
    s.goneNotices (.start { Job.nothing with ctx := l.ctx, launch := l.seq, lcore := k })

/-- Kill a context (R402, R423, R435): CKILL records it; threads stop and free what they hold; images,
queues and launches go; the context is no longer resident (log entry 14). -/
def State.kill (s : State) (ctx : Nat) (cause : BitVec 8) (thr : Nat) : State :=
  let mine := (s.threads.map (·.1)).filter fun n => (s.thr n).occupied && (s.thr n).lc.job.ctx == ctx
  let s : State := { s with outbox := s.outbox ++ (s.launches.filter (·.ctx == ctx)).flatMap s.goneWaiting }
  let s : State := mine.foldl (fun s n =>
    let c := (s.thr n).lc
    (s.freeHeld c (some n)).vacate n) s
  let s : State := (s.saved.filter (·.lc.job.ctx == ctx)).foldl (fun s i => s.freeHeld i.lc none) s
  let s : State :=
    { s with saved := s.saved.filter (·.lc.job.ctx != ctx), contexts := s.contexts.filter (· != ctx),
             queues := s.queues.map (fun q => (q.1, q.2.emptiedFor ctx)) }
  let s : State := (s.launches.filter (·.ctx == ctx)).foldl (fun s l => s.endLaunch l.seq) s
  let n := s.host.ckill.toNat / 2 ^ 48 % 2 ^ 15
  let v := 2 ^ 63 + min (n + 1) 32767 * 2 ^ 48 + cause.toNat * 2 ^ 40 + thr % 1024 * 2 ^ 30 + ctx % 4096
  { s with host := { s.host with ckill := BitVec.ofNat 64 v }, msix := s.msix ++ [2] }

/-! ## Traps (R418 to R421) -/

/-- A trap as R419 gives its values. -/
structure Trap where
  cause : Cause
  tval : Word
  memb : BitVec 2
  tpc : Word
  vst : BitVec 13
  deriving DecidableEq, Repr

/-- Whether a trap is a runtime call (R421). -/
def Trap.runtimeCall (t : Trap) : Bool :=
  t.cause == .soft && decide (0xC00 ≤ t.tval.toNat) && decide (t.tval.toNat ≤ 0xFFF)

/-- A BARW that has arrived is stopped in its wait (R278): BWP and WPHASE keep what its arrival read. -/
def LCore.stopBarw (c : LCore) : LCore :=
  match c.barw with
  | none => c
  | some p => { c with bwp := true, wphase := p, barw := none }

/-- The bits [50:2] that a register of a code address holds (R266). -/
def codeAddress (x : Word) : Word := x &&& 0x7FFFFFFFFFFFC

/-- The registers a trap writes (R420): TCAUSE, TVAL, TPC, VSTART, PPRV and TACT. -/
def LCore.trapped (c : LCore) (t : Trap) : LCore :=
  let d : LCore := c.stopBarw
  { d with tcause := t.memb ++ t.cause.code, tval := t.tval, tpc := codeAddress t.tpc, vstart := t.vst,
           pprv := c.level == .s, tact := true, waitFor := .none, unreachMark := false }

/-- Deliver a trap to a thread, as the pseudocode of R420: a double trap or a missing handler kills the
context; otherwise the thread enters TVEC, or RTVEC at S. -/
def State.deliverTo (s : State) (n : Nat) (t : Trap) : State :=
  let c := (s.thr n).lc
  let s := s.stamp
  if c.tact then s.kill c.job.ctx t.cause.code n
  else
    let d := c.trapped t
    if c.job.priv then
      if c.tvec = 0 then s.kill c.job.ctx t.cause.code n
      else s.setLcOf n { d with level := .s, pc := c.tvec, atRtvec := false }
    else if (t.cause == .pageNp || t.runtimeCall) && s.host.rtvec != 0 then
      s.setLcOf n { d with level := .s, pc := s.host.rtvec, atRtvec := true }
    else if c.tvec = 0 then s.kill c.job.ctx t.cause.code n
    else s.setLcOf n { d with level := .u, pc := c.tvec, atRtvec := false }

/-- Deliver a trap to the thread whose turn it is. -/
def State.deliver (s : State) (t : Trap) : State := s.deliverTo s.cur t

/-- A trap of a scalar instruction (R419): TPC at the instruction, VSTART kept. -/
def State.trap (s : State) (cause : Cause) (tval : Word) : State :=
  s.deliver ⟨cause, tval, 0, s.lc.pc, s.lc.vstart⟩

/-- The return from a trap (R269): control passes to TPC at the level of PPRV, and TACT clears. -/
def LCore.tret (c : LCore) : LCore :=
  { c with tact := false, atRtvec := false, level := if c.pprv then .s else .u, pc := c.tpc }

/-- A thread that serves, at RTVEC, a trap of a context that is not privileged (R423). -/
def LCore.serving (c : LCore) : Bool := c.tact && c.atRtvec && !c.job.priv

/-- A thread that an engine must release before it can issue (R99). -/
def LCore.blocked (c : LCore) : Bool :=
  match c.waitFor with
  | .tlbinv _ _ => true
  | _ => false

/-- A SAVECTX under way (R434): the context and the register of its status. -/
def LCore.saving (c : LCore) : Option (Nat × Reg) :=
  match c.waitFor with
  | .savectx ctx d => some (ctx, d)
  | _ => none

/-- An MMA of a thread has read A and waits for the unit: it retires when its pass starts (R357). -/
def State.passWaits (s : State) (n : Nat) : Bool := s.passes.any fun p => p.thr == n && !p.started

/-- A thread is within an instruction: packets of a convoy are out, an HVFACT, TLBINV, SAVECTX or MMA is under way. -/
def State.midway (s : State) (n : Nat) : Bool :=
  s.spans.any (·.thr == n) || s.factHolder.any (fun h => h.2.thr == n && h.2.run.isSome) || s.passWaits n
    || (s.thr n).lc.blocked || (s.thr n).lc.saving.isSome

/-- A thread abandons its S code: the trap held is delivered at U; with TVEC = 0 the context is killed (R420). -/
def State.abandon (s : State) (n : Nat) : State :=
  let c := (s.thr n).lc
  if c.tvec = 0 then s.kill c.job.ctx (c.tcause.extractLsb' 0 8) n
  else
    let d : LCore := c.stopBarw
    s.stamp.setLcOf n { d with level := .u, pc := c.tvec, atRtvec := false, waitFor := .none, unreachMark := false }

/-- TFWD (R420, R423): the runtime declines, and the thread abandons its S code at its next instruction boundary:
now, or once the instruction under way has ended. No effect on a thread that is not serving. -/
def State.forward (s : State) (n : Nat) : State :=
  if (s.thr n).occupied && (s.thr n).lc.serving then
    if s.midway n then s.setThr n { s.thr n with fwd := true } else s.abandon n
  else s

end Sys2Proof.Machine
end

