-- ==== Sys2Proof/Machine/Translate.lean ====
section
/-! DEFINITION. Translation (R80 to R96): page-table entries, the walk, the accepted kinds, the A and D
updates, the TLBs, the redirection of the swap engine, and the accesses of bytes at virtual addresses. -/

namespace Sys2Proof.Machine

/-- Why an access does not perform. -/
inductive Stop
  /-- a fault of R96, with the address of R95 -/
  | trap (cause : Cause) (tval : Word)
  /-- it reads a poisoned word (R440) -/
  | poison
  /-- a store that the swap engine holds (R101) -/
  | held
  /-- a physical place that R83 does not give -/
  | noPlace (addr : Nat)
  deriving DecidableEq, Repr

/-- The accesses that a walk distinguishes (R88). -/
inductive Acc
  | read | write | rmw | fetch
  deriving DecidableEq, Repr

/-- The access classes of R89. -/
inductive AccClass
  /-- scalar and vector loads and stores, VLDT, VSTT, streams -/
  | plain
  /-- VLDV, VSTV, operand A of MMA, Case reads -/
  | ownVault
  /-- scalar atomics, LDACQ, STREL -/
  | scalarAtomic
  /-- vector atomics; barrier objects and WAITC counters (R275) -/
  | vectorAtomic
  /-- operand B of MGEMV -/
  | gemvB
  /-- the exchange control area (R382) -/
  | area
  /-- instruction fetch -/
  | fetch
  deriving DecidableEq, Repr

/-- On whose behalf an access is made: the core, if one makes it (R83), the context and the level. -/
structure Who where
  core : Option Nat
  ctx : Nat
  level : Level
  deriving DecidableEq, Repr

/-- The thread whose turn it is, as it makes an access. -/
def State.who (s : State) : Who := ⟨some s.core, s.lc.job.ctx, s.lc.level⟩

/-- A place an access reaches: the key of its first byte in address order, the kind it is served as, and
whether its bytes follow the striped map (R123). -/
structure Place where
  base : Nat
  kind : MemKind
  striped : Bool
  deriving DecidableEq, Repr

/-- The key of the byte at an offset from a place's page frame. -/
def Place.at_ (p : Place) (off : Nat) : Nat :=
  if p.striped then stripedCell (p.base + off) else p.base + off

/-! ## Page-table entries (R86, R87) -/

namespace Pte

/-- Bit V. -/
def v (p : Word) : Bool := p.getLsbD 0
/-- Bit R. -/
def r (p : Word) : Bool := p.getLsbD 1
/-- Bit W. -/
def w (p : Word) : Bool := p.getLsbD 2
/-- Bit X. -/
def x (p : Word) : Bool := p.getLsbD 3
/-- Bit U. -/
def u (p : Word) : Bool := p.getLsbD 4
/-- Bit A. -/
def a (p : Word) : Bool := p.getLsbD 5
/-- Bit D. -/
def d (p : Word) : Bool := p.getLsbD 6
/-- KIND. -/
def kind (p : Word) : MemKind := .ofCode (p.extractLsb' 7 2)
/-- STRIPED. -/
def striped (p : Word) : Bool := p.getLsbD 9
/-- SWLK. -/
def swlk (p : Word) : Bool := p.getLsbD 10
/-- FRAME, as a physical address. -/
def frame (p : Word) : Nat := (p.extractLsb' 15 33).toNat * 0x8000
/-- DEVID. -/
def devid (p : Word) : Nat := (p.extractLsb' 48 10).toNat
/-- A next-table pointer or a leaf: R, W or X set makes a leaf. -/
def leaf (p : Word) : Bool := p.extractLsb' 1 3 != 0

/-- The reserved bits 63 and 14 to 11 are 0. -/
def reservedZero (p : Word) : Bool := !p.getLsbD 63 && p.extractLsb' 11 4 == 0

/-- The kinds a leaf may have at a level (R87). -/
def kindAt (k : MemKind) (lvl : Nat) : Bool :=
  match k with
  | .global | .host => true
  | .vault => lvl == 2
  | .domain => lvl != 0

/-- The page size at a level, as a shift (R85). -/
def shift (lvl : Nat) : Nat := 39 - 12 * lvl

/-- Malformed (R87). -/
def malformed (p : Word) (lvl : Nat) : Bool :=
  !reservedZero p || (w p && !r p) ||
  (!leaf p && (lvl == 2 || p.extractLsb' 4 7 != 0 || devid p != 0)) ||
  (leaf p && (frame p % 2 ^ shift lvl != 0 || !kindAt (kind p) lvl
    || (kind p == .vault && !(inVault (frame p) || inSelf (frame p))))) ||
  (striped p && kind p != .global) ||
  (devid p != 0 && kind p != .domain) || (decide (900 ≤ devid p) && kind p == .domain)

end Pte

/-- The kind an access through a leaf is served as (R84, R89): a DOMAIN leaf that names this device counts
as the local kind of its physical address. -/
def servedKind (dev : Nat) (pte : Word) (pa : Nat) : MemKind :=
  if Pte.kind pte == .domain && Pte.devid pte == dev then
    if inGlobal pa then .global else if inVault pa then .vault else .domain
  else Pte.kind pte

/-- Whether a local physical address lies in the vault of a core, by the self window or its own range (R89). -/
def ownVault (core : Option Nat) (pa : Nat) : Bool :=
  match core with
  | none => false
  | some n => inSelf pa || (inVault pa && vaultCore pa == n)

/-- KindAccepted (R89). -/
def kindAccepted (cls : AccClass) (who : Who) (dev : Nat) (pte : Word) (pa : Nat) : Bool :=
  let k := servedKind dev pte pa
  match cls with
  | .plain => true
  | .ownVault => k == .vault && ownVault who.core pa
  | .scalarAtomic => k != .host
  | .vectorAtomic => k == .global || k == .domain
  | .gemvB => k == .global && Pte.striped pte
  | .area => k == .global || k == .vault
  | .fetch => k == .global || (k == .vault && ownVault who.core pa)

/-- The rights a leaf must give (R88): the first failure in the order of the walk. -/
def leafFault (cls : AccClass) (acc : Acc) (who : Who) (dev : Nat) (pte : Word) (pa : Nat) : Option Cause :=
  if who.level == .u && !Pte.u pte then some .pageProt
  else if acc == .read && !Pte.r pte then some .pageProt
  else if (acc == .write || acc == .rmw) && !Pte.w pte then some .pageProt
  else if acc == .fetch && !Pte.x pte then some .pageProt
  else if !kindAccepted cls who dev pte pa then some .pageKind
  else if who.core == none && Pte.kind pte == .vault && inSelf pa then some .pageKind
  else none

/-- The place that a leaf gives to a physical address, or the refusal of R84, or no place of R83. -/
def leafPlace (who : Who) (dev : Nat) (pte : Word) (pa : Nat) (va : Word) : Except Stop Place :=
  match Pte.kind pte with
  | .global => if inGlobal pa then .ok ⟨pa, .global, Pte.striped pte⟩ else .error (.noPlace pa)
  | .vault =>
    if inSelf pa then .ok ⟨vaultKey (who.core.getD 0) (pa - selfBase), .vault, false⟩ else .ok ⟨pa, .vault, false⟩
  | .host => .ok ⟨hostBase + pa, .host, false⟩
  | .domain =>
    if inGlobal pa || inVault pa then
      if Pte.devid pte == dev then .ok ⟨pa, if inGlobal pa then .global else .vault, false⟩
      else .ok ⟨deviceBase (Pte.devid pte) + pa, .domain, false⟩
    else .error (.trap .pageKind va)

/-- A leaf that a walk reached: where it lies, what it holds, and the shift of its page. -/
structure Leaf where
  key : Nat
  pte : Word
  shift : Nat
  deriving DecidableEq, Repr

/-- The physical address that a leaf gives to a virtual address. -/
def Leaf.pa (l : Leaf) (va : Word) : Nat := Pte.frame l.pte + va.toNat % 2 ^ l.shift

/-- The walk down from a table, with `fuel` levels left (R88): the first fault met decides. Each entry is read
from memory (R91); walkers keep no next-table entries (R92, log entry 66). -/
def State.walkFrom (va : Word) : Nat → Nat → Nat → State → State × Except Stop Leaf
  | 0, _, _, s => (s, .error (.trap .pageKind va))
  | fuel + 1, lvl, tbl, s =>
    let key := tbl + 8 * (va.toNat / 2 ^ Pte.shift lvl % 4096)
    if !inGlobal key then (s, .error (.noPlace key))
    else
      match s.read (keysFrom key 8) with
      | (s, none) => (s, .error .poison)
      | (s, some b) =>
        let pte := BitVec.ofNat 64 (leNat b)
        if !Pte.v pte then (s, .error (.trap .pageNp va))
        else if Pte.malformed pte lvl then (s, .error (.trap .pageKind va))
        else if !Pte.leaf pte then State.walkFrom va fuel (lvl + 1) (Pte.frame pte) s
        else (s, .ok ⟨key, pte, Pte.shift lvl⟩)

/-- The key of a context's descriptor (R82). -/
def State.descKey (s : State) (ctx : Nat) : Nat := (s.host.ctxtb.extractLsb' 16 32).toNat * 0x10000 + 16 * ctx

/-- CROOT of a context (R82). -/
def State.croot (s : State) (ctx : Nat) : Word := BitVec.ofNat 64 (s.num (s.descKey ctx) 8)

/-- The physical address of the top-level table in a CROOT (R82). -/
def rootIn (croot : Word) : Nat := (croot.extractLsb' 15 33).toNat * 0x8000

/-- The physical address of a context's top-level table (R82). -/
def State.rootOf (s : State) (ctx : Nat) : Nat := rootIn (s.croot ctx)

/-- CROOT and CFLAGS of a context, as a read of its descriptor gives them; none when it is poisoned (R82, R440). A CTBASE
that names a table outside HBM, of which the spec says nothing, is read as it stands (log entry 107). -/
def State.descriptor (s : State) (ctx : Nat) : State × Option (Word × Word) :=
  match s.read (keysFrom (s.descKey ctx) 16) with
  | (s, none) => (s, none)
  | (s, some b) => (s, some (BitVec.ofNat 64 (leNat (b.take 8)), BitVec.ofNat 64 (leNat (b.drop 8))))

/-- Walk the page table of a context from its root (R88). CTEN is not asked: it keeps contexts from being made resident
(R81), and a walk for one that is resident, for a loader or for SWAPPG goes on while it is 0 (log entry 92). -/
def State.walk (s : State) (ctx : Nat) (va : Word) : State × Except Stop Leaf :=
  match s.descriptor ctx with
  | (s, none) => (s, .error .poison)
  | (s, some d) => State.walkFrom va 3 0 (rootIn d.1) s

/-- The A and D bits that an access sets in a leaf (R90). -/
def Pte.touched (pte : Word) (acc : Acc) : Word :=
  pte ||| (if acc == .write || acc == .rmw then 0x60 else 0x20)

/-- Set A and D in a leaf before the access performs (R90). -/
def State.setAD (s : State) (l : Leaf) (acc : Acc) : State × Leaf :=
  let pte := Pte.touched l.pte acc
  (if pte = l.pte then s else s.putBack l.key 8 pte.toNat, { l with pte := pte })

/-! ## The TLBs (R91 to R93, R98) -/

/-- The second-level TLB, as a bank number. -/
def tlb2 : Nat := 16

/-- Whether an entry holds the translation of an address for a context. -/
def TlbEntry.maps (e : TlbEntry) (core bank ctx : Nat) (va : Word) : Bool :=
  e.core == core && e.bank == bank && e.ctx == ctx && va.toNat / 2 ^ e.shift == e.vpn

/-- The entry of a bank that maps an address. -/
def State.tlbFind (s : State) (core bank ctx : Nat) (va : Word) : Option TlbEntry :=
  s.tlb.find? (·.maps core bank ctx va)

/-- Keep an entry in its bank; a full bank gives up the entry that the free value names (R92, log entry 7). -/
def State.tlbFill (s : State) (e : TlbEntry) : State :=
  let cap := if e.bank == tlb2 then Config.tlb2Entries else Config.laneTlbEntries
  let same := s.tlb.filter fun x => x.core == e.core && x.bank == e.bank
  if same.length < cap then { s with tlb := e :: s.tlb }
  else
    match same[Config.tlbVictim s.fresh % cap]? with
    | none => s.tickFresh
    | some victim => { s.tickFresh with tlb := e :: s.tlb.filter (· != victim) }

/-- The entry that a leaf fills. -/
def Leaf.entry (l : Leaf) (core bank ctx : Nat) (va : Word) : TlbEntry :=
  ⟨core, bank, ctx, l.shift, va.toNat / 2 ^ l.shift, l.key, l.pte⟩

/-- Walk for an access and check its leaf; A and D are set only when neither faults (R88, R90). -/
def State.walkFor (s : State) (who : Who) (cls : AccClass) (acc : Acc) (va : Word) :
    State × Except Stop Leaf :=
  match s.walk who.ctx va with
  | (s, .error e) => (s, .error e)
  | (s, .ok l) =>
    match leafFault cls acc who s.dev l.pte (l.pa va) with
    | some c => (s, .error (.trap c va))
    | none => let r := s.setAD l acc; (r.1, .ok r.2)

/-- What an entry of a TLB needs before it carries a store (R90): the leaf in memory still holds, apart
from A, D and SW, the value the entry was filled from. -/
def TlbEntry.holds (e : TlbEntry) (pte : Word) : Bool := (pte ^^^ e.pte) &&& ~~~(0x7C00000000000060 : Word) == 0

/-- Replace an entry in every bank that holds it. -/
def State.tlbReplace (s : State) (e f : TlbEntry) : State :=
  { s with tlb := s.tlb.map fun x => if x == e then f else x }

/-- The leaf a TLB entry stands for. -/
def TlbEntry.leafOf (e : TlbEntry) : Leaf := ⟨e.leaf, e.pte, e.shift⟩

/-- Use an entry for an access: its D update where one is due, an atomic of the leaf at its home, which poison stops
(R440); none when the leaf has changed (R90). -/
def State.useEntry (s : State) (e : TlbEntry) (acc : Acc) : State × Except Stop (Option Leaf) :=
  if (acc == .write || acc == .rmw) && !Pte.d e.pte then
    match s.read (keysFrom e.leaf 8) with
    | (s, none) => (s, .error .poison)
    | (s, some b) =>
      let m := BitVec.ofNat 64 (leNat b)
      if e.holds m then
        let f := { e with pte := e.pte ||| 0x40 }
        ((s.putBack e.leaf 8 (m ||| 0x40).toNat).tlbReplace e f, .ok (some f.leafOf))
      else ({ s with tlb := s.tlb.filter (· != e) }, .ok none)
  else (s, .ok (some e.leafOf))

/-- The leaf for an access of a core through a bank (R93): the bank, then the second level, then a walk;
what a walk or the second level gives is kept in both. -/
def State.leafFor (s : State) (core bank : Nat) (who : Who) (cls : AccClass) (acc : Acc) (va : Word) :
    State × Except Stop Leaf :=
  let walkIt (s : State) : State × Except Stop Leaf :=
    match s.walkFor who cls acc va with
    | (s, .error e) => (s, .error e)
    | (s, .ok l) =>
      let s := s.tlbFill (l.entry core tlb2 who.ctx va)
      (if bank == tlb2 then s else s.tlbFill (l.entry core bank who.ctx va), .ok l)
  let checked (s : State) (l : Leaf) : State × Except Stop Leaf :=
    match leafFault cls acc who s.dev l.pte (l.pa va) with
    | some c => (s, .error (.trap c va))
    | none => (s, .ok l)
  let found := match s.tlbFind core bank who.ctx va with
    | some e => some e
    | none => s.tlbFind core tlb2 who.ctx va
  match found with
  | none => walkIt s
  | some e =>
    match leafFault cls acc who s.dev e.pte (e.leafOf.pa va) with
    | some c => (s, .error (.trap c va))
    | none =>
      match s.useEntry e acc with
      | (s, .error e) => (s, .error e)
      | (s, .ok none) => walkIt s
      | (s, .ok (some l)) =>
        let s := if e.bank == bank then s else s.tlbFill (l.entry core bank who.ctx va)
        checked s l

/-- Translate one address (R80, R88, R93): BOUNDS first, then the walk faults, then the refusal of a
remote device (R96). The place is that of the byte addressed. -/
def State.xlate (s : State) (bank : Nat) (who : Who) (cls : AccClass) (acc : Acc) (va : Word) :
    State × Except Stop Place :=
  if va.toNat / 2 ^ 51 != 0 then (s, .error (.trap .bounds va))
  else
    let r := match who.core with
      | some core => s.leafFor core bank who cls acc va
      | none => s.walkFor who cls acc va
    match r with
    | (s, .error e) => (s, .error e)
    | (s, .ok l) => (s, leafPlace who s.dev l.pte (l.pa va) va)

/-- Where the swap engine serves an access to a key (R101): the key, another frame's, or held. -/
def Swap.redirect (w : Swap) (write : Bool) (a : Nat) : Option Nat :=
  let go (f g : Nat) : Option Nat :=
    match w.blocks[(a - f) / 4096]? with
    | some .landed => some (a - f + g)
    | some .moving => if write then none else some a
    | _ => some a
  if w.frameA ≤ a ∧ a < w.frameA + 0x8000 then go w.frameA w.frameB
  else if w.frameB ≤ a ∧ a < w.frameB + 0x8000 then go w.frameB w.frameA
  else some a

/-- The key at which an access to a key is served, while swaps are in flight. -/
def State.redirect (s : State) (write : Bool) (a : Nat) : Option Nat :=
  s.swaps.foldl (fun k w => k.bind (w.redirect write)) (some a)

/-- The keys at which an access to some keys is served; none when it is held (R101). -/
def State.redirectAll (s : State) (write : Bool) (l : List Nat) : Option (List Nat) := l.mapM (s.redirect write)

/-- Whether an access writes. -/
def Acc.writes : Acc → Bool
  | .write | .rmw => true
  | _ => false

/-- A byte of an access, translated: the key that serves it, the kind it is served as, and the key that its
translation names, which the swap engine may have redirected (R101). -/
structure ByteAt where
  key : Nat
  kind : MemKind
  named : Nat
  deriving DecidableEq, Repr

/-- The bytes of `n` addresses from `va` that lie in its 32 KiB page, at a place translated once. -/
def placeBytes (s : State) (acc : Acc) (p : Place) (n : Nat) : Except Stop (List ByteAt) :=
  (List.range n).mapM fun i =>
    match s.redirect acc.writes (p.at_ i) with
    | none => .error .held
    | some k => .ok ⟨k, p.kind, p.at_ i⟩

/-- Translate `n` bytes from `va`, page by page in ascending order (R93, R95), with fuel for the pages: the
address of a fault is the lowest byte in the page that faults. -/
def State.xlateBytes (bank : Nat) (who : Who) (cls : AccClass) (acc : Acc) :
    Nat → State → Word → Nat → State × Except Stop (List ByteAt)
  | 0, s, _, _ => (s, .ok [])
  | fuel + 1, s, va, n =>
    if n = 0 then (s, .ok [])
    else
      let here := min n (0x8000 - va.toNat % 0x8000)
      match s.xlate bank who cls acc va with
      | (s, .error e) => (s, .error e)
      | (s, .ok p) =>
        match placeBytes s acc p here with
        | .error e => (s, .error e)
        | .ok l =>
          match State.xlateBytes bank who cls acc fuel s (va + BitVec.ofNat 64 here) (n - here) with
          | (s, .error e) => (s, .error e)
          | (s, .ok m) => (s, .ok (l ++ m))

/-- Translate `n` bytes from `va` for the thread whose turn it is, through the second-level TLB. -/
def State.span (s : State) (cls : AccClass) (acc : Acc) (va : Word) (n : Nat) :
    State × Except Stop (List ByteAt) :=
  State.xlateBytes tlb2 s.who cls acc (n / 0x8000 + 2) s va n

/-- Read the bytes of an access: poison stops it (R440). -/
def State.load (s : State) (l : List ByteAt) : State × Except Stop (List Byte) :=
  match s.read (l.map (·.key)) with
  | (s, none) => (s, .error .poison)
  | (s, some b) => (s, .ok b)

/-- Write bytes at the bytes of an access; a core's own scalar data cache loses the lines (R196). -/
def State.store (s : State) (core : Nat) (l : List ByteAt) (b : List Byte) : State :=
  (s.write ((l.map (·.key)).zip b)).dropLines core (l.map (·.key))

/-! ## Addresses that no core makes -/

/-- An access of `n` bytes within one page by no core (R83): a loader, or a counter of a queue. -/
def State.placeOf (s : State) (ctx : Nat) (level : Level) (cls : AccClass) (acc : Acc) (va : Word) (n : Nat) :
    State × Except Stop (List ByteAt) :=
  State.xlateBytes tlb2 ⟨none, ctx, level⟩ cls acc (n / 0x8000 + 2) s va n

end Sys2Proof.Machine
end

