-- ==== Sys2Proof/Machine/Operands.lean ====
section
/-! DEFINITION. Operand forms: the fields of VTYPE, elements of register groups and of mask registers
(R46, R52, R106, R134), immediates (R44), and loops over the elements of a window. -/

namespace Sys2Proof.Machine

/-! ## VTYPE (R52, R53) -/

/-- VTYPE after an illegal request (R53). -/
def vtypeIll : Word := 0x8000000000000000

namespace Vtype

/-- VILL. -/
def vill (t : Word) : Bool := t.getLsbD 63
/-- SLC. -/
def slc (t : Word) : Nat := (t.extractLsb' 6 4).toNat
/-- GM, the registers of a group. -/
def gm (t : Word) : Nat := 2 ^ (t.extractLsb' 4 2).toNat
/-- FLT. -/
def flt (t : Word) : Bool := t.getLsbD 3
/-- The code of SEW. -/
def sewCode (t : Word) : Nat := (t.extractLsb' 0 3).toNat
/-- SEW in bits. -/
def sew (t : Word) : Nat :=
  match sewCode t with
  | 0 => 4
  | 1 => 6
  | 2 => 8
  | 3 => 16
  | 4 => 32
  | _ => 64

/-- The container width c of a SEW (R106). -/
def containerOf (sew : Nat) : Nat := if sew = 6 then 8 else sew

/-- The container width c (R106). -/
def c (t : Word) : Nat := containerOf (sew t)

/-- The elements that a group holds: VLMAX is at most 4,096 of them (R285). -/
def vlmax (t : Word) : Nat := gm t * 16384 / c t

/-- The elements of an element group, at a container width (R240). -/
def groupOf (c : Nat) : Nat := 2048 / c

/-- A requested VTYPE is legal (R53). -/
def legal (t : Word) : Bool :=
  decide (sewCode t ≤ 5) && (!flt t || sewCode t == 3 || sewCode t == 4)
    && (slc t == 0 || slc t == 6 || slc t == 7 || slc t == 8)
    && (slc t == 0 || (sewCode t == 5 && !flt t)) && t.extractLsb' 10 53 == 0 && !vill t

/-- The floating format of the registers: BF16 at 16 bits, FP32 at 32 (R53, R137). -/
def fmt (t : Word) : Fmt := if sew t == 16 then .bf16 else .fp32

end Vtype

/-! ## Elements -/

/-- A bit field of a wide word. -/
def field {n : Nat} (x : BitVec n) (off w : Nat) : Nat := (x.extractLsb' off w).toNat

/-- A wide word with a bit field replaced. -/
def setField {n : Nat} (x : BitVec n) (off w v : Nat) : BitVec n :=
  let m := BitVec.ofNat n ((2 ^ w - 1) * 2 ^ off)
  (x &&& ~~~m) ||| BitVec.ofNat n (v % 2 ^ w * 2 ^ off)

/-- Element e of the group at a register, in containers of w bits (R106). -/
def LCore.elem (c : LCore) (r w e : Nat) : Nat := field (c.vreg (r + e * w / 16384)) (e * w % 16384) w

/-- Write element e of the group at a register, in containers of w bits. -/
def LCore.setElem (c : LCore) (r w e v : Nat) : LCore :=
  let n := r + e * w / 16384
  let off := e * w % 16384
  c.setVreg n (setField (c.vreg n) off w v) ((off + w - 1) / 128 + 1)

/-- The value of element e at a SEW; at SEW 6 bits [7:6] are ignored (R134). -/
def LCore.val (c : LCore) (r sew e : Nat) : Nat := c.elem r (Vtype.containerOf sew) e % 2 ^ sew

/-- Write the value of element e at a SEW; at SEW 6 bits [7:6] become copies of bit [5] (R134). -/
def LCore.setVal (c : LCore) (r sew e v : Nat) : LCore :=
  c.setElem r (Vtype.containerOf sew) e (if sew = 6 then wrap 8 (signedOf 6 v) else v)

/-- Bit e of a mask register by its field value. -/
def LCore.kbit (c : LCore) (n e : Nat) : Bool := (c.kreg n).getLsbD e

/-- Write bit e of a mask register. -/
def LCore.setKbit (c : LCore) (n e : Nat) (b : Bool) : LCore :=
  c.setKreg n (setField (c.kreg n) e 1 (if b then 1 else 0)) (e / 128 + 1)

/-- Active(e) (R7): the instruction is not masked, or bit e of k0 is 1. -/
def LCore.active (c : LCore) (m : Bool) (e : Nat) : Bool := !m || c.kbit 0 e

/-- The numbers from lo to hi − 1, ascending. -/
def rangeFrom (lo hi : Nat) : List Nat := (List.range (hi - lo)).map (lo + ·)

/-- Apply a function to the logical core for each active element of a window, in ascending order. -/
def LCore.forActive (c : LCore) (w : Window) (m : Bool) (f : LCore → Nat → LCore) : LCore :=
  (rangeFrom w.lo w.hi).foldl (fun c e => if c.active m e then f c e else c) c

/-- The active elements of a window. -/
def LCore.activeIn (c : LCore) (m : Bool) (lo hi : Nat) : List Nat := (rangeFrom lo hi).filter (c.active m)

/-! ## Immediates (R44) -/

/-- An immediate of 15 bits, sign-extended. -/
def imm15 (x : BitVec 15) : Word := x.signExtend 64

/-- A word count of 15 bits as a byte offset. -/
def off15 (x : BitVec 15) : Word := x.signExtend 64 * 4

/-- A word count of 20 bits as a byte offset. -/
def off20 (x : BitVec 20) : Word := x.signExtend 64 * 4

/-- SignExt(imm20) << 15 (R31, R256). -/
def upper20 (x : BitVec 20) : Word := x.signExtend 64 <<< 15

end Sys2Proof.Machine
end

