-- ==== Sys2Proof/Machine/Flags.lean ====
section
/-! DEFINITION. Flags and marks: FFLAGS is sticky (R142), marks set bits of the register that SATK names
(R139, R140). -/

namespace Sys2Proof.Machine

/-- SATK.EN. -/
def satkEn (s : BitVec 4) : Bool := s.getLsbD 3

/-- SATK.K. -/
def satkReg (s : BitVec 4) : Nat := (s.extractLsb' 0 3).toNat

/-- Mark element e under a SATK (R140): its bit is set, never cleared. -/
def LCore.markWith (c : LCore) (satk : BitVec 4) (e : Nat) : LCore :=
  if satkEn satk then c.setKbit (satkReg satk) e true else c

/-- Mark element e when a conversion says so. -/
def LCore.markIf (c : LCore) (b : Bool) (e : Nat) : LCore := if b then c.markWith c.satk e else c

/-- Write a floating result to element e, with its flags. -/
def LCore.putFp (c : LCore) (r sew e : Nat) (x : Nat × BitVec 5) : LCore := (c.setVal r sew e x.1).raise x.2

/-- Write a narrowed result to element e, with its flags and mark (R138). -/
def LCore.putNarrowed (c : LCore) (r sew e : Nat) (x : Narrowed) : LCore :=
  ((c.setVal r sew e x.code).raise x.flags).markIf x.mark e

end Sys2Proof.Machine
end

