-- ==== Sys2Proof/Machine/Formats.lean ====
section
/-! DEFINITION. Memory formats (R127 to R138): widths, alignments and places of elements, conversion
in the memory pipe, and the blocks of E2M1B. -/

namespace Sys2Proof.Machine

/-- The memory formats (R50). -/
inductive MemFmt
  | raw | i8 | n8 | i16 | n16 | i4 | n4 | i6 | n6 | e4m3 | e5m2 | e3m2 | e2m3 | e2m1b | bf16 | fp16
  deriving DecidableEq, Repr

/-- The format of a code (R50). -/
def MemFmt.ofCode (b : BitVec 4) : MemFmt :=
  match b.toNat with
  | 0 => .raw
  | 1 => .i8
  | 2 => .n8
  | 3 => .i16
  | 4 => .n16
  | 5 => .i4
  | 6 => .n4
  | 7 => .i6
  | 8 => .n6
  | 9 => .e4m3
  | 10 => .e5m2
  | 11 => .e3m2
  | 12 => .e2m3
  | 13 => .e2m1b
  | 14 => .bf16
  | _ => .fp16

namespace MemFmt

/-- The memory width w in bits (R110); E2M1B has none. -/
def width (f : MemFmt) (sew : Nat) : Nat :=
  match f with
  | .raw => sew
  | .i8 | .n8 | .e4m3 | .e5m2 => 8
  | .i16 | .n16 | .bf16 | .fp16 => 16
  | .i4 | .n4 => 4
  | .i6 | .n6 | .e3m2 | .e2m3 => 6
  | .e2m1b => 0

/-- An integer format, and whether it is signed (R127). -/
def int? : MemFmt → Option Bool
  | .i4 | .i6 | .i8 | .i16 => some true
  | .n4 | .n6 | .n8 | .n16 => some false
  | _ => none

/-- The floating format of a code that has one per element (R129). -/
def float? : MemFmt → Option Fmt
  | .e4m3 => some .e4m3
  | .e5m2 => some .e5m2
  | .e3m2 => some .e3m2
  | .e2m3 => some .e2m3
  | .bf16 => some .bf16
  | .fp16 => some .fp16
  | _ => none

/-- VTYPE accepts the format (R137). -/
def accepts (f : MemFmt) (t : Word) : Bool :=
  !Vtype.vill t &&
  match f with
  | .raw => true
  | .e2m1b | .e4m3 | .e5m2 | .e3m2 | .e2m3 | .bf16 | .fp16 => Vtype.flt t
  | _ => !Vtype.flt t && decide (f.width 0 ≤ Vtype.sew t)

/-- Whether the elements are denser than bytes in memory: 4- and 6-bit widths (R134). -/
def dense (f : MemFmt) (sew : Nat) : Bool := f.width sew == 4 || f.width sew == 6

/-- The base alignment in bytes (R136). -/
def align (f : MemFmt) (sew : Nat) : Nat :=
  if f == .e2m1b then 2 else if f.dense sew then 1 else f.width sew / 8

/-- The bytes of an element from the base that a fault tests, as runs of offset and length (R134, R136). -/
def runs (f : MemFmt) (sew e : Nat) (load : Bool) : List (Nat × Nat) :=
  if f == .e2m1b then
    if load then [(18 * (e / 32) + e % 32 / 2, 1), (18 * (e / 32) + 16, 2)] else [(18 * (e / 32), 18)]
  else if f.width sew = 4 then [(e / 2, 1)]
  else if f.width sew = 6 then [(e / 4 * 3, 3)]
  else [(e * (f.width sew / 8), f.width sew / 8)]

/-- The bit at which an element starts in its bytes (R134). -/
def bitIn (f : MemFmt) (sew e : Nat) : Nat :=
  if f.width sew = 4 then 4 * (e % 2) else if f.width sew = 6 then 6 * (e % 4) else 0

/-- The bytes that the written elements of a group, each the bit at which it starts and its bytes, replace entirely
(R135): in a format denser than bytes, those whose byte, or group of 3 bytes, has all its elements among them. -/
def wholeKeys (f : MemFmt) (sew : Nat) (l : List (Nat × List Nat)) : List Nat :=
  let keys (l : List (Nat × List Nat)) : List Nat := l.flatMap (·.2)
  if f.dense sew then (keys l).filter fun k => decide ((if f.width sew = 4 then 2 else 4) ≤ (keys l.eraseDups).count k)
  else keys l

/-- Convert the memory bits of an element to its register value (R137). -/
def toReg (f : MemFmt) (t : Word) (rm : BitVec 2) (bits : Nat) : Nat × BitVec 5 :=
  let sew := Vtype.sew t
  let w := f.width sew
  match f.int?, f.float? with
  | some true, _ => (wrap sew (signedOf w bits), 0)
  | some false, _ => (bits % 2 ^ w, 0)
  | _, some g => (Vtype.fmt t).ofVal (g.decode (bits % 2 ^ w)) rm
  | _, _ => (bits % 2 ^ sew, 0)

/-- Saturate an integer to a format (R138): the mark says that it did. -/
def saturate (signed : Bool) (w : Nat) (x : Int) : Narrowed :=
  if intMax signed w < x then ⟨wrap w (intMax signed w), 0, true⟩
  else if x < intMin signed w then ⟨wrap w (intMin signed w), 0, true⟩
  else ⟨wrap w x, 0, false⟩

/-- Convert a register value to the memory bits of an element (R137, R138). -/
def ofReg (f : MemFmt) (t : Word) (rm : BitVec 2) (v : Nat) : Narrowed :=
  let sew := Vtype.sew t
  match f.int?, f.float? with
  | some true, _ => saturate true (f.width sew) (signedOf sew v)
  | some false, _ => saturate false (f.width sew) (v % 2 ^ sew : Nat)
  | _, some g => if f == .bf16 && sew == 16 then ⟨v % 2 ^ 16, 0, false⟩ else g.narrow ((Vtype.fmt t).decode v) rm
  | _, _ => ⟨v % 2 ^ sew, 0, false⟩

/-- A store in the format can mark (R140). -/
def canMark (f : MemFmt) (t : Word) : Bool :=
  match f with
  | .raw => false
  | .bf16 => Vtype.sew t != 16
  | .e2m1b | .e4m3 | .e5m2 | .e3m2 | .e2m3 | .fp16 => true
  | _ => f.width 0 != Vtype.sew t

end MemFmt

/-! ## E2M1B (R132, R133) -/

/-- A value times 2^k. -/
def FVal.scale (v : FVal) (k : Int) : FVal :=
  match v with
  | .fin n m e => .fin n m (e + k)
  | x => x

/-- An element of a block, from its code, scale and special byte (R132). -/
def e2m1bVal (code scale special : Nat) : FVal :=
  if scale = 255 then .nan
  else if code = 0 then .zero
  else if code = 8 then (Fmt.e4m3.decode (special % 128)).scale (scale - 127 : Int)
  else (Fmt.e2m1.decode code).scale (scale - 127 : Int)

/-- An element of a block of 18 bytes. -/
def blockVal (b : List Byte) (j : Nat) : FVal :=
  e2m1bVal ((b.getD (j / 2) 0).toNat / 16 ^ (j % 2) % 16) (b.getD 16 0).toNat (b.getD 17 0).toNat

/-- The magnitude of a value. -/
def FVal.abs : FVal → FVal
  | .nan => .nan
  | .inf _ => .inf false
  | .fin _ m e => .fin false m e

/-- The greatest of some values, none of them a NaN; 0 when there is none. -/
def maxVal (l : List FVal) : FVal := l.foldl (fun a b => if a.lt b then b else a) .zero

/-- The smallest k with a ≤ 6·2^k, for a finite a above 0 (R133). -/
def blockExp (a : FVal) : Int :=
  match a.top? with
  | none => 0
  | some t => if (FVal.fin false 3 (t - 1)).lt a then t - 1 else t - 2

/-- The ordinary values with their codes (R131, R133). -/
def ordinary : List (FVal × Nat) :=
  ((List.range 8).map fun c => (Fmt.e2m1.decode c, c)) ++ ((List.range 7).map fun c => (Fmt.e2m1.decode (c + 9), c + 9))

/-- The candidates of R133: the ordinary values, and V under code 8 when it is above 0 and none of them:
where V equals one of them the two codes have one value, and the ordinary one is stored (log entry 79). -/
def blockSet (V : FVal) : List (FVal × Nat) :=
  if FVal.zero.lt V && !ordinary.any (fun c => c.1.eq V) then ordinary ++ [(V, 8)] else ordinary

/-- Round a value to the candidates under a mode (R133): the code, and whether it is inexact. -/
def roundSet (set : List (FVal × Nat)) (y : FVal) (rm : BitVec 2) : Nat × Bool :=
  match set.find? (fun c => c.1.eq y) with
  | some c => (c.2, false)
  | none =>
    let lo := (set.filter fun c => c.1.lt y).foldl (fun a b => if a.1.lt b.1 then b else a) (.inf true, 0xF)
    let hi := (set.filter fun c => y.lt c.1).foldl (fun a b => if b.1.lt a.1 then b else a) (.inf false, 7)
    let mid := (lo.1.add hi.1 rne).1
    let twice := (y.add y rne).1
    let pick := match rm.toNat with
      | 1 => if y.isNeg then hi else lo
      | 2 => lo
      | 3 => hi
      | _ =>
        if twice.lt mid then lo else if mid.lt twice then hi
        else if lo.2 = 8 then hi else if hi.2 = 8 then lo
        else if lo.2 % 2 = 0 then lo else hi
    (pick.2, true)

/-- A block encoded: its 18 bytes, and for each element its flags and whether it is marked. -/
structure Block where
  bytes : List Byte
  flags : List (BitVec 5)
  marks : List Bool
  deriving DecidableEq, Repr

/-- Pack 32 codes of 4 bits into 16 bytes (R132). -/
def packCodes (codes : List Nat) : List Byte :=
  (List.range 16).map fun i => BitVec.ofNat 8 (codes.getD (2 * i) 0 + 16 * codes.getD (2 * i + 1) 0)

/-- EncodeBlock (R133), on the values of the 32 elements, none where an element is not active. -/
def encodeBlock (x : List (Option FVal)) (rm : BitVec 2) : Block :=
  let vals := x.filterMap id
  if vals.any FVal.isNan then
    ⟨packCodes [] ++ [0xFF, 0], x.map fun _ => 0, x.map Option.isSome⟩
  else
    let a := maxVal (vals.map FVal.abs)
    let s : Int :=
      if a.eq .zero then 127
      else match a with
        | .inf _ => 254
        | _ => min (max (blockExp a + 127) 0) 254
    let p := (maxVal vals).scale (127 - s)
    let p448 := if (FVal.fin false 448 0).lt p then FVal.fin false 448 0 else p
    let special := if p.eq .zero then 0 else (Fmt.e4m3.ofVal p448 rm).1 % 128
    let V := Fmt.e4m3.decode special
    let top := if (FVal.fin false 6 0).lt V then V else FVal.fin false 6 0
    let set := blockSet V
    let one (v : Option FVal) : Nat × BitVec 5 × Bool :=
      match v with
      | none => (0, 0, false)
      | some v =>
        let y := v.scale (127 - s)
        if top.lt y then (if (FVal.fin false 6 0).lt V then 8 else 7, fOF ||| fNX, true)
        else if y.lt (.fin true 6 0) then (15, fOF ||| fNX, true)
        else
          let r := roundSet set y rm
          (r.1, if r.2 then fNX else 0, false)
    let r := x.map one
    ⟨packCodes (r.map (·.1)) ++ [BitVec.ofInt 8 s, BitVec.ofNat 8 special], r.map (·.2.1), r.map (·.2.2)⟩

end Sys2Proof.Machine
end

