-- ==== Sys2Proof/Machine/VMem.lean ====
section
/-! DEFINITION. The vector memory instructions, shared parts (R155 to R172): element addresses of each
mode, shape records, the probe of an access, cluster-span packets, and what loads and stores do in a window. -/

namespace Sys2Proof.Machine

/-! ## Shape records (R28, R161 to R163) -/

/-- The shape record in a vector register, read as 64-bit elements, in the layout of `.shape` (R28, R161): e0 the base,
e1 rank, format and flags, e2 to e6 the extents, e7 to e11 the strides, e12 to e16 the starts. -/
def LCore.shape (c : LCore) (r : Nat) : Shape :=
  let e (i : Nat) : Word := BitVec.ofNat 64 (c.elem r 64 i)
  let five (i : Nat) : List Word := (List.range 5).map fun k => e (i + k)
  ⟨e 0, e 1, five 2, five 7, five 12⟩

namespace Shape

/-- The rank. -/
def rank (x : Shape) : Nat := (x.e1.extractLsb' 0 8).toNat
/-- The format code, of which 0 to 15 name a format. -/
def fmtCode (x : Shape) : Nat := (x.e1.extractLsb' 8 8).toNat
/-- The format. -/
def fmt (x : Shape) : MemFmt := .ofCode (BitVec.ofNat 4 x.fmtCode)
/-- The flags (R161). -/
def flags (x : Shape) : BitVec 16 := x.e1.extractLsb' 16 16
/-- DIR: 1 for a write stream. -/
def dir (x : Shape) : Bool := x.flags.getLsbD 7
/-- CMK. -/
def cmk (x : Shape) : Nat := (x.flags.extractLsb' 4 3).toNat
/-- CMEN. -/
def cmen (x : Shape) : Bool := x.flags.getLsbD 3
/-- FILL. -/
def fill (x : Shape) : Nat := (x.flags.extractLsb' 0 2).toNat
/-- Extent k. -/
def ext' (x : Shape) (k : Nat) : Nat := (x.ext.getD k 1).toNat
/-- Start k, signed. -/
def start' (x : Shape) (k : Nat) : Int := (x.start.getD k 0).toInt
/-- Stride k. -/
def stride' (x : Shape) (k : Nat) : Word := x.stride.getD k 0

/-- The packing unit of a format at a SEW (R162). -/
def unit (f : MemFmt) (sew : Nat) : Nat :=
  if f == .e2m1b then 32 else if f.width sew = 4 then 2 else if f.width sew = 6 then 4 else 1

/-- Malformed (R162). -/
def malformed (x : Shape) (sew : Nat) : Bool :=
  let r := x.rank
  let u := unit x.fmt sew
  (r == 0 || decide (5 < r)) || x.e1.extractLsb' 32 32 != 0 || x.flags.extractLsb' 8 8 != 0 || x.fill == 3
    || (List.range r).any (fun k => decide (2 ^ 32 ≤ x.ext' k))
    || (decide (x.fmtCode < 16) && (x.ext' 0 % u != 0 || x.start' 0 % (u : Int) != 0))
    || (x.fmtCode == 13 && decide (1 < r))

/-- The start coordinates that a stream accepts (R203): 32-bit signed. -/
def startsFit (x : Shape) : Bool :=
  (List.range 5).all fun k => decide (-(2 ^ 31 : Int) ≤ x.start' k) && decide (x.start' k < 2 ^ 31)

/-- Its format is accepted by a VTYPE (R137); a code above 15 names no format (log entry 16). -/
def accepted (x : Shape) (t : Word) : Bool := decide (x.fmtCode < 16) && x.fmt.accepts t

/-- P, the points of the walk (R163). -/
def points (x : Shape) : Nat := ((List.range x.rank).map x.ext').foldl (· * ·) 1

/-- The coordinates i[k] of a point (R163). -/
def coords (x : Shape) : List Nat → Nat → List Int
  | [], _ => []
  | k :: ks, q => ((q % x.ext' k : Nat) + x.start' k) :: coords x ks (q / x.ext' k)

/-- Whether a point is in range. -/
def inRange (x : Shape) (i : List Int) : Bool :=
  i.zipIdx.all fun p => decide (0 ≤ p.1) && decide (p.1 < x.ext' p.2)

end Shape

/-! ## Element addresses -/

/-- An element of an access: its address, the address of the row that it lies in (R163), the runs of bytes it
covers, and the bit at which it starts. -/
structure ElemAt where
  addr : Word
  row : Word
  runs : List (Word × Nat)
  bit : Nat
  deriving DecidableEq, Repr

/-- Element e of a unit-stride layout from a base (R132, R134, R156): in E2M1B its address is its block's. -/
def unitElem (f : MemFmt) (sew : Nat) (load : Bool) (base : Word) (e : Nat) : ElemAt :=
  let runs := (f.runs sew e load).map fun r => (base + BitVec.ofNat 64 r.1, r.2)
  ⟨if f == .e2m1b then base + BitVec.ofNat 64 (18 * (e / 32)) else (runs.headD (base, 0)).1, base, runs, f.bitIn sew e⟩

/-- An element of w/8 bytes at an address, in a row of its own or a row of a record. -/
def plainElem (w : Nat) (addr row : Word) : ElemAt := ⟨addr, row, [(addr, w / 8)], 0⟩

/-- A point of a shape record's walk (R163): none when it is out of range. -/
def Shape.elemAt (x : Shape) (sew : Nat) (load : Bool) (base : Word) (e : Nat) : Option ElemAt :=
  let i := x.coords (List.range x.rank) e
  if !x.inRange i then none
  else
    let row := (List.range x.rank).foldl (fun a k =>
      if k = 0 then a else a + BitVec.ofInt 64 (i.getD k 0) * x.stride' k) (base + x.e0)
    let i0 := (i.getD 0 0).toNat
    if x.fmt.dense sew || x.fmt == .e2m1b then some (unitElem x.fmt sew load row i0)
    else some (plainElem (x.fmt.width sew) (row + BitVec.ofNat 64 i0 * x.stride' 0) row)

/-- The addressing of a vector memory instruction (R156). -/
inductive Mode
  | unit
  | strided (stride : Word)
  | indexed (x : Nat)
  | shape (x : Shape)
  deriving DecidableEq, Repr

/-- What a vector memory instruction does with memory. -/
structure VMemOp where
  fmt : MemFmt
  mode : Mode
  base : Word
  load : Bool
  acc : Acc
  cls : AccClass
  m : Bool
  d : Nat
  vertical : Bool
  ff : Bool
  deriving DecidableEq, Repr

/-- Element e's address under an instruction's mode; none when it is out of range of a record. -/
def VMemOp.elemAt (o : VMemOp) (c : LCore) (e : Nat) : Option ElemAt :=
  let sew := Vtype.sew c.vtype
  match o.mode with
  | .unit => some (unitElem o.fmt sew o.load o.base e)
  | .strided st => let a := o.base + BitVec.ofNat 64 e * st; some (plainElem (o.fmt.width sew) a a)
  | .indexed x => let a := o.base + BitVec.ofNat 64 (c.val x sew e); some (plainElem (o.fmt.width sew) a a)
  | .shape x => x.elemAt sew o.load o.base e

/-- Whether element addresses come from an index register. -/
def Mode.isIndexed : Mode → Bool
  | .indexed _ => true
  | _ => false

/-- The lane of element e, whose bank an indexed access uses (R93, R106). -/
def laneOf (c e : Nat) : Nat := e * c / 128 % 16

/-- Translate the runs of an element, in order. -/
def State.xlateRuns (bank : Nat) (who : Who) (cls : AccClass) (acc : Acc) :
    List (Word × Nat) → State → State × Except Stop (List ByteAt)
  | [], s => (s, .ok [])
  | r :: rs, s =>
    match State.xlateBytes bank who cls acc (r.2 / 0x8000 + 2) s r.1 r.2 with
    | (s, .error e) => (s, .error e)
    | (s, .ok l) =>
      match State.xlateRuns bank who cls acc rs s with
      | (s, .error e) => (s, .error e)
      | (s, .ok m) => (s, .ok (l ++ m))

/-- An element fails the MISALIGN step: its address (R157), the row of its record (R163), or the base of a
vertical access (R110) is not a multiple of the alignment. -/
def ElemAt.misaligned (x : ElemAt) (align : Nat) : Bool := x.addr.toNat % align != 0 || x.row.toNat % align != 0

/-- Check and translate one element, in the order of R96: BOUNDS, MISALIGN, the walk. -/
def VMemOp.probeElem (o : VMemOp) (s : State) (who : Who) (sew c e : Nat) (x : ElemAt) :
    State × Except Stop (List ByteAt) :=
  if x.addr.toNat / 2 ^ 51 != 0 then (s, .error (.trap .bounds x.addr))
  else if x.misaligned (o.fmt.align sew) || (o.vertical && o.base.toNat % 256 != 0) then
    (s, .error (.trap .misalign x.addr))
  else
    State.xlateRuns (if o.mode.isIndexed then laneOf c e else tlb2) who o.cls o.acc x.runs s

/-- What a probe found: the places of the elements that translate, and the lowest element that does not. -/
structure Probe where
  places : List (Nat × List ByteAt)
  stop : Option (Nat × Stop)
  deriving DecidableEq, Repr

/-- Probe active elements in ascending order (R93 to R95). An indexed access probes them all; any other
stops at the first fault; poison that a walk of it meets counts wherever it is (R440). Elements out of range of a
record are passed over. -/
def VMemOp.probe (o : VMemOp) (c : LCore) (who : Who) : List Nat → State → State × Probe
  | [], s => (s, ⟨[], none⟩)
  | e :: es, s =>
    match o.elemAt c e with
    | none => o.probe c who es s
    | some x =>
      match o.probeElem s who (Vtype.sew c.vtype) (Vtype.c c.vtype) e x with
      | (s, .error st) =>
        if o.mode.isIndexed then
          let r := o.probe c who es s
          (r.1, ⟨[], some (e, if r.2.stop.any (·.2 == .poison) then .poison else st)⟩)
        else (s, ⟨[], some (e, st)⟩)
      | (s, .ok l) =>
        let r := o.probe c who es s
        (r.1, ⟨(e, l) :: r.2.places, r.2.stop⟩)

/-! ## Cluster-span accesses (R116 to R118) -/

/-- Whether a key lies in a visible vault of a core's cluster (R116). -/
def inCluster (core a : Nat) : Bool := decide (a < hostBase) && inVault a && vaultCore a / 4 == core / 4

/-- Whether an indexed access is a cluster-span access: every active element reaches kind VAULT in the
cluster (R116). -/
def Probe.span (p : Probe) (core : Nat) : Bool :=
  p.stop.isNone && !p.places.isEmpty && p.places.all fun x => x.2.all fun b => b.kind == .vault && inCluster core b.named

/-- The elements of one owner, with their vault offsets as translated (R117): the owner redirects (R101). -/
def Probe.owned (p : Probe) (n : Nat) : List (Nat × Nat) :=
  (p.places.filter fun x => (x.2.head?.map fun b => vaultCore b.named) == some n).map fun x =>
    (x.1, ((x.2.head?.map (·.named)).getD 0 - vaultKey n 0))

/-- Split a list into pieces of at most n, with fuel. -/
def chunks {α : Type} (n : Nat) : Nat → List α → List (List α)
  | 0, _ => []
  | fuel + 1, l => if l.isEmpty then [] else l.take n :: chunks n fuel (l.drop n)

/-- The places of the elements of each element group (R240). -/
def groupPlaces {α : Type} (g : Nat) (places : List (Nat × α)) : List (List (Nat × α)) :=
  ((places.map (·.1 / g)).eraseDups).map fun n => places.filter (·.1 / g == n)

/-- Element groups in packets of at most n elements, in order: a group fits one packet and is not split, so that its
owner merges its accesses (R117, R120, log entry 68). -/
def packGroups {α : Type} (n : Nat) (gs : List (List α)) : List (List α) :=
  gs.foldl (fun ps g =>
    match ps.getLast? with
    | some p => if p.length + g.length ≤ n then ps.dropLast ++ [p ++ g] else ps ++ [g]
    | none => [g]) []

/-- The elements that fit a payload of 2,048 bytes (R114, R117): 4 bytes each, and the data of a scatter. A
gather is split so that both its request and its response fit (log entry 68). -/
def spanRoom (scatter : Bool) (width : Nat) : Nat := 2048 / (if scatter then 4 + width else max 4 width)

/-- The packets of a cluster-span access, numbered from `next`; `g` is the number of elements of a group (R117). -/
def Probe.packets (p : Probe) (thr core next width g : Nat) (scatter : Bool) (data : Nat → List Byte) :
    List SpanPacket :=
  let owners := (List.range 4).map (core / 4 * 4 + ·)
  let parts := owners.flatMap fun n => (packGroups (spanRoom scatter width) (groupPlaces g (p.owned n))).map fun l => (n, l)
  parts.zipIdx.map fun x =>
    { id := next + x.2, thr := thr, owner := x.1.1, scatter := scatter, response := false, width := width,
      elems := x.1.2, data := if scatter then x.1.2.map fun e => data e.1 else [] }

/-- The keys of the elements of a packet, as the swap engine redirects them; none when it holds one (R101). -/
def State.packetKeys (s : State) (x : SpanPacket) : Option (List (List Nat)) :=
  x.elems.mapM fun e => s.redirectAll x.scatter (keysFrom (vaultKey x.owner e.2) x.width)

/-- A packet goes before another of its core to the same owner: it was sent first (R113), and the other's thread has not
the higher priority, by which its turn would come first at the port (R114). -/
def State.sentAhead (s : State) (y x : SpanPacket) : Bool :=
  !y.response && y.thr / 4 == x.thr / 4 && y.owner == x.owner && decide (y.id < x.id)
    && !decide ((s.thr y.thr).lc.job.prio < (s.thr x.thr).lc.job.prio)

/-- A packet must wait for another (R113, R114). -/
def State.behind (s : State) (x : SpanPacket) : Bool := s.packets.any (s.sentAhead · x)

/-- The swap engine holds a packet, or one that goes before it (R101, R113). -/
def State.heldUp (s : State) (x : SpanPacket) : Bool :=
  !x.response && ((s.packetKeys x).isNone || s.packets.any fun y => s.sentAhead y x && (s.packetKeys y).isNone)

/-- The lowest element of the packets that a thread still has under way, when the swap engine holds all of them up. -/
def State.heldElem (s : State) (thr : Nat) : Option Nat :=
  let ps := s.packets.filter (·.thr == thr)
  if ps.all s.heldUp then (ps.flatMap fun x => x.elems.map (·.1)).min? else none

/-! ## Loads and stores in a window -/

/-- The value that FILL gives an element out of range (R161). -/
def fillValue (x : Shape) (t : Word) : Nat :=
  match x.fill with
  | 1 => 2 ^ Vtype.sew t - 1
  | 2 => if Vtype.flt t then (Vtype.fmt t).nanCode else 0
  | _ => 0

/-- The register value of an element from the bytes of its runs (R132, R134, R137). -/
def VMemOp.ofBytes (o : VMemOp) (c : LCore) (bit : Nat) (b : List Byte) : Nat × BitVec 5 :=
  if o.fmt == .e2m1b then
    let code := (b.getD 0 0).toNat / 2 ^ bit % 16
    (Vtype.fmt c.vtype).ofVal (e2m1bVal code (b.getD 1 0).toNat (b.getD 2 0).toNat) c.frm
  else o.fmt.toReg c.vtype c.frm (leNat b / 2 ^ bit % 2 ^ o.fmt.width (Vtype.sew c.vtype))

/-- The bit at which element e of an access starts in its bytes. -/
def VMemOp.bitOf (o : VMemOp) (c : LCore) (e : Nat) : Nat :=
  if o.fmt == .e2m1b then
    match o.mode with
    | .shape x => 4 * ((x.coords (List.range x.rank) e).getD 0 0).toNat % 8
    | _ => 4 * (e % 2)
  else match o.elemAt c e with
    | some x => x.bit
    | none => 0

/-- Write bit e of the completion mask that a record names, when it does (R164). -/
def VMemOp.complete (o : VMemOp) (c : LCore) (e : Nat) (inRange : Bool) : LCore :=
  match o.mode with
  | .shape x => if x.cmen then c.setKbit x.cmk e inRange else c
  | _ => c

/-- A load in a window: each active element takes the value of its bytes, or FILL (R157, R163). -/
def VMemOp.loadIn (o : VMemOp) (w : Window) (c : LCore) : LCore :=
  let sew := Vtype.sew c.vtype
  c.forActive w o.m fun c e =>
    match FMap.get? w.data e with
    | some b => o.complete (c.putFp o.d sew e (o.ofBytes c (o.bitOf c e) b)) e true
    | none =>
      match o.mode with
      | .shape x => o.complete (c.setVal o.d sew e (fillValue x c.vtype)) e false
      | _ => c

/-- Store one element that is not of E2M1B: its bytes with its bits replaced, flags and mark (R135, R138). -/
def VMemOp.storeElem (o : VMemOp) (s : State) (e : Nat) (keys : List Nat) : State :=
  let c := s.lc
  let sew := Vtype.sew c.vtype
  let w := o.fmt.width sew
  let x := o.fmt.ofReg c.vtype c.frm (c.val o.d sew e)
  let bit := o.bitOf c e
  let old := leNat (keys.map (Memory.get s.mem))
  let new := if o.fmt.dense sew then (setField (BitVec.ofNat 24 old) bit w x.code).toNat else x.code
  let s := (s.poke (keys.zip (leBytes keys.length new))).dropLines s.core keys
  s.setLc (o.complete ((s.lc.raise x.flags).markIf x.mark e) e true)

/-- The block number of element e of an E2M1B access. -/
def VMemOp.blockOf (o : VMemOp) (e : Nat) : Nat × Nat :=
  match o.mode with
  | .shape x =>
    let i := ((x.coords (List.range x.rank) e).getD 0 0).toNat
    (i / 32, i % 32)
  | _ => (e / 32, e % 32)

/-- The element at which an access goes on from VSTART: a store in E2M1B begins its block again (R133, R175). -/
def VMemOp.resume (o : VMemOp) (vstart vl : Nat) : Nat :=
  if o.fmt == .e2m1b && !o.load && decide (vstart < vl) then vstart / 32 * 32 else vstart

/-- The bytes that the elements of each element group reach (R120). -/
def groupKeys (g : Nat) (places : List (Nat × List Nat)) : List (List Nat) := (groupPlaces g places).map (·.flatMap (·.2))

/-- Store the E2M1B block of an element: every active element below VL that lies in the block (R133). The
elements that commit raise their flags and marks; those from VSTART on write their bit of the completion mask (R164,
R175). -/
def VMemOp.storeBlock (o : VMemOp) (w : Window) (s : State) (blk : Nat) (keys : List Nat) : State :=
  let c := s.lc
  let sew := Vtype.sew c.vtype
  let mine := (c.activeIn o.m 0 w.vl).filter fun e => (o.elemAt c e).isSome && (o.blockOf e).1 == blk
  let vals := (List.range 32).map fun j =>
    (mine.find? fun e => (o.blockOf e).2 == j).map fun e => (Vtype.fmt c.vtype).decode (c.val o.d sew e)
  let b := encodeBlock vals c.frm
  let s := (s.poke (keys.zip b.bytes)).dropLines s.core keys
  s.setLc (mine.foldl (fun c e =>
    if o.resume w.lo w.vl ≤ e ∧ e < w.hi then
      let j := (o.blockOf e).2
      let c := (c.raise (b.flags.getD j 0)).markIf (b.marks.getD j false) e
      if w.lo ≤ e then o.complete c e true else c
    else c) s.lc)

/-- The bytes that a store in a window writes, its elements in ascending order (R133, R157, R163). -/
def VMemOp.storeBytes (o : VMemOp) (w : Window) (s : State) : State :=
  let act := s.lc.activeIn o.m (o.resume w.lo w.vl) w.hi
  if o.fmt == .e2m1b then
    let inr := act.filter fun e => (FMap.get? w.places e).isSome
    let blks := (inr.map fun e => ((o.blockOf e).1, e)).foldl (fun l p => if l.any (·.1 == p.1) then l else l ++ [p]) []
    let s := blks.foldl (fun s p => o.storeBlock w s p.1 ((FMap.get? w.places p.2).getD [])) s
    s.setLc ((act.filter fun e => decide (w.lo ≤ e) && (FMap.get? w.places e).isNone).foldl
      (fun c e => o.complete c e false) s.lc)
  else
    act.foldl (fun s e =>
      match FMap.get? w.places e with
      | some keys => o.storeElem s e keys
      | none => s.setLc (o.complete s.lc e false)) s

/-- The bytes that a store of the elements at some places replaces entirely (R135). -/
def VMemOp.wholeKeys (o : VMemOp) (c : LCore) (l : List (Nat × List Nat)) : List Nat :=
  o.fmt.wholeKeys (Vtype.sew c.vtype) (l.map fun p => (o.bitOf c p.1, p.2))

/-- A store in a window: its bytes, then, for each element group, what one merged write of each word does to
the errors there (R120, R135, R441). -/
def VMemOp.storeIn (o : VMemOp) (w : Window) (s : State) : State :=
  let c := s.lc
  let lo := o.resume w.lo w.vl
  let here := w.places.filter fun p => decide (lo ≤ p.1) && decide (p.1 < w.hi) && c.active o.m p.1
  (groupPlaces (Vtype.groupOf (Vtype.c c.vtype)) here).foldl
    (fun s l => s.merged (l.flatMap (·.2)) (o.wholeKeys c l)) (o.storeBytes w s)

/-- The home scope of a place (R166): 1 CORE to 6 SYSTEM, by the codes of R50. -/
def homeScope (core : Nat) (b : ByteAt) : Nat :=
  match b.kind with
  | .vault =>
    if vaultCore b.key == core then 1
    else if vaultCore b.key / 4 == core / 4 then 2
    else if vaultCore b.key / 96 == core / 96 then 3 else 4
  | .global => 4
  | .domain => 5
  | .host => 6

/-! ## Atomics of a home (R151, R170) -/

/-- The new value of an integer or floating cell of w bits (R151, R170): `flt` for FP32. -/
def atomApply (op : AtomOp) (w old x expect : Nat) : Nat :=
  match op with
  | .ldacq => old
  | .strel | .swp => x
  | .add => (old + x) % 2 ^ w
  | .cas => if old = expect then x else old
  | .min => if signedOf w x < signedOf w old then x else old
  | .max => if signedOf w old < signedOf w x then x else old
  | .and => Nat.land old x
  | .or => Nat.lor old x
  | .fadd => (Fmt.fp32.fadd old x rne).1
  | .fmin => Fmt.fp32.fmin old x
  | .fmax => Fmt.fp32.fmax old x

/-- A vector atomic in a window: each active element's cell is updated at its home in ascending order
(R170, R171); VAMOSWP's old values are on their way (R172). -/
def VMemOp.atomicIn (o : VMemOp) (op : AtomOp) (w : Window) (s : State) : State :=
  let sew := Vtype.sew s.lc.vtype
  (s.lc.activeIn o.m w.lo w.hi).foldl (fun s e =>
    match FMap.get? w.places e with
    | none => s
    | some keys =>
      let old := leNat (keys.map (Memory.get s.mem))
      let new := atomApply op sew old (s.lc.val o.d sew e) 0
      let s := (s.writeBack (keys.zip (leBytes keys.length new))).dropLines s.core keys
      if op = .swp then s.setLc { s.lc with oldVals := s.lc.oldVals ++ [⟨o.d, e, sew, old⟩] } else s) s

end Sys2Proof.Machine
end

