-- ==== Sys2Proof/Machine/Ports.lean ====
section
/-! DEFINITION. Ports, shared parts (R199 to R218): the commands of a thread on a port, the claim of a
port, room in its buffer, the scoreboard of tokens and of old values, and pops and pushes. -/

namespace Sys2Proof.Machine

/-! ## Commands -/

/-- The captured VTYPE of a command as a VTYPE value. -/
def Cmd.vt (x : Cmd) : Word := x.vtype.setWidth 64

/-- A write stream (R202). -/
def Cmd.isWrite (x : Cmd) : Bool := x.shape.dir && x.mgemv.isNone

/-- The container width of the command's elements. -/
def Cmd.c (x : Cmd) : Nat := Vtype.c x.vt

/-- The register side has finished (R212). -/
def Cmd.regDone (x : Cmd) : Bool := if x.isWrite then x.done else decide (x.exp ≤ x.reg)

/-- Finished on both sides. -/
def Cmd.over (x : Cmd) : Bool := x.done && x.regDone

/-- The bits of the port's buffer that a command's elements take (R199). -/
def Cmd.bits (x : Cmd) : Nat := x.buf.length * x.c

/-- The free buffer elements of a command on a port with these commands (R199). -/
def freeElems (cmds : List Cmd) (x : Cmd) : Nat := (65536 - (cmds.map Cmd.bits).foldl (· + ·) 0) / x.c

/-- The place of the head: the oldest command not finished on the register side, or the last (R199). -/
def headAt (cmds : List Cmd) : Nat := (cmds.findIdx? fun x => !x.regDone).getD (cmds.length - 1)

/-- The head. -/
def headCmd (cmds : List Cmd) : Option Cmd := cmds[headAt cmds]?

/-- Replace the head. -/
def setHead (f : Cmd → Cmd) (cmds : List Cmd) : List Cmd := cmds.modify (headAt cmds) f

/-- The commands that remain, once those finished on both sides are gone (R200). -/
def liveCmds (l : List Cmd) : List Cmd := l.filter fun x => !x.over

/-- A port from which finished commands are gone; with none left it falls free (R200). -/
def Port.settle (p : Port) : Port :=
  let l := liveCmds p.cmds
  if l.isEmpty then ⟨none, []⟩ else { p with cmds := l }

/-! ## Whose commands -/

/-- A thread's displaced commands for a port, in their saved order (R200). -/
def LCore.displacedAt (c : LCore) (p : Nat) : List Cmd := (c.displaced.filter (·.port == p)).map (·.cmd)

/-- The thread's commands on a port, its displaced ones included (R200). -/
def State.myCmds (s : State) (p : Nat) : List Cmd :=
  let q := s.port s.core p
  if q.owner == some s.cur then s.lc.displacedAt p ++ q.cmds else s.lc.displacedAt p

/-- Take ownership of a port, with the displaced commands ahead; none when another thread owns it (R200). -/
def State.claim (s : State) (p : Nat) : Option State :=
  let q := s.port s.core p
  if q.owner.isNone || q.owner == some s.cur then
    let s' : State := s.setPort s.core p ⟨some s.cur, s.lc.displacedAt p ++ q.cmds⟩
    some (s'.setLc { s.lc with displaced := s.lc.displaced.filter (·.port != p) })
  else none

/-- Reclaim a port for an instruction that names it (R200): only displaced commands ask for it. -/
def State.reclaim (s : State) (p : Nat) : Option State :=
  if (s.lc.displacedAt p).isEmpty then some s else s.claim p

/-- Replace the thread's commands on a port that it owns. -/
def State.setCmds (s : State) (p : Nat) (l : List Cmd) : State :=
  s.setPort s.core p (Port.settle ⟨some s.cur, l⟩)

/-! ## What VSTP has pushed, as stores of the thread (R189) -/

/-- The elements that VSTP has pushed to the commands of a port and that have not reached memory. -/
def unwritten (cmds : List Cmd) : Nat := (cmds.map fun x => if x.isWrite then x.reg - x.mem else 0).sum

/-- What VSTP has pushed on the thread's ports, but for one, and has not reached memory, by port: a command pushed now
makes no access before it has (R189). -/
def State.owed (s : State) (but : Option Nat) : FMap Nat :=
  ((List.range 16).filter fun p => some p != but).filterMap fun p =>
    let n := unwritten (s.myCmds p)
    if n = 0 then none else some (p, n)

/-- n elements of a port have reached memory, or are discarded. -/
def lessOwed (p n : Nat) (l : FMap Nat) : FMap Nat :=
  (l.map fun a => if a.1 = p then (p, a.2 - n) else a).filter (·.2 != 0)

/-- A command that waits for elements of a port. -/
def Cmd.lessOwed (p n : Nat) (x : Cmd) : Cmd := { x with after := Sys2Proof.Machine.lessOwed p n x.after }

/-- n elements that a thread has pushed on a port have reached memory, or are discarded: its later pushes wait for fewer
(R189). -/
def State.written (s : State) (thr p n : Nat) : State :=
  if n = 0 then s
  else
    let c := (s.thr thr).lc
    let d : LCore := { c with
      displaced := c.displaced.map fun x => { x with cmd := x.cmd.lessOwed p n }
      xchs := c.xchs.map fun x => (x.1, { x.2 with after := lessOwed p n x.2.after }) }
    let t : State := { s with
      ports := s.ports.map fun q =>
        (q.1, if q.2.owner == some thr then { q.2 with cmds := q.2.cmds.map (Cmd.lessOwed p n) } else q.2)
      pushes := s.pushes.map fun x => if x.madeBy c then { x with after := lessOwed p n x.after } else x }
    (t.setLcOf thr d).sendReports

/-- Every element of a command has moved: it completes on the memory side (R212). -/
def Cmd.allMoved (x : Cmd) : Bool := decide (x.exp ≤ x.mem) && (!x.isWrite || decide (x.exp ≤ x.reg))

/-- A command that cannot go on without its thread (R174, R217). -/
def Cmd.needsThread (cmds : List Cmd) (x : Cmd) : Bool :=
  !x.allMoved && (x.suspended || x.fault.isSome || x.hold ||
    (if x.isWrite then
      (if x.shape.fmt == .e2m1b then decide (x.reg < min (x.mem - x.mem % 32 + 32) x.exp) else decide (x.reg ≤ x.mem))
        && decide (x.reg < x.exp)
    else decide (freeElems cmds x = 0)))

/-- A command of those selected by `sel` goes on by itself on a port (R174): it counts when nothing ahead of it on its
port needs the thread, and none that has not started counts behind a suspended one. `stuck`: what it waits for on
other ports needs the thread. -/
def portBusy (stuck : FMap Nat → Bool) (sel : Cmd → Bool) : List Cmd → List Cmd → Bool
  | _, [] => false
  | all, x :: l =>
    if x.done then !(x.suspended && l.all (!·.started)) && portBusy stuck sel all l
    else if x.needsThread all || stuck x.after then false
    else sel x || portBusy stuck sel all l

/-- The commands on a port that the thread owns: its displaced ones go on only when it reclaims the port (R200). -/
def State.ownCmds (s : State) (p : Nat) : List Cmd :=
  let q := s.port s.core p
  if q.owner == some s.cur then q.cmds else []

/-- What a command waits for on other ports cannot reach memory without the thread (R174, R189, R200); with fuel for
chains. -/
def State.stuck (s : State) : Nat → FMap Nat → Bool
  | 0, _ => false
  | fuel + 1, l => l.any fun a =>
    let cmds := s.myCmds a.1
    match cmds.find? (!·.done) with
    | none => false
    | some x => !(s.lc.displacedAt a.1).isEmpty || x.needsThread cmds || s.stuck fuel x.after

/-- Some element that VSTP has pushed is on its way to memory, on a stream that goes on by itself. A stream that cannot
go on without the thread counts with what it has written, as for a FENCE (R174, R189, log entry 6). -/
def State.owes (s : State) : Bool :=
  (List.range 16).any fun p =>
    let l := s.ownCmds p
    portBusy (s.stuck 16) (fun x => x.isWrite && decide (x.mem < x.reg)) l l

/-! ## The scoreboard (R172, R190, R209, R213) -/

/-- The ports of a core with a command of the thread that has a pending token among these registers. -/
def State.pendingPort (s : State) (gs : List Reg) : Option (Nat × Cmd) :=
  (List.range 16).findSome? fun p =>
    ((s.myCmds p).find? fun x => x.tokenPending && gs.contains x.token).map fun x => (p, x)

/-- What the scoreboard says to an instruction. -/
inductive Gate
  | go
  | wait (s : State)
  | fault (s : State) (f : RecFault)
  deriving DecidableEq, Repr

/-- The recorded fault of a command is delivered: its memory side holds until the instruction is executed
again (R209). -/
def faultTaken (x : Cmd) (l : List Cmd) : List Cmd :=
  l.map fun y => if y == x then { y with fault := none, hold := true } else y

/-- An instruction that needs a command is executed again: a held memory side retries its element (R209). -/
def retried (l : List Cmd) : List Cmd := l.map fun y => if y.fault.isNone then { y with hold := false } else y

/-- The thread waits: its instruction is executed again at its next turn. -/
def State.waiting (s : State) (w : WaitFor) : State := s.setLc { s.lc with waitFor := w }

/-- A pending token register makes its reader or writer wait, reclaim a displaced command's port, and
receive the fault recorded in the command (R200, R209, R213). -/
def State.gate (s : State) (gs : List Reg) : Gate :=
  match s.pendingPort gs with
  | none => .go
  | some (p, x) =>
    match s.reclaim p with
    | none => .wait (s.waiting (.port p))
    | some s' =>
      match x.fault with
      | some f => .fault (s'.setCmds p (faultTaken x (s'.myCmds p))) f
      | none => .wait ((s'.setCmds p (retried (s'.myCmds p))).waiting .other)

/-- A release, where `rel` says that it is one, waits until what VSTP has pushed is in memory: a lax store of the thread
that precedes it (R184, R189, R194). -/
def afterPushes (rel : Bool) (k : State → Host.Outcome State Fault Refusal) (s : State) : Host.Outcome State Fault Refusal :=
  if rel && s.owes then .next (s.waiting .other) else k s

/-- Whether an old value of VAMOSWP is still to arrive in one of these registers (R172). -/
def LCore.awaits (c : LCore) (regs : List (Nat × Nat)) : Bool :=
  c.oldVals.any fun o =>
    let r := o.reg + o.elem * Vtype.containerOf o.sew / 16384
    regs.any fun g => decide (g.1 ≤ r) && decide (r < g.1 + g.2)

/-- Old values of VAMOSWP that are outstanding are written, each into its element of d (R172). -/
def LCore.takeOldVals (c : LCore) : LCore :=
  { c.oldVals.foldl (fun (c : LCore) o => c.setVal o.reg o.sew o.elem o.val) c with oldVals := [] }

/-- The read of tokens that have arrived makes the bytes that their write streams wrote visible: their
lines leave the scalar data cache (R190, R196). -/
def State.observe (s : State) (hit : Reg × Nat × List Nat → Bool) : State :=
  let seen := s.lc.unseen.filter hit
  if seen.isEmpty then s
  else (s.setLc { s.lc with unseen := s.lc.unseen.filter (!hit ·) }).dropLines s.core (seen.flatMap (·.2.2))

/-- A scalar instruction: it waits for pending registers that it names, then acts (R213). -/
def scalar (gs : List Reg) (s : State) (k : State → Host.Outcome State Fault Refusal) :
    Host.Outcome State Fault Refusal :=
  match s.gate gs with
  | .wait s => .next s
  | .fault s f => .next (s.trap f.cause f.addr)
  | .go => k (s.observe fun u => u.1 != 0 && gs.contains u.1)

/-! ## Room, pops and pushes (R210, R211) -/

/-- B, the stream element that is element 0 of the instruction (R210). -/
def Cmd.base (x : Cmd) (vstart : Nat) : Int := (x.reg : Int) - vstart

/-- Room n of the head for VLDP or VSTP (R210). -/
def room (cmds : List Cmd) (x : Cmd) (vstart : Nat) : Int :=
  let b := x.base vstart
  if x.isWrite then min (x.exp : Int) (b + freeElems cmds x) - b else x.mem - b

/-- VLDP in a window: the elements from `lo` to `hi` - 1 are popped; an inactive one is discarded (R211). With
none of them nothing happens (R224). -/
def State.popIn (s : State) (p d : Nat) (m : Bool) (w : Window) : State :=
  let cmds := s.myCmds p
  match if w.lo < w.hi then headCmd cmds else none with
  | none => s
  | some h =>
    let n := w.hi - w.lo
    let sew := Vtype.sew s.lc.vtype
    let c := (h.buf.take n).zipIdx.foldl (fun (c : LCore) x =>
      let e := w.lo + x.2
      match x.1.val with
      | some v => if c.active m e then c.putFp d sew e (v, x.1.flags) else c
      | none => c) s.lc
    (s.setLc c).setCmds p (setHead (fun h => { h with reg := h.reg + n, buf := h.buf.drop n }) cmds)

/-- VSTP in a window: the elements from `lo` to `hi` - 1 are pushed, an inactive one as a skip; formats
other than E2M1B convert, raise flags and mark as each element commits (R211). -/
def State.pushIn (s : State) (p r : Nat) (m : Bool) (w : Window) : State :=
  let cmds := s.myCmds p
  match if w.lo < w.hi then headCmd cmds else none with
  | none => s
  | some h =>
    let sew := Vtype.sew s.lc.vtype
    let one (a : LCore × List PortElem) (e : Nat) : LCore × List PortElem :=
      let v := a.1.val r sew e
      if !a.1.active m e then (a.1, a.2 ++ [⟨none, 0⟩])
      else if h.shape.fmt == .e2m1b then (a.1, a.2 ++ [⟨some v, 0⟩])
      else
        let x := h.shape.fmt.ofReg h.vt a.1.frm v
        ((a.1.raise x.flags).markIf x.mark e, a.2 ++ [⟨some x.code, 0⟩])
    let r := (rangeFrom w.lo w.hi).foldl one (s.lc, [])
    (s.setLc r.1).setCmds p (setHead (fun h =>
      { h with reg := h.reg + (w.hi - w.lo), buf := h.buf ++ r.2 }) cmds)

end Sys2Proof.Machine
end

