-- ==== Sys2Proof/Machine/Issue.lean ====
section
/-! DEFINITION. The issue of vector instructions: what each convoy-capable instruction reads, writes and
needs, the checks of R78, the plan of the memory member, and the window in which the members of a convoy
commit (R235 to R244). -/

namespace Sys2Proof.Machine

/-! ## What a member is to its convoy -/

/-- The pipe classes (R235). -/
inductive Pipe
  | memory | fma | logic | perm
  deriving DecidableEq, Repr

/-- The most members of a class in one convoy (R235). -/
def Pipe.most : Pipe → Nat
  | .fma => 2
  | _ => 1

/-- What the checks of R78 see of an instruction: its word; its classes; whether it is a whole-result
member; whether its VTYPE is refused; the register groups it reads beside d, those it writes, whether it
also reads d; the fields of counter groups among them; masks and g registers read and written; whether any overlap of d with a source is refused;
whether it can mark; a mask that no other member may touch; whether it fails OVERLAP by itself. -/
structure Member where
  word : IWord
  pipes : List Pipe
  whole : Bool
  ill : Bool
  vr : List (Nat × Nat)
  vw : List (Nat × Nat)
  readsD : Bool
  counters : List Nat
  kr : List Nat
  kw : List Nat
  gr : List Reg
  gw : List Reg
  own : Bool
  marks : Bool
  only : Option Nat
  bad : Bool
  deriving DecidableEq, Repr

/-- A member that uses no register but, when masked, k0. -/
def Member.base (word : IWord) (m : Bool) : Member :=
  { word := word, pipes := [], whole := false, ill := false, vr := [], vw := [], readsD := false, counters := [],
    kr := if m then [0] else [], kw := [], gr := [], gw := [], own := false, marks := false, only := none, bad := false }

/-- Two runs of registers overlap (R243). -/
def overlaps (a b : Nat × Nat) : Bool := decide (a.1 < b.1 + b.2) && decide (b.1 < a.1 + a.2)

/-- Some run of one list overlaps some run of the other. -/
def meets (a b : List (Nat × Nat)) : Bool := a.any fun x => b.any (overlaps x)

namespace Member

/-- The groups that its fields name. -/
def groups (x : Member) : List (Nat × Nat) := x.vr ++ x.vw

/-- The g registers that its fields name. -/
def gs (x : Member) : List Reg := x.gr ++ x.gw

/-- It reads or writes a mask. -/
def touches (x : Member) (k : Nat) : Bool := x.kr.contains k || x.kw.contains k

/-- The groups that it reads. -/
def reads (x : Member) : List (Nat × Nat) := if x.readsD then x.vr ++ x.vw else x.vr

/-- Check 5 (R46, R64, R232, R312): a group not aligned to its size, or reaching VREGS. A counter field is of kind v:
it is a multiple of GM as well as of K. -/
def groupBad (c : LCore) (x : Member) : Bool :=
  (x.groups.any fun g => g.1 % g.2 != 0 || decide (c.job.vregs < g.1 + g.2))
    || x.counters.any fun r => r % Vtype.gm c.vtype != 0

/-- Two members of which the first, a whole-result member, writes what the other reads or writes (R238). A destination
g0 is no register that it writes (R253, log entry 99). -/
def clobbers (w o : Member) : Bool :=
  w.whole && (meets w.vw o.reads || meets w.vw o.vw || w.kw.any o.touches
    || w.gw.any fun g => g != 0 && (o.gr.contains g || o.gw.contains g))

/-- A mask of one member that another may not touch (R140, R164, R167). With EN = 1 a member that can mark writes the
register SATK names, so two of them raise OVERLAP. -/
def guards (satk : BitVec 4) (x o : Member) : Bool :=
  (match x.only with
   | some k => o.touches k
   | none => false) || (satkEn satk && x.marks && (o.touches (satkReg satk) || o.marks))

/-- Check 6 for the member at a place (R49, R235, R238). -/
def convoyBad (broken : Option Nat) (ms : List Member) (i : Nat) (x : Member) : Bool :=
  broken == some i
    || x.pipes.any (fun p => decide (p.most < ((ms.take (i + 1)).filter (·.pipes.contains p)).length))
    || (ms.eraseIdx i).any fun o => x.clobbers o || o.clobbers x

/-- Check 7 for the member at a place (R243, R140, R159, R164, R167, R169). -/
def overlapBad (satk : BitVec 4) (ms : List Member) (i : Nat) (x : Member) : Bool :=
  (x.own && meets x.vw x.vr) || x.bad || (ms.eraseIdx i).any fun o => guards satk x o || guards satk o x

end Member

/-- The checks 4 to 7 of R78: the first that fails, with the lowest-placed member that fails it. -/
def issueCheck (c : LCore) (broken : Option Nat) (ms : List Member) : Option (Cause × Nat) :=
  let first (cause : Cause) (p : Nat → Member → Bool) : Option (Cause × Nat) :=
    (ms.zipIdx.find? fun x => p x.2 x.1).map fun x => (cause, x.2)
  (first .vtypeIll fun _ x => x.ill) <|> (first .groupAlign fun _ x => x.groupBad c)
    <|> (first .convoy fun i x => x.convoyBad broken ms i)
    <|> first .overlap fun i x => x.overlapBad c.satk ms i

/-! ## The members -/

/-- A register group of GM registers at a field (R46). -/
def LCore.grp (c : LCore) (r : Reg) : Nat × Nat := (r.toNat, Vtype.gm c.vtype)

/-- VTYPE is not of the class INT (R286). -/
def LCore.notInt (c : LCore) : Bool := Vtype.vill c.vtype || Vtype.flt c.vtype

/-- VTYPE is not of the class FP (R286). -/
def LCore.notFp (c : LCore) : Bool := Vtype.vill c.vtype || !Vtype.flt c.vtype

/-- VTYPE is ill: not of the class ANY (R286). -/
def LCore.notAny (c : LCore) : Bool := Vtype.vill c.vtype

/-- A member with two vector sources and a vector destination. -/
def memVVV (c : LCore) (w : IWord) (f : VF) (p : Pipe) (ill : Bool) : Member :=
  { Member.base w f.m with pipes := [p], ill := ill, vr := [c.grp f.s1, c.grp f.s2], vw := [c.grp f.d] }

/-- A member with a vector source, a g source and a vector destination. -/
def memVVG (c : LCore) (w : IWord) (f : VF) (p : Pipe) (ill : Bool) : Member :=
  { Member.base w f.m with pipes := [p], ill := ill, vr := [c.grp f.s1], gr := [f.s2], vw := [c.grp f.d] }

/-- A member with one vector source and a vector destination. -/
def memVV (c : LCore) (w : IWord) (f : VF) (p : Pipe) (ill : Bool) : Member :=
  { Member.base w f.m with pipes := [p], ill := ill, vr := [c.grp f.s1], vw := [c.grp f.d] }

/-- A compare: a mask destination (R295). -/
def memCmp (c : LCore) (w : IWord) (f : VF) (scalar : Bool) (ill : Bool) : Member :=
  { Member.base w f.m with
    pipes := [.perm], ill := ill, vr := if scalar then [c.grp f.s1] else [c.grp f.s1, c.grp f.s2],
    gr := if scalar then [f.s2] else [], kw := [f.d.toNat] }

/-- A reduction: g sources and destination (R300). -/
def memRed (c : LCore) (w : IWord) (f : VF) (ill : Bool) : Member :=
  { Member.base w f.m with pipes := [.perm], whole := true, ill := ill, vr := [c.grp f.s1], gr := [f.s2], gw := [f.d] }

/-- A permute: a whole-result member whose destination may overlap no source (R299, R302 to R304). -/
def Member.permute (x : Member) : Member := { x with whole := true, own := true }

/-- Mask logic (R296). -/
def memK (c : LCore) (w : IWord) (f : VF) (srcs : List Reg) : Member :=
  { Member.base w f.m with pipes := [.perm], ill := c.notAny, kr := srcs.map (·.toNat), kw := [f.d.toNat] }

/-- KFFS and KPOPC (R297). -/
def memKG (c : LCore) (w : IWord) (f : VF) : Member :=
  { Member.base w f.m with pipes := [.perm], whole := true, ill := c.notAny, kr := [f.s1.toNat], gw := [f.d] }

/-- VCVT: its VTYPE column, its wide side and its marks (R64, R294, R140). -/
def memCvt (c : LCore) (w : IWord) (f : VF) : Member :=
  let n := f.s2.toNat
  let t := c.vtype
  let gm := Vtype.gm t
  let wide : Nat := 2 * gm
  let okType :=
    if n ≤ 1 then Vtype.flt t
    else if n ≤ 3 then !Vtype.flt t && (Vtype.sew t == 16 || Vtype.sew t == 32)
    else if n ≤ 5 then Vtype.flt t && Vtype.sew t == 16
    else !Vtype.flt t && (Vtype.sew t == 8 || Vtype.sew t == 16 || Vtype.sew t == 32)
  let dWide := n == 4 || n == 6 || n == 7
  let sWide := n == 5 || n == 8 || n == 9
  { Member.base w f.m with
    pipes := [.fma], ill := Vtype.vill t || !okType || (decide (4 ≤ n) && gm == 8),
    vr := [(f.s1.toNat, if sWide then wide else gm)], vw := [(f.d.toNat, if dWide then wide else gm)],
    own := decide (4 ≤ n), marks := n == 0 || n == 1 || n == 5 || n == 8 || n == 9 }

/-- A hypervector width that VTYPE refuses (R311). -/
def LCore.notHv (c : LCore) : Bool :=
  Vtype.vill c.vtype || c.hvw == 0 || decide (16384 * Vtype.gm c.vtype < c.hvw.toNat)

/-- K, the registers of a counter group, as the smallest power of two that holds the bits (R312). -/
def LCore.counterRegs (c : LCore) : Nat :=
  let n := (c.hvw.toNat * Vtype.sew c.vtype + 16383) / 16384
  if n ≤ 1 then 1 else if n ≤ 2 then 2 else if n ≤ 4 then 4 else if n ≤ 8 then 8 else 16

/-- A counter group that VTYPE refuses (R312). -/
def LCore.notCounters (c : LCore) : Bool :=
  c.notHv || Vtype.flt c.vtype || !(Vtype.sew c.vtype == 8 || Vtype.sew c.vtype == 16) || decide (8 < c.counterRegs)

/-- A counter group at a field (R312): K registers. -/
def LCore.counterGrp (c : LCore) (r : Reg) : Nat × Nat := (r.toNat, c.counterRegs)

/-- A hypervector member (R311). -/
def Member.hv (x : Member) : Member := { x with pipes := [.logic], whole := true, own := true }

/-- What a vector memory instruction does with memory (R155 to R172), for a logical core whose registers
give the base, the stride and, where one is not given, the shape record. -/
def memOp (c : LCore) (shape : Option Shape) : Instr → Option VMemOp
  | .vld f => some (plainOp c f .unit true)
  | .vlds f => some (plainOp c f (.strided (c.rd f.x)) true)
  | .vldx f => some (plainOp c f (.indexed f.x.toNat) true)
  | .vldt f => some (shapeOp c f (shape.getD (c.shape f.x.toNat)) true)
  | .vst f => some (plainOp c f .unit false)
  | .vsts f => some (plainOp c f (.strided (c.rd f.x)) false)
  | .vstx f => some (plainOp c f (.indexed f.x.toNat) false)
  | .vstt f => some (shapeOp c f (shape.getD (c.shape f.x.toNat)) false)
  | .vldff f => some { plainOp c f .unit true with ff := true }
  | .vldv f => some { plainOp c f .unit true with cls := .ownVault, vertical := true }
  | .vstv f => some { plainOp c f .unit false with cls := .ownVault, vertical := true }
  | .vldxa f => some { plainOp c f (.indexed f.x.toNat) true with fmt := .raw }
  | .vstxr f => some { plainOp c f (.indexed f.x.toNat) false with fmt := .raw }
  | .vamoadd f | .vamomin f | .vamomax f | .vamoswp f =>
    some { plainOp c f (.indexed f.x.toNat) false with fmt := .raw, acc := .rmw, cls := .vectorAtomic }
  | _ => none
where
  plainOp (c : LCore) (f : VMF) (mode : Mode) (load : Bool) : VMemOp :=
    { fmt := .ofCode f.fmt, mode := mode, base := c.rd f.base, load := load, acc := if load then .read else .write,
      cls := .plain, m := f.m, d := f.d.toNat, vertical := false, ff := false }
  shapeOp (c : LCore) (f : VMF) (x : Shape) (load : Bool) : VMemOp :=
    { plainOp c f (.shape x) load with fmt := x.fmt }

/-- The format and mode of a memory member that VTYPE refuses (R110, R136, R137, R159). The format of a record
is judged once the record is not malformed (R162). -/
def VMemOp.refused (o : VMemOp) (t : Word) : Bool :=
  Vtype.vill t ||
  match o.mode with
  | .shape x => !x.malformed (Vtype.sew t) && !x.accepted t
  | .unit => !o.fmt.accepts t || (o.ff && o.fmt == .e2m1b)
      || (o.vertical && (o.fmt == .e2m1b || o.fmt.width (Vtype.sew t) != Vtype.c t))
  | _ => !o.fmt.accepts t || o.fmt == .e2m1b || o.fmt.dense (Vtype.sew t)

/-- VTYPE is none of e32, e64 and e32f (R169). -/
def notAtomic (t : Word) : Bool :=
  Vtype.vill t || !(Vtype.sew t == 32 || (Vtype.sew t == 64 && !Vtype.flt t))

/-- A load or store as a member. `x` tells whether the field x is an index group, a record or a g register. -/
def memVM (c : LCore) (i : Instr) (w : IWord) (f : VMF) (load : Bool) : Member :=
  match memOp c none i with
  | none => Member.base w f.m
  | some o =>
    let src : List (Nat × Nat) := match o.mode with
      | .indexed _ => [c.grp f.x]
      | .shape _ => [(f.x.toNat, 1)]
      | _ => []
    let gx : List Reg := match o.mode with
      | .strided _ => [f.x]
      | _ => []
    let cm : Option Nat := match o.mode with
      | .shape x => if x.cmen then some x.cmk else none
      | _ => none
    { Member.base w f.m with
      pipes := [.memory], ill := o.refused c.vtype, gr := f.base :: gx,
      vr := if load then src else c.grp f.d :: src, vw := if load then [c.grp f.d] else [],
      kw := match cm with
        | some k => [k]
        | none => [],
      own := load, marks := !load && o.cls != .vectorAtomic && o.fmt.canMark c.vtype, only := cm,
      bad := cm == some 0 && f.m }

/-- The head command of a port, as an instruction of the thread sees it. -/
def State.headOf (s : State) (p : Nat) : Option Cmd := headCmd (s.myCmds p)

/-- The VTYPE of VLDP or VSTP does not fit its head command (R210): a check of R78, made whatever VL holds. -/
def State.portRefuses (s : State) (p : Nat) : Bool :=
  Vtype.vill s.lc.vtype ||
    match s.headOf p with
    | none => false
    | some h => Vtype.sew h.vt != Vtype.sew s.lc.vtype || Vtype.flt h.vt != Vtype.flt s.lc.vtype

/-- The convoy-capable instructions (R49) as members; none for any other. -/
def State.memberOf (s : State) (i : Instr) : Option Member :=
  let c := s.lc
  let w := encode i
  match i with
  | .vadd f | .vsub f | .vmul f | .vmulh f | .vmin f | .vmax f | .vminn f | .vmaxn f | .vsadd f | .vssub f =>
    some (memVVV c w f .fma c.notInt)
  | .vand f | .vor f | .vxor f | .vsll f | .vsrl f | .vsra f => some (memVVV c w f .logic c.notInt)
  | .vmerge f => some (memVVV c w f .fma c.notAny)
  | .vaddScalar f | .vsubScalar f | .vmulScalar f | .vmulhScalar f | .vminScalar f | .vmaxScalar f
  | .vminnScalar f | .vmaxnScalar f | .vsaddScalar f | .vssubScalar f => some (memVVG c w f .fma c.notInt)
  | .vandScalar f | .vorScalar f | .vxorScalar f | .vsllScalar f | .vsrlScalar f | .vsraScalar f =>
    some (memVVG c w f .logic c.notInt)
  | .vmergeScalar f => some (memVVG c w f .fma c.notAny)
  | .vpopc f | .vclz f => some (memVV c w f .logic c.notInt)
  | .vid f => some { Member.base w f.m with pipes := [.fma], ill := c.notInt, vw := [c.grp f.d] }
  | .vmvs f => some { Member.base w f.m with pipes := [.fma], ill := c.notAny, gr := [f.s1], vw := [c.grp f.d] }
  | .vmvx f =>
    some { Member.base w f.m with pipes := [.fma], whole := true, ill := c.notAny, vr := [c.grp f.s1], gw := [f.d] }
  | .vfadd f | .vfsub f | .vfmul f | .vfdiv f | .vfmin f | .vfmax f => some (memVVV c w f .fma c.notFp)
  | .vfma f | .vfnma f => some { memVVV c w f .fma c.notFp with readsD := true }
  | .vfaddScalar f | .vfsubScalar f | .vfmulScalar f | .vfdivScalar f | .vfminScalar f | .vfmaxScalar f =>
    some (memVVG c w f .fma c.notFp)
  | .vfmaScalar f | .vfnmaScalar f => some { memVVG c w f .fma c.notFp with readsD := true }
  | .vfsqrt f | .vfabs f | .vfneg f | .vfexp2 f | .vflog2 f | .vfrsq f | .vfrcp f => some (memVV c w f .fma c.notFp)
  | .vcvt f => some (memCvt c w f)
  | .vcmpeq f | .vcmpne f | .vcmplt f | .vcmple f | .vcmpltn f | .vcmplen f => some (memCmp c w f false c.notInt)
  | .vfcmpeq f | .vfcmplt f | .vfcmple f => some (memCmp c w f false c.notFp)
  | .vcmpeqScalar f | .vcmpneScalar f | .vcmpltScalar f | .vcmpleScalar f | .vcmpltnScalar f | .vcmplenScalar f =>
    some (memCmp c w f true c.notInt)
  | .vfcmpeqScalar f | .vfcmpltScalar f | .vfcmpleScalar f => some (memCmp c w f true c.notFp)
  | .vslideup f | .vslidedn f => some (memVVG c w f .perm c.notAny).permute
  | .vrgath f => some (memVVV c w f .perm c.notAny).permute
  | .vcmpr f | .vspsel f => some (memVV c w f .perm c.notAny).permute
  | .vconfl f => some (memVV c w f .perm (c.notInt || decide (Vtype.sew c.vtype < 16))).permute
  | .vfcomb f => some (memVVV c w f .perm c.notFp).permute
  | .vredsum f | .vredmax f | .vredmin f => some (memRed c w f c.notInt)
  | .vfredsum f | .vfredmax f | .vfredmin f => some (memRed c w f c.notFp)
  | .vargmax f =>
    some { Member.base w f.m with pipes := [.perm], whole := true, ill := c.notAny, vr := [c.grp f.s1], gw := [f.d] }
  | .capp f => some { Member.base w f.m with pipes := [.memory, .perm], whole := true, ill := c.notAny, gr := [f.s1] }
  | .kand f | .kor f | .kxor f => some (memK c w f [f.s1, f.s2])
  | .knot f | .kmov f => some (memK c w f [f.s1])
  | .kffs f | .kpopc f => some (memKG c w f)
  | .hvbind f => some (memVVV c w f .logic c.notHv).hv
  | .hvperm f => some (memVVG c w f .logic c.notHv).hv
  | .hvbund f =>
    some { (memVVG c w f .logic c.notCounters).hv with
           vw := [c.counterGrp f.d], readsD := true, counters := [f.d.toNat] }
  | .hvmaj f =>
    some { (memVVV c w f .logic c.notCounters).hv with
           vr := [c.counterGrp f.s1, c.grp f.s2], counters := [f.s1.toNat] }
  | .hvsim f =>
    some { Member.base w f.m with pipes := [.logic], whole := true, ill := c.notHv, vr := [c.grp f.s1, c.grp f.s2],
                                  gw := [f.d] }
  | .vld f | .vlds f | .vldx f | .vldt f | .vldff f | .vldv f => some (memVM c i w f true)
  | .vldxa f => some { memVM c i w f true with kw := [8], only := some 8 }
  | .vst f | .vsts f | .vstx f | .vstt f | .vstv f | .vstxr f => some (memVM c i w f false)
  | .vamoadd f | .vamomin f | .vamomax f => some { memVM c i w f false with ill := notAtomic c.vtype }
  | .vamoswp f =>
    some { memVM c i w f false with ill := notAtomic c.vtype, vr := [c.grp f.x], vw := [c.grp f.d], readsD := true,
                                    own := true }
  | .vldp f => some { Member.base w f.m with pipes := [.memory], ill := s.portRefuses f.s1.toNat, vw := [c.grp f.d] }
  | .vstp f =>
    some { Member.base w f.m with
           pipes := [.memory], ill := s.portRefuses f.s1.toNat, vr := [c.grp f.s2],
           marks := match s.headOf f.s1.toNat with
             | some h => h.shape.fmt.canMark c.vtype
             | none => false }
  | _ => none

/-! ## The plan of the memory member -/

/-- What the memory member of a convoy finds before anything commits: the VL it leaves, the element at which
it stops with the reason, the places and bytes of its elements; or a stop at issue, a fault that an engine has
recorded (R209), or a wait. -/
inductive Plan
  | run (vl : Nat) (stop : Option (Nat × Stop)) (places : List (Nat × List Nat)) (data : List (Nat × List Byte))
  | now (why : Stop)
  | recorded (f : RecFault)
  | wait (why : WaitFor)
  deriving DecidableEq, Repr

/-- The keys of a probe's elements. -/
def Probe.keys (p : Probe) : List (Nat × List Nat) := p.places.map fun x => (x.1, x.2.map (·.key))

/-- Read the bytes of elements, or meet poison (R440). The elements of one group read a word that they share
once (R120); `g` is the number of elements of a group. -/
def readAll (g : Nat) (l : List (Nat × List Nat)) (s : State) : State × Option (List (Nat × List Byte)) :=
  let s := (groupKeys g l).foldl State.meets s
  (s, if l.any (fun x => x.2.any s.poisoned) then none else some (l.map fun x => (x.1, x.2.map (Memory.get s.mem))))

/-- Whether an access may use cluster-span packets: an indexed load or store (R116). -/
def VMemOp.mayspan (o : VMemOp) : Bool := o.mode.isIndexed && o.cls == .plain

/-- The data bytes of an element that a scatter packet carries (R117). -/
def VMemOp.scatterBytes (o : VMemOp) (c : LCore) (e : Nat) : List Byte :=
  leBytes (o.fmt.width (Vtype.sew c.vtype) / 8) (o.fmt.ofReg c.vtype c.frm (c.val o.d (Vtype.sew c.vtype) e)).code

/-- A convoy that a stop request no longer ends: every element group of it still runs (R241). -/
def State.runsThrough (s : State) : State :=
  let t := s.thr s.cur
  s.setThr s.cur { t with stopAsked := t.stopAsked.map fun _ => 8192 }

/-- The cluster-span access of the thread is over. -/
def State.endSpan (s : State) : State := { s with spans := s.spans.filter (·.thr != s.cur) }

/-- The packets of a thread that the swap engine holds are withdrawn (R104): the convoy stops at the element group of
element f, the lowest of them, which stays uncommitted. -/
def State.withdrawFrom (s : State) (c : LCore) (f : Nat) : State :=
  let t := s.thr s.cur
  let g := Vtype.groupOf (Vtype.c c.vtype)
  { s with packets := s.packets.filter (·.thr != s.cur) }.setThr s.cur
    { t with stopAsked := some (f / g - s.lc.vstart.toNat / g) }

/-- A cluster-span access whose packets are under way (R117): it waits for them, and completes with what
came. What a scatter wrote is written: its elements keep no place, only their flags and marks, and a stop
request no longer ends the convoy within them (R241), but where the swap engine holds up the packets that are left:
those are withdrawn, and the groups from the first of them on are performed again (R104, log entry 98). -/
def State.spanWait (s : State) (o : VMemOp) (c : LCore) (op : SpanOp) : State × Plan :=
  let done (s : State) : State × Plan :=
    (s.endSpan, .run c.vl none (if o.load then op.places else op.places.map fun x => (x.1, [])) op.vals)
  if op.left = 0 then done (if o.load then s else s.runsThrough)
  else
    match (s.thr s.cur).stopAsked, s.heldElem s.cur with
    | some _, some f => done (s.withdrawFrom c f)
    | _, _ => (s, .wait .other)

/-- A cluster-span access begins: it sends its packets and waits for them (R116, R117). -/
def State.spanStart (s : State) (o : VMemOp) (c : LCore) (p : Probe) : State × Plan :=
  let next := (s.packets.map (·.id)).foldl max 0 + 1
  let ps := p.packets s.cur s.core next (o.fmt.width (Vtype.sew c.vtype) / 8) (Vtype.groupOf (Vtype.c c.vtype)) (!o.load)
    (o.scatterBytes c)
  ({ s with packets := s.packets ++ ps,
            spans := s.spans ++ [⟨s.cur, s.lc.pc, p.keys, [], ps.length⟩] }, .wait .other)

/-- The probe of an access from VSTART on. A store in E2M1B begins the block of VSTART again (R133): the elements of
that block below VSTART are found too, but R95 and R157 test none of them, and where one fails its block is not
written again (log entry 91). -/
def State.probeFrom (s : State) (o : VMemOp) (c : LCore) (vl : Nat) : State × Probe :=
  let vs := c.vstart.toNat
  let tested (p : Probe) : Bool := p.stop.all fun x => match x.2 with
    | .trap _ _ => true
    | _ => false
  let p := o.probe c s.who (c.activeIn o.m vs vl) s
  if o.resume vs vl = vs ∨ !tested p.2 then p
  else
    let q := o.probe c s.who (c.activeIn o.m (o.resume vs vl) vs) p.1
    if tested q.2 then (q.1, ⟨q.2.places ++ p.2.places, p.2.stop⟩) else q

/-- The plan of a vector memory access (R93 to R96, R160, R162, R163): `c` is the logical core as the members
before it leave it. A malformed record raises STREAM once the checks of R78 have passed (log entry 63). -/
def State.accessPlan (s : State) (o : VMemOp) (c : LCore) : State × Plan :=
  let sew := Vtype.sew c.vtype
  let group := Vtype.groupOf (Vtype.c c.vtype)
  let early : Option Stop := match o.mode with
    | .shape x => if x.malformed sew then some (.trap .stream x.e1) else none
    | _ => none
  let vl := match o.mode with
    | .shape x => min c.vl x.points
    | _ => c.vl
  match early with
  | some e => (s, .now e)
  | none =>
    match s.probeFrom o c vl with
    | (s, ⟨_, some (_, .held)⟩) => (s, .wait .other)
    | (s, ⟨places, some (f, .trap cause tval)⟩) =>
      let p : Probe := ⟨places, none⟩
      let stop : Option (Nat × Stop) := if o.ff && f != 0 then none else some (f, .trap cause tval)
      let vl := if o.ff && f != 0 then f else vl
      match (if o.load || o.acc == .rmw then readAll group p.keys s else (s, some [])) with
      | (s, none) => (s, .now .poison)
      | (s, some data) => (s, .run vl stop p.keys data)
    | (s, ⟨_, some (_, why)⟩) => (s, .now why)
    | (s, ⟨places, none⟩) =>
      let p : Probe := ⟨places, none⟩
      if o.mayspan && p.span s.core then s.spanStart o c p
      else
        match (if o.load || o.acc == .rmw then readAll group p.keys s else (s, some [])) with
        | (s, none) => (s, .now .poison)
        | (s, some data) => (s, .run vl none p.keys data)

/-- The plan of a vector memory access: a cluster-span access under way goes on. -/
def State.vmemPlan (s : State) (o : VMemOp) (c : LCore) : State × Plan :=
  match s.spans.find? (·.thr == s.cur) with
  | some op => s.spanWait o c op
  | none => s.accessPlan o c

/-- The plan of VLDP (`write` false) and VSTP (R209 to R211, R224). -/
def State.portPlan (s : State) (word : IWord) (p : Nat) (write : Bool) : State × Plan :=
  let vl := s.lc.vl
  let vs := s.lc.vstart.toNat
  if vl = 0 then (s, .run 0 none [] [])
  else
    match s.reclaim p with
    | none => (s, .wait (.port p))
    | some s =>
      let cmds := s.myCmds p
      match headCmd cmds with
      | none => (s, .now (.trap .stream (word.setWidth 64)))
      | some h =>
        if h.isWrite != write then (s, .now (.trap .stream (word.setWidth 64)))
        else
          let n := room cmds h vs
          let complete := if write then decide (h.exp ≤ h.reg) else decide (h.exp ≤ h.mem)
          if (vs : Int) < n then (s, .run (min vl n.toNat) none [] [])
          else if complete then (s, .run vs none [] [])
          else
            match h.fault with
            | some f => (s.setCmds p (faultTaken h cmds), .recorded f)
            | none => (s.setCmds p (retried cmds), .wait .other)

/-- The fields of a queue object from its first 32 bytes (R305): QTAIL, QHEAD, QENT, QCAP, QOWNER. -/
structure QueueObj where
  tail : Nat
  head : Nat
  ent : Word
  cap : Nat
  owner : Nat
  deriving DecidableEq, Repr

/-- Read a queue object from its bytes. -/
def QueueObj.ofBytes (b : List Byte) : QueueObj :=
  ⟨leNat (b.take 8), leNat ((b.drop 8).take 8), BitVec.ofNat 64 (leNat ((b.drop 16).take 8)),
    leNat ((b.drop 24).take 4), leNat ((b.drop 28).take 4)⟩

/-- Translate the entries that CAPP writes, as stores (R306). -/
def State.cappEntries (q : QueueObj) : List Nat → State → State × Except Stop (List (Nat × List Nat))
  | [], s => (s, .ok [])
  | i :: l, s =>
    match s.span .plain .write (q.ent + 4 * BitVec.ofNat 64 ((q.tail + i) % q.cap)) 4 with
    | (s, .error e) => (s, .error e)
    | (s, .ok b) =>
      match State.cappEntries q l s with
      | (s, .error e) => (s, .error e)
      | (s, .ok m) => (s, .ok ((i, b.map (·.key)) :: m))

/-- The plan of CAPP (R306): its update of QTAIL is a release (R191). A fault is taken with VSTART = VL, after the other members have committed. -/
def State.cappPlan (s : State) (addr : Word) (m : Bool) (c : LCore) : State × Plan :=
  let vl := s.lc.vl
  let k := (c.activeIn m 0 vl).length
  let fault (s : State) (e : Stop) : State × Plan :=
    match e with
    | .trap cause tval => (s, .run vl (some (vl, .trap cause tval)) [] [])
    | .held => (s, .wait .other)
    | e => (s, .now e)
  if k = 0 then (s, .run vl none [] [])
  else if s.owes then (s, .wait .other)
  else if addr.toNat / 2 ^ 51 != 0 then fault s (.trap .bounds addr)
  else if addr.toNat % 64 != 0 then fault s (.trap .misalign addr)
  else
    match s.span .vectorAtomic .rmw addr 64 with
    | (s, .error e) => fault s e
    | (s, .ok l) =>
      match s.load l with
      | (s, .error e) => fault s e
      | (s, .ok b) =>
        let s := s.dropLines s.core (l.map (·.key))
        let q := QueueObj.ofBytes b
        if q.cap = 0 ∨ 16777216 < q.cap ∨ q.ent.toNat % 4 ≠ 0 ∨ (b.drop 32).any (· != 0) then
          fault s (.trap .pageKind addr)
        else if q.cap < (q.tail + k + 2 ^ 64 - q.head) % 2 ^ 64 then fault s (.trap .bounds addr)
        else
          match State.cappEntries q (List.range k) s with
          | (s, .error e) => fault s e
          | (s, .ok m) => (s, .run vl none (m ++ [(k, (l.map (·.key)).take 8)]) [(0, b)])

/-- VSTXR is a release (R168): while it has elements to perform, and what VSTP has pushed is not in memory (R189). -/
def State.releaseWaits (s : State) : Instr → Bool
  | .vstxr _ => decide (s.lc.vstart.toNat < s.lc.vl) && s.owes
  | _ => false

/-- The plan of a memory member; of any other instruction, that all its elements run. -/
def State.planOf (s : State) (i : Instr) (c : LCore) : State × Plan :=
  match i with
  | .vldp f => s.portPlan (encode i) f.s1.toNat false
  | .vstp f => s.portPlan (encode i) f.s1.toNat true
  | .capp f => s.cappPlan (s.lc.rd f.s1) f.m c
  | i =>
    match memOp s.lc none i with
    | none => (s, .run s.lc.vl none [] [])
    | some o => if s.releaseWaits i then (s, .wait .other) else s.vmemPlan o c

/-- The record that a member read at issue (R162). -/
def State.recordOf (s : State) : Instr → Option Shape
  | .vldt f | .vstt f => some (s.lc.shape f.x.toNat)
  | _ => none

/-! ## Running the members -/

/-- An access or a convoy does not perform (R95, R101, R440): the trap at a place and a VSTART, the kill of
the context by poison, the wait of a store held by the swap engine, or no place. -/
def State.stopped (s : State) (why : Stop) (memb : Nat) (vst : BitVec 13) : Host.Outcome State Fault Refusal :=
  match why with
  | .trap c v => .next (s.deliver ⟨c, v, BitVec.ofNat 2 memb, s.lc.pc, vst⟩)
  | .poison => .next (s.kill s.lc.job.ctx Cause.poison.code s.cur)
  | .held => .next (s.waiting .other)
  | .noPlace a => .fault (.noSuchPlace a)

/-- Completion (R241): VL as trimmed, VSTART 0, control passes to the word after the last member. -/
def LCore.finish (c : LCore) (n vl : Nat) : LCore :=
  { c with vl := vl, vstart := 0, pc := c.pc + BitVec.ofNat 64 (4 * n) }

/-- The group boundary at which a stop request ends a convoy (R241, R427); never below VSTART, since every element below
it has committed. -/
def State.groupEnd (s : State) : Option Nat :=
  (s.thr s.cur).stopAsked.map fun j =>
    let g := Vtype.groupOf (Vtype.c s.lc.vtype)
    max s.lc.vstart.toNat ((s.lc.vstart.toNat / g + j) * g)

/-- That boundary when it lies below `hi`. -/
def State.stopAt (s : State) (hi : Nat) : Option Nat := s.groupEnd.filter (· < hi)

/-- The VSTART at which a stop request ends a convoy whose memory member stops so, or does not (R241): a boundary below
the element of a trap; else one up to the end of the last group, where every element has committed and VSTART reads VL.
A boundary past that comes after the convoy has completed (log entry 11). -/
def State.convoyStop (s : State) (vl : Nat) : Option (Nat × Stop) → Option Nat
  | some x => s.stopAt x.1
  | none =>
    let g := Vtype.groupOf (Vtype.c s.lc.vtype)
    (s.groupEnd.filter fun e => decide (e ≤ (vl + g - 1) / g * g)).map fun e => max s.lc.vstart.toNat (min e vl)

/-- Run members in program order over a window (R236). Old values that a later one names arrive first (R172). -/
def runAll (run : Instr → Window → State → State) (w : Window) : List Instr → State → State
  | [], s => s
  | [i], s => run i w s
  | i :: ms, s =>
    let t := run i w s
    runAll run w ms (if t.lc.awaits ((ms.filterMap t.memberOf).flatMap (·.groups)) then t.setLc t.lc.takeOldVals else t)

/-- Run the members in program order over a plan (R236, R241, R242). `memb` is the memory member's place. -/
def runWindow (ms : List Instr) (run : Instr → Window → State → State) (memb vl : Nat) (stop : Option (Nat × Stop))
    (places : List (Nat × List Nat)) (data : List (Nat × List Byte)) (shape : Option Shape) (s : State) :
    Host.Outcome State Fault Refusal :=
  let lo := s.lc.vstart.toNat
  let all (w : Window) : State := runAll run w ms s
  match s.convoyStop vl stop with
  | some e =>
    let s := all ⟨lo, e, vl, false, places, data, shape⟩
    .next (s.setLc { s.lc with vl := vl, vstart := BitVec.ofNat 13 e })
  | none =>
    match stop with
    | some (f, why) =>
      let s := all ⟨lo, f, vl, false, places, data, shape⟩
      (s.setLc { s.lc with vl := vl }).stopped why memb (BitVec.ofNat 13 f)
    | none =>
      let s := all ⟨lo, vl, vl, true, places, data, shape⟩
      .next (s.setLc (s.lc.finish ms.length vl))

/-- After the checks and the scoreboard: the plan of the memory member, on what the members before it leave
(R236), and the members over it. -/
def runGroup (ms : List Instr) (mems : List Member) (run : Instr → Window → State → State) (s : State) :
    Host.Outcome State Fault Refusal :=
  match mems.findIdx? (·.pipes.contains .memory) with
  | none => runWindow ms run 0 s.lc.vl none [] [] none s
  | some k =>
    let i := ms.getD k .leaveGrant
    let w : Window := ⟨s.lc.vstart.toNat, s.lc.vl, s.lc.vl, false, [], [], none⟩
    let before := (runAll run w (ms.take k) s).lc
    match s.planOf i before with
    | (t, .run vl stop places data) => runWindow ms run k vl stop places data (s.recordOf i) t
    | (t, .now why) => t.stopped why k t.lc.vstart
    | (t, .recorded f) => t.stopped (.trap f.cause f.addr) 0 t.lc.vstart
    | (t, .wait why) => .next (t.waiting why)

/-- The issue of a convoy (R78, R172, R213): old values still to arrive in its registers, the checks, the
tokens, then its members. `broken` is a member that breaks the formation rules of R49. -/
def issueGroup (broken : Option Nat) (ms : List Instr) (run : Instr → Window → State → State) (s : State) :
    Host.Outcome State Fault Refusal :=
  let mems : List Member := ms.filterMap s.memberOf
  if s.lc.awaits (mems.flatMap (·.groups)) then .next (s.waiting .other)
  else
    match issueCheck s.lc broken mems with
    | some (cause, k) =>
      .next (s.deliver ⟨cause, (((mems[k]?).map Member.word).getD 0).setWidth 64, BitVec.ofNat 2 k, s.lc.pc, s.lc.vstart⟩)
    | none => scalar (mems.flatMap (·.gs)) s (runGroup ms mems run)

/-- A convoy-capable instruction: in a window its effect alone; by itself, a convoy of one. -/
def member (i : Instr) (eff : Window → State → State) (s : State) : Host.Outcome State Fault Refusal :=
  match s.win with
  | some w => .next (eff w s)
  | none => issueGroup none [i] (fun _ w s => eff w s) s

/-- An instruction that is not convoy-capable but is checked by R78: its checks, the scoreboard, its effect. -/
def checked (x : Member) (s : State) (k : State → Host.Outcome State Fault Refusal) :
    Host.Outcome State Fault Refusal :=
  if s.lc.awaits x.groups then .next (s.waiting .other)
  else
    match issueCheck s.lc none [x] with
    | some (cause, _) => .next (s.trap cause (x.word.setWidth 64))
    | none => scalar x.gs s k

end Sys2Proof.Machine
end

