-- ==== Sys2Proof/Machine/Turn.lean ====
section
/-! DEFINITION. The turn of a thread: fetch (R42, R89, R174), the words of a convoy (R49), the checks 1 and
2 of R78, and the issue of what was fetched by the meanings that it is given. -/

namespace Sys2Proof.Machine

/-! ## Fetch -/

/-- A word of major 0x20 to 0x26, 0x40 to 0x4A, 0x50, or HVBIND to HVSIM, VLDP, VSTP: convoy-capable (R49). One with
a reserved function code counts as a member, ILLEGAL at its place (log entry 65). -/
def convoyWord (w : IWord) : Bool :=
  let major := (w.extractLsb' 0 7).toNat
  let fn6 := (w.extractLsb' 26 6).toNat
  (decide (0x20 ≤ major) && decide (major ≤ 0x26)) || (decide (0x40 ≤ major) && decide (major ≤ 0x4A))
    || major == 0x50 || (major == 0x58 && decide (2 ≤ fn6) && decide (fn6 ≤ 6))
    || (major == 0x68 && (fn6 == 8 || fn6 == 9))

/-- The convoy bit of a convoy-capable word (R43). -/
def convoyBit (w : IWord) : Bool := w.getLsbD 24

/-- A byte as the fetch of a core sees it: its instruction cache, else memory (R174). -/
def State.codeByte (s : State) (key : Nat) : Byte :=
  (Cells.get? s.icache (cacheKey s.core key)).getD (Memory.get s.mem key)

/-- Fetch the word at an address (R42, R89, R96): translated for execution through the second-level TLB. -/
def State.fetchWord (s : State) (va : Word) : State × Except Stop IWord :=
  match s.span .fetch .fetch va 4 with
  | (s, .error e) => (s, .error e)
  | (s, .ok l) =>
    match s.read (l.map (·.key)) with
    | (s, none) => (s, .error .poison)
    | (s, some _) => (s, .ok (BitVec.ofNat 32 (leNat (l.map fun b => s.codeByte b.key))))

/-- Fetch the members of a convoy after its first word (R49), with the place of the member that breaks the
formation rules, if one does: the fourth with cv = 1, or one whose next word is not convoy-capable. A fetch that
faults has the place of its word; after a fourth member, that of the member judged (log entry 64). -/
def State.gather (w : IWord) : Nat → Nat → State → Word → State × Except (Stop × Nat) (List IWord × Option Nat)
  | 0, _, s, _ => (s, .ok ([w], none))
  | fuel + 1, k, s, va =>
    if !(convoyWord w && convoyBit w) then (s, .ok ([w], none))
    else
      match s.fetchWord (va + 4) with
      | (s, .error e) => (s, .error (e, min (k + 1) 3))
      | (s, .ok x) =>
        if k = 3 || !convoyWord x then (s, .ok ([w], some k))
        else
          match State.gather x fuel (k + 1) s (va + 4) with
          | (s, .error e) => (s, .error e)
          | (s, .ok (l, b)) => (s, .ok (w :: l, b))

/-- The words that issue together at an address (R49). -/
def State.fetchGroup (s : State) (va : Word) : State × Except (Stop × Nat) (List IWord × Option Nat) :=
  match s.fetchWord va with
  | (s, .error e) => (s, .error (e, 0))
  | (s, .ok w) => State.gather w 4 0 s va

/-! ## Issue -/

/-- The instructions of some words, or the place and word of the first that is none (R55). -/
def decodeAll (dec : IWord → Option Instr) : Nat → List IWord → Except (Nat × IWord) (List Instr)
  | _, [] => .ok []
  | k, w :: l =>
    match dec w with
    | none => .error (k, w)
    | some i =>
      match decodeAll dec (k + 1) l with
      | .error e => .error e
      | .ok m => .ok (i :: m)

/-- One member of a convoy under a window, by its meaning. -/
def runMember (ex : Instr → State → Host.Outcome State Fault Refusal) (i : Instr) (w : Window) (s : State) : State :=
  match ex i { s with win := some w } with
  | .next t => { t with win := none }
  | _ => s

/-- Issue what was fetched: one instruction by its meaning, several words as a convoy. -/
def issueAll (ex : Instr → State → Host.Outcome State Fault Refusal) (broken : Option Nat) (ms : List Instr)
    (s : State) : Host.Outcome State Fault Refusal :=
  match ms, broken with
  | [i], none => ex i s
  | ms, b => issueGroup b ms (runMember ex) s

/-- Fetch and issue at the pc of the thread whose turn it is (R78). -/
def State.issueAt (dec : IWord → Option Instr) (ex : Instr → State → Host.Outcome State Fault Refusal) (s : State) :
    Host.Outcome State Fault Refusal :=
  match s.fetchGroup s.lc.pc with
  | (s, .error (e, k)) => s.stopped e k s.lc.vstart
  | (s, .ok (ws, broken)) =>
    match decodeAll dec 0 ws with
    | .error (k, w) =>
      .next (s.deliver ⟨.illegal, w.setWidth 64, BitVec.ofNat 2 k, s.lc.pc, s.lc.vstart⟩)
    | .ok ms => issueAll ex broken ms s

/-- A wait of the last turn ends: the instruction is executed again. A BWAIT or BARW in its wait has issued already: it
keeps what it waits for (R246). -/
def State.wake (s : State) : State :=
  match s.lc.waitFor with
  | .none | .bwait _ _ | .barw _ _ => s
  | _ => s.setLc { s.lc with waitFor := .none }

/-- The thread's HVFACT is under way: it stops by itself, at its next boundary (R329). -/
def State.factoring (s : State) : Bool :=
  match FMap.get? s.factHolder s.core with
  | some h => h.thr == s.cur && h.run.isSome
  | none => false

/-- SAVECTX retires once no thread holds a logical core of the context it saves, or the context is resident
again (R434). -/
def State.saveRetire (s : State) (ctx : Nat) (d : Reg) : State :=
  if !s.contexts.contains ctx && s.threads.any (fun t => t.2.occupied && t.2.lc.job.ctx == ctx) then s
  else s.setLc { s.lc.wr d 0 with waitFor := .none, pc := s.lc.pc + 4 }

/-- A stop request takes effect after what has issued, unless packets of it are still under way (R427). -/
def State.stopIfAsked (s : State) (asked : Option Nat) : State :=
  match asked with
  | none => s
  | some _ =>
    let t := s.thr s.cur
    if t.occupied && !s.spans.any (·.thr == s.cur) && !s.factoring && !t.fwd then s.setThr s.cur { t with stopAsked := some 0, stopped := true } else s

/-- The turn of a thread: nothing when it holds no logical core or has stopped; at an instruction boundary, what
TFWD left to it (R420), or a stop, unless a BUNREACH is due first (R425); nothing while its MMA waits for the unit
(R357); otherwise issue (R427). -/
def State.turn (dec : IWord → Option Instr) (ex : Instr → State → Host.Outcome State Fault Refusal) (s : State) :
    Host.Outcome State Fault Refusal :=
  let t := s.thr s.cur
  if !t.occupied || t.stopped || t.lc.blocked then .next s
  else if let some (ctx, d) := t.lc.saving then .next (s.saveRetire ctx d)
  else if t.fwd && !s.midway s.cur then .next ((s.setThr s.cur { t with fwd := false }).abandon s.cur)
  else if t.stopAsked = some 0 ∧ !s.spans.any (·.thr == s.cur) ∧ !s.factoring ∧ !t.lc.unreachMark then .next (s.stopIfAsked t.stopAsked)
  else if s.passWaits s.cur then .next s
  else
    match State.issueAt dec ex s.wake with
    | .next u => .next (u.stopIfAsked t.stopAsked)
    | r => r

end Sys2Proof.Machine
end

