-- ==== Sys2Proof/Machine/Agenda.lean ====
section
/-! DEFINITION. The agenda (log entry 2): what takes effect next, as plain data: the turn of a thread, the
passing of time, a step of an engine or of the outside, and acts of caches, arrays and meters. -/

namespace Sys2Proof.Machine

/-- The byte of memory at a key enters the scalar data cache of a core, where it may be held (R149, R196). It is read:
its word meets its error, and a poisoned one gives no byte (R436, R439, R440). -/
def State.fillData (s : State) (core key : Nat) : State :=
  if cacheable core key then
    match s.read [key] with
    | (s, none) => s
    | (s, some _) => { s with dcache := Cells.put s.dcache (cacheKey core key) (Memory.get s.mem key) }
  else s

/-- A byte leaves the scalar data cache. -/
def State.dropData (s : State) (core key : Nat) : State :=
  { s with dcache := FMap.erase s.dcache (cacheKey core key) }

/-- The byte of memory at a key enters the instruction cache of a core (R174), as it does the other. -/
def State.fillInsn (s : State) (core key : Nat) : State :=
  match s.read [key] with
  | (s, none) => s
  | (s, some _) => { s with icache := Cells.put s.icache (cacheKey core key) (Memory.get s.mem key) }

/-- A byte leaves the instruction cache. -/
def State.dropInsn (s : State) (core key : Nat) : State :=
  { s with icache := FMap.erase s.icache (cacheKey core key) }

/-- A translation leaves a TLB bank (R92). -/
def State.dropTlb (s : State) (core bank vpn : Nat) : State :=
  { s with tlb := s.tlb.filter fun e => !(e.core == core && e.bank == bank && e.vpn == vpn) }

/-- An upset of an array word (log entry 12): an error is present there until it is met or overwritten. -/
def State.upset (s : State) (word : Nat) (bit : Option Nat) : State :=
  { s with latent := ⟨wordOf word, bit⟩ :: s.latent.filter (·.word != wordOf word) }

/-- One act. `ex` gives the meanings, `turn` the turn of a thread, `boot` a step of the management core. -/
def State.act (ex : Instr → State → Host.Outcome State Fault Refusal)
    (turn : State → Host.Outcome State Fault Refusal) (boot : State → State) (s : State) : Act → Host.Outcome State Fault Refusal
  | .turn t => if t < Config.threads then turn { s with cur := t } else .next s
  | .tick ns => .next { s with dtime := s.dtime + ns }
  | .event i => if i.isEvent then ex i s else .next s
  | .fillData core key => .next (s.fillData core key)
  | .dropData core key => .next (s.dropData core key)
  | .fillInsn core key => .next (s.fillInsn core key)
  | .dropInsn core key => .next (s.dropInsn core key)
  | .dropTlb core bank vpn => .next (s.dropTlb core bank vpn)
  | .upset word bit => .next (s.upset word bit)
  | .remapUpset e => .next { s with remapErrors := s.remapErrors ++ [e] }
  | .power p => .next { s with gov := { s.gov with pm := p } }
  | .facts p => .next { s with pkg := p }
  | .boot => .next (boot s)

/-- One step of the device: the head of the agenda takes effect; with none, the thread whose turn it is goes
on, or the management core boots, or nothing happens. -/
def State.advance (ex : Instr → State → Host.Outcome State Fault Refusal)
    (turn : State → Host.Outcome State Fault Refusal) (boot : State → State) (s : State) :
    Host.Outcome State Fault Refusal :=
  match s.agenda with
  | a :: l => State.act ex turn boot { s with agenda := l } a
  | [] => if (s.thr s.cur).occupied then turn s else .next (boot s)

end Sys2Proof.Machine
end

