-- ==== Sys2Proof/Machine/Scalar.lean ====
section
/-! DEFINITION. Scalar integer instructions, branches, jumps and LOOP (R253 to R256, R260 to R262). -/

namespace Sys2Proof.Machine

/-! ## The shared forms -/

/-- Register d takes a value and control passes to the next word. -/
def State.put (s : State) (d : Reg) (x : Word) : State := s.setLc (s.lc.wr d x).advance

/-- d from a and b. -/
def opABD (f : SF) (op : Word → Word → Word) (s : State) : Host.Outcome State Fault Refusal :=
  scalar [f.d, f.a, f.b] s fun s => .next (s.put f.d (op (s.lc.rd f.a) (s.lc.rd f.b)))

/-- d from a. -/
def opAD (f : SF) (op : Word → Word) (s : State) : Host.Outcome State Fault Refusal :=
  scalar [f.d, f.a] s fun s => .next (s.put f.d (op (s.lc.rd f.a)))

/-- d from a and SignExt(imm15) (R256). -/
def opImm (f : IF) (op : Word → Word → Word) (s : State) : Host.Outcome State Fault Refusal :=
  scalar [f.d, f.a] s fun s => .next (s.put f.d (op (s.lc.rd f.a) (imm15 f.imm)))

/-- d from a and a shift amount (R256). -/
def opShift (f : HF) (op : Word → Nat → Word) (s : State) : Host.Outcome State Fault Refusal :=
  scalar [f.d, f.a] s fun s => .next (s.put f.d (op (s.lc.rd f.a) f.shamt.toNat))

/-- Control passes to a + offset words when a condition on a and b holds (R260). -/
def branch (f : BF) (cond : Word → Word → Bool) (s : State) : Host.Outcome State Fault Refusal :=
  scalar [f.a, f.b] s fun s =>
    .next (s.setLc (if cond (s.lc.rd f.a) (s.lc.rd f.b) then { s.lc with pc := s.lc.pc + off15 f.off } else s.lc.advance))

/-! ## The operations on words (R254, R255) -/

/-- 1 for true, 0 for false. -/
def ofBool (b : Bool) : Word := if b then 1 else 0

/-- Shift amount g[b][5:0]. -/
def shamt (b : Word) : Nat := (b.extractLsb' 0 6).toNat

/-- High half of the signed product. -/
def mulHigh (a b : Word) : Word := (a.signExtend 128 * b.signExtend 128).extractLsb' 64 64

/-- High half of the unsigned product. -/
def mulHighN (a b : Word) : Word := (a.setWidth 128 * b.setWidth 128).extractLsb' 64 64

/-- DIV: truncated toward zero; all ones for a zero divisor (R255). -/
def divS (a b : Word) : Word := if b = 0 then BitVec.allOnes 64 else a.sdiv b

/-- DIVN. -/
def divN (a b : Word) : Word := if b = 0 then BitVec.allOnes 64 else a / b

/-- REM: the sign of the dividend; the dividend for a zero divisor (R255). -/
def remS (a b : Word) : Word := if b = 0 then a else a.srem b

/-- REMN. -/
def remN (a b : Word) : Word := if b = 0 then a else a % b

/-- Trailing zero bits; 64 when there is no 1. -/
def trailing (a : Word) : Nat := ((List.range 64).find? fun i => a.getLsbD i).getD 64

/-! ## Meanings -/

/-- ADD (R254). -/
def execAdd (f : SF) (s : State) : Host.Outcome State Fault Refusal := opABD f (· + ·) s
/-- SUB (R254). -/
def execSub (f : SF) (s : State) : Host.Outcome State Fault Refusal := opABD f (· - ·) s
/-- AND (R254). -/
def execAnd (f : SF) (s : State) : Host.Outcome State Fault Refusal := opABD f (· &&& ·) s
/-- OR (R254). -/
def execOr (f : SF) (s : State) : Host.Outcome State Fault Refusal := opABD f (· ||| ·) s
/-- XOR (R254). -/
def execXor (f : SF) (s : State) : Host.Outcome State Fault Refusal := opABD f (· ^^^ ·) s
/-- SLL (R254). -/
def execSll (f : SF) (s : State) : Host.Outcome State Fault Refusal := opABD f (fun a b => a <<< shamt b) s
/-- SRL (R254). -/
def execSrl (f : SF) (s : State) : Host.Outcome State Fault Refusal := opABD f (fun a b => a >>> shamt b) s
/-- SRA (R254). -/
def execSra (f : SF) (s : State) : Host.Outcome State Fault Refusal := opABD f (fun a b => a.sshiftRight (shamt b)) s
/-- SLT (R254). -/
def execSlt (f : SF) (s : State) : Host.Outcome State Fault Refusal := opABD f (fun a b => ofBool (a.slt b)) s
/-- SLTN (R254). -/
def execSltn (f : SF) (s : State) : Host.Outcome State Fault Refusal := opABD f (fun a b => ofBool (a.ult b)) s
/-- MIN (R254). -/
def execMin (f : SF) (s : State) : Host.Outcome State Fault Refusal := opABD f (fun a b => if b.slt a then b else a) s
/-- MAX (R254). -/
def execMax (f : SF) (s : State) : Host.Outcome State Fault Refusal := opABD f (fun a b => if a.slt b then b else a) s
/-- MINN (R254). -/
def execMinn (f : SF) (s : State) : Host.Outcome State Fault Refusal := opABD f (fun a b => if b.ult a then b else a) s
/-- MAXN (R254). -/
def execMaxn (f : SF) (s : State) : Host.Outcome State Fault Refusal := opABD f (fun a b => if a.ult b then b else a) s
/-- MUL (R254). -/
def execMul (f : SF) (s : State) : Host.Outcome State Fault Refusal := opABD f (· * ·) s
/-- MULH (R254). -/
def execMulh (f : SF) (s : State) : Host.Outcome State Fault Refusal := opABD f mulHigh s
/-- MULHN (R254). -/
def execMulhn (f : SF) (s : State) : Host.Outcome State Fault Refusal := opABD f mulHighN s
/-- DIV (R254, R255). -/
def execDiv (f : SF) (s : State) : Host.Outcome State Fault Refusal := opABD f divS s
/-- DIVN (R254, R255). -/
def execDivn (f : SF) (s : State) : Host.Outcome State Fault Refusal := opABD f divN s
/-- REM (R254, R255). -/
def execRem (f : SF) (s : State) : Host.Outcome State Fault Refusal := opABD f remS s
/-- REMN (R254, R255). -/
def execRemn (f : SF) (s : State) : Host.Outcome State Fault Refusal := opABD f remN s
/-- CLZ (R254). -/
def execClz (f : SF) (s : State) : Host.Outcome State Fault Refusal := opAD f (fun a => a.clz) s
/-- CTZ (R254). -/
def execCtz (f : SF) (s : State) : Host.Outcome State Fault Refusal := opAD f (fun a => BitVec.ofNat 64 (trailing a)) s
/-- POPC (R254). -/
def execPopc (f : SF) (s : State) : Host.Outcome State Fault Refusal := opAD f (fun a => a.cpop) s

/-- ADDI (R256). -/
def execAddi (f : IF) (s : State) : Host.Outcome State Fault Refusal := opImm f (· + ·) s
/-- ANDI (R256). -/
def execAndi (f : IF) (s : State) : Host.Outcome State Fault Refusal := opImm f (· &&& ·) s
/-- ORI (R256). -/
def execOri (f : IF) (s : State) : Host.Outcome State Fault Refusal := opImm f (· ||| ·) s
/-- XORI (R256). -/
def execXori (f : IF) (s : State) : Host.Outcome State Fault Refusal := opImm f (· ^^^ ·) s
/-- SLTI (R256). -/
def execSlti (f : IF) (s : State) : Host.Outcome State Fault Refusal := opImm f (fun a b => ofBool (a.slt b)) s
/-- SLLI (R256). -/
def execSlli (f : HF) (s : State) : Host.Outcome State Fault Refusal := opShift f (fun a n => a <<< n) s
/-- SRLI (R256). -/
def execSrli (f : HF) (s : State) : Host.Outcome State Fault Refusal := opShift f (fun a n => a >>> n) s
/-- SRAI (R256). -/
def execSrai (f : HF) (s : State) : Host.Outcome State Fault Refusal := opShift f (fun a n => a.sshiftRight n) s

/-- LUI (R256). -/
def execLui (f : UF) (s : State) : Host.Outcome State Fault Refusal :=
  scalar [f.d] s fun s => .next (s.put f.d (upper20 f.imm))

/-- AUIPC (R256): relative to the address of its own word. -/
def execAuipc (f : UF) (s : State) : Host.Outcome State Fault Refusal :=
  scalar [f.d] s fun s => .next (s.put f.d (s.lc.pc + upper20 f.imm))

/-- JAL (R261). -/
def execJal (f : UF) (s : State) : Host.Outcome State Fault Refusal :=
  scalar [f.d] s fun s =>
    .next (s.setLc { s.lc.wr f.d (s.lc.pc + 4) with pc := s.lc.pc + off20 f.imm })

/-- JALR (R261): a target that is no multiple of 4 raises MISALIGN and writes nothing (R42). -/
def execJalr (f : IF) (s : State) : Host.Outcome State Fault Refusal :=
  scalar [f.d, f.a] s fun s =>
    let t := s.lc.rd f.a + imm15 f.imm
    if t.toNat % 4 = 0 then .next (s.setLc { s.lc.wr f.d (s.lc.pc + 4) with pc := t })
    else .next (s.trap .misalign t)

/-- LOOP (R262). -/
def execLoop (f : BF) (s : State) : Host.Outcome State Fault Refusal :=
  scalar [f.a] s fun s =>
    let old := s.lc.rd f.a
    if old = 0 then .next (s.setLc s.lc.advance)
    else
      let c := s.lc.wr f.a (old - 1)
      .next (s.setLc (if old - 1 = 0 then c.advance else { c with pc := s.lc.pc + off15 f.off }))

/-- BEQ (R260). -/
def execBeq (f : BF) (s : State) : Host.Outcome State Fault Refusal := branch f (fun a b => a == b) s
/-- BNE (R260). -/
def execBne (f : BF) (s : State) : Host.Outcome State Fault Refusal := branch f (fun a b => a != b) s
/-- BLT (R260). -/
def execBlt (f : BF) (s : State) : Host.Outcome State Fault Refusal := branch f (fun a b => a.slt b) s
/-- BGE (R260). -/
def execBge (f : BF) (s : State) : Host.Outcome State Fault Refusal := branch f (fun a b => !a.slt b) s
/-- BLTN (R260). -/
def execBltn (f : BF) (s : State) : Host.Outcome State Fault Refusal := branch f (fun a b => a.ult b) s
/-- BGEN (R260). -/
def execBgen (f : BF) (s : State) : Host.Outcome State Fault Refusal := branch f (fun a b => !a.ult b) s

end Sys2Proof.Machine
end

