-- ==== Sys2Proof/Machine/ScalarFp.lean ====
section
/-! DEFINITION. Scalar floating point (R257 to R259). -/

namespace Sys2Proof.Machine

/-- The format of a width (R257). -/
def fmtOf (wide : Bool) : Fmt := if wide then .fp64 else .fp32

/-- An operand of a width: the whole register, or bits [31:0] (R257). -/
def fpIn (wide : Bool) (x : Word) : Nat := if wide then x.toNat else x.toNat % 2 ^ 32

/-- d from a and b in floating point, rounded under FRM, flags raised (R257). -/
def opF (f : FF) (op : Fmt → Nat → Nat → BitVec 2 → Nat × BitVec 5) (s : State) :
    Host.Outcome State Fault Refusal :=
  scalar [f.d, f.a, f.b] s fun s =>
    let r := op (fmtOf f.wide) (fpIn f.wide (s.lc.rd f.a)) (fpIn f.wide (s.lc.rd f.b)) s.lc.frm
    .next (s.setLc ((s.lc.wr f.d (BitVec.ofNat 64 r.1)).raise r.2).advance)

/-- FADD (R258). -/
def execFadd (f : FF) (s : State) : Host.Outcome State Fault Refusal := opF f Fmt.fadd s
/-- FSUB (R258). -/
def execFsub (f : FF) (s : State) : Host.Outcome State Fault Refusal := opF f Fmt.fsub s
/-- FMUL (R258). -/
def execFmul (f : FF) (s : State) : Host.Outcome State Fault Refusal := opF f Fmt.fmul s
/-- FDIV (R143, R258). -/
def execFdiv (f : FF) (s : State) : Host.Outcome State Fault Refusal := opF f Fmt.fdiv s
/-- FMIN (R258): no flag. -/
def execFmin (f : FF) (s : State) : Host.Outcome State Fault Refusal := opF f (fun g a b _ => (g.fmin a b, 0)) s
/-- FMAX (R258): no flag. -/
def execFmax (f : FF) (s : State) : Host.Outcome State Fault Refusal := opF f (fun g a b _ => (g.fmax a b, 0)) s

/-- FSQRT (R143, R258). -/
def execFsqrt (f : FF) (s : State) : Host.Outcome State Fault Refusal :=
  scalar [f.d, f.a] s fun s =>
    let r := (fmtOf f.wide).fsqrt (fpIn f.wide (s.lc.rd f.a)) s.lc.frm
    .next (s.setLc ((s.lc.wr f.d (BitVec.ofNat 64 r.1)).raise r.2).advance)

/-- FMA: d := a · b + d, rounded once (R258). -/
def execFma (f : FF) (s : State) : Host.Outcome State Fault Refusal :=
  scalar [f.d, f.a, f.b] s fun s =>
    let r := (fmtOf f.wide).ffma false (fpIn f.wide (s.lc.rd f.a)) (fpIn f.wide (s.lc.rd f.b))
      (fpIn f.wide (s.lc.rd f.d)) s.lc.frm
    .next (s.setLc ((s.lc.wr f.d (BitVec.ofNat 64 r.1)).raise r.2).advance)

/-- FCMP n (R258): an integer 0 or 1. -/
def execFcmp (f : FCF) (s : State) : Host.Outcome State Fault Refusal :=
  scalar [f.d, f.a, f.b] s fun s =>
    let r := (fmtOf f.wide).fcmp f.n.toNat (fpIn f.wide (s.lc.rd f.a)) (fpIn f.wide (s.lc.rd f.b))
    .next (s.setLc ((s.lc.wr f.d (ofBool r.1)).raise r.2).advance)

/-- FMV (R258): bits moved unchanged. -/
def execFmv (f : FF) (s : State) : Host.Outcome State Fault Refusal :=
  scalar [f.d, f.a] s fun s => .next (s.put f.d (BitVec.ofNat 64 (fpIn f.wide (s.lc.rd f.a))))

/-- The conversions of FCVT (R259): the value and its flags. -/
def fcvt (wide : Bool) (n : Nat) (x : Word) (rm : BitVec 2) : Word × BitVec 5 :=
  let g := fmtOf wide
  match n with
  | 0 =>
    let r := (g.decode (fpIn wide x)).toInt true 64 rm
    (BitVec.ofNat 64 r.code, r.flags)
  | 1 =>
    let r := (g.decode (fpIn wide x)).toInt false 64 rm
    (BitVec.ofNat 64 r.code, r.flags)
  | 2 =>
    let r := g.ofInt x.toInt rm
    (BitVec.ofNat 64 r.1, r.2)
  | 3 =>
    let r := g.ofInt x.toNat rm
    (BitVec.ofNat 64 r.1, r.2)
  | _ =>
    let v := (fmtOf !wide).decode (fpIn (!wide) x)
    if wide then
      let r := Fmt.fp64.ofVal v rm
      (BitVec.ofNat 64 r.1, r.2)
    else
      let r := Fmt.fp32.narrow v rm
      (BitVec.ofNat 64 r.code, r.flags)

/-- FCVT (R259). -/
def execFcvt (f : FF) (s : State) : Host.Outcome State Fault Refusal :=
  scalar [f.d, f.a] s fun s =>
    let r := fcvt f.wide f.b.toNat (s.lc.rd f.a) s.lc.frm
    .next (s.setLc ((s.lc.wr f.d r.1).raise r.2).advance)

end Sys2Proof.Machine
end

