-- ==== Sys2Proof/Machine/ScalarMem.lean ====
section
/-! DEFINITION. Scalar loads and stores (R147 to R149), LDACQ, STREL and the scalar atomics (R150 to R154),
and FENCE (R173, R174). -/

namespace Sys2Proof.Machine

/-! ## Loads and stores -/

/-- A byte as a plain scalar load sees it: the core's data cache, else memory (R149, R196). -/
def State.dataByte (s : State) (key : Nat) : Byte :=
  (Cells.get? s.dcache (cacheKey s.core key)).getD (Memory.get s.mem key)

/-- Read the bytes of a plain scalar load: what the cache does not hold is read from memory, where poison
stops it (R149, R440). -/
def State.loadPlain (s : State) (l : List ByteAt) : State × Option (List Byte) :=
  match s.read ((l.map (·.key)).filter fun k => (Cells.get? s.dcache (cacheKey s.core k)).isNone) with
  | (s, none) => (s, none)
  | (s, some _) => (s, some (l.map fun b => s.dataByte b.key))

/-- Update the copies that a core's data cache holds of stored bytes (R149). -/
def State.updateCache (s : State) (core : Nat) (l : List (Nat × Byte)) : State :=
  { s with dcache := s.dcache.map fun c =>
      match l.find? fun p => cacheKey core p.1 == c.1 with
      | some p => (c.1, p.2)
      | none => c }

/-- The checks of a scalar access in the order of R96, then its translation. -/
def State.scalarAccess (s : State) (cls : AccClass) (acc : Acc) (addr : Word) (n : Nat) :
    State × Except Stop (List ByteAt) :=
  if addr.toNat / 2 ^ 51 != 0 then (s, .error (.trap .bounds addr))
  else if addr.toNat % n != 0 then (s, .error (.trap .misalign addr))
  else s.span cls acc addr n

/-- A scalar load of n bytes (R148). `ext` extends what was loaded. -/
def scalarLoad (n : Nat) (ext : Nat → Word) (f : IF) (s : State) : Host.Outcome State Fault Refusal :=
  scalar [f.d, f.a] s fun s =>
    match s.scalarAccess .plain .read (s.lc.rd f.a + imm15 f.imm) n with
    | (s, .error e) => s.stopped e 0 s.lc.vstart
    | (s, .ok l) =>
      match s.loadPlain l with
      | (s, none) => s.stopped .poison 0 s.lc.vstart
      | (s, some b) => .next (s.put f.d (ext (leNat b)))

/-- A scalar store of n bytes of d (R148). -/
def scalarStore (n : Nat) (f : IF) (s : State) : Host.Outcome State Fault Refusal :=
  scalar [f.d, f.a] s fun s =>
    match s.scalarAccess .plain .write (s.lc.rd f.a + imm15 f.imm) n with
    | (s, .error e) => s.stopped e 0 s.lc.vstart
    | (s, .ok l) =>
      let w := (l.map (·.key)).zip (leBytes n (s.lc.rd f.d).toNat)
      .next (((s.write w).updateCache s.core w).setLc s.lc.advance)

/-- Sign-extend n bytes. -/
def extS (n : Nat) (x : Nat) : Word := BitVec.ofInt 64 (signedOf (8 * n) x)

/-- LDB (R147, R148). -/
def execLdb (f : IF) (s : State) : Host.Outcome State Fault Refusal := scalarLoad 1 (extS 1) f s
/-- LDBN (R147, R148). -/
def execLdbn (f : IF) (s : State) : Host.Outcome State Fault Refusal := scalarLoad 1 (BitVec.ofNat 64) f s
/-- LDH (R147, R148). -/
def execLdh (f : IF) (s : State) : Host.Outcome State Fault Refusal := scalarLoad 2 (extS 2) f s
/-- LDHN (R147, R148). -/
def execLdhn (f : IF) (s : State) : Host.Outcome State Fault Refusal := scalarLoad 2 (BitVec.ofNat 64) f s
/-- LDW (R147, R148). -/
def execLdw (f : IF) (s : State) : Host.Outcome State Fault Refusal := scalarLoad 4 (extS 4) f s
/-- LDWN (R147, R148). -/
def execLdwn (f : IF) (s : State) : Host.Outcome State Fault Refusal := scalarLoad 4 (BitVec.ofNat 64) f s
/-- LDD (R147, R148). -/
def execLdd (f : IF) (s : State) : Host.Outcome State Fault Refusal := scalarLoad 8 (BitVec.ofNat 64) f s
/-- STB (R147, R148). -/
def execStb (f : IF) (s : State) : Host.Outcome State Fault Refusal := scalarStore 1 f s
/-- STH (R147, R148). -/
def execSth (f : IF) (s : State) : Host.Outcome State Fault Refusal := scalarStore 2 f s
/-- STW (R147, R148). -/
def execStw (f : IF) (s : State) : Host.Outcome State Fault Refusal := scalarStore 4 f s
/-- STD (R147, R148). -/
def execStd (f : IF) (s : State) : Host.Outcome State Fault Refusal := scalarStore 8 f s

/-! ## Atomics -/

/-- The access that an operation makes (R150). -/
def atomAccess : AtomOp → Acc
  | .ldacq => .read
  | .strel => .write
  | _ => .rmw

/-- Whether the operation, with the orders of its word and what it read, acquires (R152, R153). -/
def acquires (op : AtomOp) (succ fail : BitVec 2) (failed : Bool) : Bool :=
  match op with
  | .ldacq => true
  | .strel => false
  | .cas => if failed then fail == 1 else succ.getLsbD 0
  | _ => succ.getLsbD 0

/-- Whether the operation, with the order of its word, is a release (R152, R185). An AMOCAS with rel or ar waits as one
before it is known whether it fails. -/
def releases (op : AtomOp) (succ : BitVec 2) : Bool :=
  match op with
  | .ldacq => false
  | .strel => true
  | _ => succ.getLsbD 1

/-- A scalar atomic, LDACQ or STREL (R151): performed at its home as one update of the 8-byte cell; a release performs
once what VSTP has pushed has (R152, R189); an acquire invalidates the data cache (R152, R196), and the access
invalidates the lines it reaches. LDACQ and an AMOCAS that fails write nothing: an error that they met and had
corrected stays in its cell (log entry 95). -/
def scalarAtomic (op : AtomOp) (f : AF) (s : State) : Host.Outcome State Fault Refusal :=
  scalar [f.d, f.a, f.b] s (afterPushes (releases op f.succ) fun s =>
    match s.scalarAccess .scalarAtomic (atomAccess op) (s.lc.rd f.a) 8 with
    | (s, .error e) => s.stopped e 0 s.lc.vstart
    | (s, .ok l) =>
      let ks := l.map (·.key)
      match (if op = .strel then (s, some []) else s.read ks) with
      | (s, none) => s.stopped .poison 0 s.lc.vstart
      | (s, some b) =>
        let old := leNat b
        let x := (s.lc.rd f.b).toNat
        let expect := (s.lc.rd f.d).toNat
        let s1 : State :=
          if op = .ldacq ∨ (op = .cas ∧ old ≠ expect) then s
          else if op = .strel then s.write (ks.zip (leBytes 8 x))
          else s.writeBack (ks.zip (leBytes 8 (atomApply op 64 old x expect)))
        let s2 := s1.dropLines s.core ks
        let s3 := if acquires op f.succ f.fail (op == .cas && old != expect) then s2.dropCache s.core else s2
        .next (if op = .strel then s3.setLc s3.lc.advance else s3.put f.d (BitVec.ofNat 64 old)))

/-- LDACQ (R150 to R152). -/
def execLdacq (f : AF) (s : State) : Host.Outcome State Fault Refusal := scalarAtomic .ldacq f s
/-- STREL (R150 to R152). -/
def execStrel (f : AF) (s : State) : Host.Outcome State Fault Refusal := scalarAtomic .strel f s
/-- AMOADD (R151). -/
def execAmoadd (f : AF) (s : State) : Host.Outcome State Fault Refusal := scalarAtomic .add f s
/-- AMOSWP (R151). -/
def execAmoswp (f : AF) (s : State) : Host.Outcome State Fault Refusal := scalarAtomic .swp f s
/-- AMOCAS (R151, R153). -/
def execAmocas (f : AF) (s : State) : Host.Outcome State Fault Refusal := scalarAtomic .cas f s
/-- AMOMIN (R151): signed. -/
def execAmomin (f : AF) (s : State) : Host.Outcome State Fault Refusal := scalarAtomic .min f s
/-- AMOMAX (R151): signed. -/
def execAmomax (f : AF) (s : State) : Host.Outcome State Fault Refusal := scalarAtomic .max f s
/-- AMOAND (R151). -/
def execAmoand (f : AF) (s : State) : Host.Outcome State Fault Refusal := scalarAtomic .and f s
/-- AMOOR (R151). -/
def execAmoor (f : AF) (s : State) : Host.Outcome State Fault Refusal := scalarAtomic .or f s

/-! ## FENCE -/

/-- Sends of an armed exchange that are still to be made: all of them until the grants have come, then the sheets not
started and the transfers of the tail (R388, R390). -/
def XchMember.sending (x : XchMember) : Bool :=
  x.active && x.armed && !x.disarmed && (!x.granted || x.grants.zipIdx.any (fun g => g.1.dst != 0xFFFF && !x.started.contains g.2) || x.dests.any (!·.tail.isEmpty))

/-- Some engine command that the thread pushed is still to perform accesses of the selected classes (R174): a VSTC
until every home has accepted its packet (R374). -/
def State.enginesBusy (s : State) (loads stores : Bool) : Bool :=
  let stuck := s.stuck 16
  ((List.range 16).any fun p => let l := s.ownCmds p; portBusy stuck (fun x => if x.isWrite then stores else loads) l l)
    || ((loads || stores) && s.lc.xchs.any fun x => x.2.sending && !stuck x.2.after)
    || (stores && s.pushes.any fun p => p.madeBy s.lc && !stuck p.after)

/-- FENCE (R173, R174). imm: [2:0] scope, [3] earlier loads, [4] earlier stores, [5] later loads, [6] later
stores, [7] engines, [8] instruction fetch (R69). The thread's earlier stores take in what VSTP has pushed (R189), whether
or not engines are named; the data part acts from CORE scope on, and the fetch part at CORE at least. -/
def execFence (f : IF) (s : State) : Host.Outcome State Fault Refusal :=
  let core := s.core
  let b (i : Nat) : Bool := f.imm.getLsbD i
  let wide := decide (1 ≤ (f.imm.extractLsb' 0 3).toNat)
  let stores := b 4 && (b 8 || (wide && (b 5 || b 6)))
  if (b 7 && s.enginesBusy (b 3) (b 4)) || (stores && s.owes) then .next (s.waiting .other)
  else
    let s1 := if b 5 && wide then s.dropCache core else s
    let s2 := if b 8 then s1.dropInsns core else s1
    .next (s2.setLc s2.lc.advance)

end Sys2Proof.Machine
end

