-- ==== Sys2Proof/Machine/Vector.lean ====
section
/-! DEFINITION. Element-wise vector and mask instructions (R284 to R298): SETVL, integer and floating
arithmetic, conversions, compares, mask logic, moves and merge. -/

namespace Sys2Proof.Machine

/-! ## SETVL and SETVLI (R284, R285) -/

/-- The VL granted for a request under a legal VTYPE (R285). -/
def grantedVl (t avl : Word) : Nat :=
  let n := min avl.toNat (min (Vtype.vlmax t) 4096)
  if Vtype.sew t = 6 then (if 4 ≤ n then n - n % 4 else n)
  else if Vtype.sew t = 4 then (if 2 ≤ n then n - n % 2 else n)
  else n

/-- VTYPE, VL and VSTART after a request (R285). -/
def LCore.configure (c : LCore) (req avl : Word) : LCore :=
  if Vtype.legal req then { c with vtype := req, vl := grantedVl req avl, vstart := 0 }
  else { c with vtype := vtypeIll, vl := 0, vstart := 0 }

/-- A configuration request: d takes the VL granted (R285). -/
def setVl (d : Reg) (req avl : Word) (s : State) : Host.Outcome State Fault Refusal :=
  let c := s.lc.configure req avl
  .next (s.setLc (c.wr d (BitVec.ofNat 64 c.vl)).advance)

/-- Whether an instruction that needs every earlier instruction completed must wait: matrix passes and old
values of VAMOSWP are still under way (R264, R284). -/
def State.notDrained (s : State) : Bool := s.passes.any (·.thr == s.cur) || !s.lc.oldVals.isEmpty

/-- An instruction that issues only when every earlier instruction of the thread has completed (R264). -/
def serial (gs : List Reg) (s : State) (k : State → Host.Outcome State Fault Refusal) :
    Host.Outcome State Fault Refusal :=
  if s.notDrained then .next (s.waiting .other) else scalar gs s k

/-- SETVL (R284, R285). -/
def execSetvl (f : SF) (s : State) : Host.Outcome State Fault Refusal :=
  serial [f.d, f.a, f.b] s fun s => setVl f.d (s.lc.rd f.b) (s.lc.rd f.a) s

/-- SETVLI (R284, R285). -/
def execSetvli (f : IF) (s : State) : Host.Outcome State Fault Refusal :=
  serial [f.d, f.a] s fun s => setVl f.d ((f.imm.extractLsb' 0 10).setWidth 64) (s.lc.rd f.a) s

/-! ## The shared forms of element-wise members (R288) -/

/-- The effect of an element-wise member: each active element of the window, ascending. -/
def elementwise (m : Bool) (g : LCore → Nat → LCore) (w : Window) (s : State) : State :=
  s.setLc (s.lc.forActive w m g)

/-- The SEW in force. -/
def LCore.sew (c : LCore) : Nat := Vtype.sew c.vtype

/-- The scalar operand of R287. -/
def LCore.scalarVal (c : LCore) (r : Reg) : Nat := (c.rd r).toNat % 2 ^ c.sew

/-- An integer operation on two vector sources (R290). -/
def intVV (i : Instr) (f : VF) (op : Nat → Nat → Nat → Nat) (s : State) : Host.Outcome State Fault Refusal :=
  member i (elementwise f.m fun c e =>
    c.setVal f.d.toNat c.sew e (op c.sew (c.val f.s1.toNat c.sew e) (c.val f.s2.toNat c.sew e))) s

/-- An integer operation on a vector and a scalar source (R287, R290). -/
def intVG (i : Instr) (f : VF) (op : Nat → Nat → Nat → Nat) (s : State) : Host.Outcome State Fault Refusal :=
  member i (elementwise f.m fun c e =>
    c.setVal f.d.toNat c.sew e (op c.sew (c.val f.s1.toNat c.sew e) (c.scalarVal f.s2))) s

/-- An integer operation on one vector source (R291). -/
def intV (i : Instr) (f : VF) (op : Nat → Nat → Nat) (s : State) : Host.Outcome State Fault Refusal :=
  member i (elementwise f.m fun c e => c.setVal f.d.toNat c.sew e (op c.sew (c.val f.s1.toNat c.sew e))) s

/-- The floating format in force (R286). -/
def LCore.fmt (c : LCore) : Fmt := Vtype.fmt c.vtype

/-- A floating operation on two vector sources and, for the accumulating forms, d (R292). -/
def fpVV (i : Instr) (f : VF) (op : Fmt → Nat → Nat → Nat → BitVec 2 → Nat × BitVec 5) (s : State) :
    Host.Outcome State Fault Refusal :=
  member i (elementwise f.m fun c e =>
    c.putFp f.d.toNat c.sew e (op c.fmt (c.val f.s1.toNat c.sew e) (c.val f.s2.toNat c.sew e)
      (c.val f.d.toNat c.sew e) c.frm)) s

/-- A floating operation on a vector and a scalar source and, for the accumulating forms, d (R292). -/
def fpVG (i : Instr) (f : VF) (op : Fmt → Nat → Nat → Nat → BitVec 2 → Nat × BitVec 5) (s : State) :
    Host.Outcome State Fault Refusal :=
  member i (elementwise f.m fun c e =>
    c.putFp f.d.toNat c.sew e (op c.fmt (c.val f.s1.toNat c.sew e) (c.scalarVal f.s2)
      (c.val f.d.toNat c.sew e) c.frm)) s

/-- A floating operation on one vector source (R293). -/
def fpV (i : Instr) (f : VF) (op : Fmt → Nat → BitVec 2 → Nat × BitVec 5) (s : State) :
    Host.Outcome State Fault Refusal :=
  member i (elementwise f.m fun c e => c.putFp f.d.toNat c.sew e (op c.fmt (c.val f.s1.toNat c.sew e) c.frm)) s

/-- An integer compare into a mask (R295). -/
def cmpVV (i : Instr) (f : VF) (rel : Nat → Nat → Nat → Bool) (s : State) : Host.Outcome State Fault Refusal :=
  member i (elementwise f.m fun c e =>
    c.setKbit f.d.toNat e (rel c.sew (c.val f.s1.toNat c.sew e) (c.val f.s2.toNat c.sew e))) s

/-- An integer compare with a scalar into a mask (R295). -/
def cmpVG (i : Instr) (f : VF) (rel : Nat → Nat → Nat → Bool) (s : State) : Host.Outcome State Fault Refusal :=
  member i (elementwise f.m fun c e =>
    c.setKbit f.d.toNat e (rel c.sew (c.val f.s1.toNat c.sew e) (c.scalarVal f.s2))) s

/-- Write a compare's bit and raise its flags. -/
def LCore.putCmp (c : LCore) (k e : Nat) (r : Bool × BitVec 5) : LCore := (c.setKbit k e r.1).raise r.2

/-- A floating compare into a mask (R295): n is 0 equal, 1 less, 2 less or equal. -/
def fcmpVV (i : Instr) (f : VF) (n : Nat) (s : State) : Host.Outcome State Fault Refusal :=
  member i (elementwise f.m fun c e =>
    c.putCmp f.d.toNat e (c.fmt.fcmp n (c.val f.s1.toNat c.sew e) (c.val f.s2.toNat c.sew e))) s

/-- A floating compare with a scalar into a mask (R295). -/
def fcmpVG (i : Instr) (f : VF) (n : Nat) (s : State) : Host.Outcome State Fault Refusal :=
  member i (elementwise f.m fun c e =>
    c.putCmp f.d.toNat e (c.fmt.fcmp n (c.val f.s1.toNat c.sew e) (c.scalarVal f.s2))) s

/-- Mask logic on the bits of the window (R296). -/
def maskOp (i : Instr) (f : VF) (op : Bool → Bool → Bool) (s : State) : Host.Outcome State Fault Refusal :=
  member i (elementwise false fun c e =>
    c.setKbit f.d.toNat e (op (c.kbit f.s1.toNat e) (c.kbit f.s2.toNat e))) s

/-! ## The operations on element values (R290, R291, R293) -/

/-- Clamp to the signed range of w bits. -/
def clamp (w : Nat) (x : Int) : Nat := wrap w (min (max x (intMin true w)) (intMax true w))

/-- The number of 1 bits among the low w. -/
def ones (w x : Nat) : Nat := ((List.range w).filter fun i => x.testBit i).length

/-- The leading zero bits within w bits. -/
def leadingZeros (w x : Nat) : Nat := if x % 2 ^ w = 0 then w else w - 1 - Nat.log2 (x % 2 ^ w)

/-- |x| and −x of a floating code; a NaN gives the canonical NaN (R293). -/
def Fmt.fabs (g : Fmt) (x : Nat) : Nat := if (g.decode x).isNan then g.nanCode else x % 2 ^ (g.w - 1)
/-- The sign bit inverted. -/
def Fmt.fneg (g : Fmt) (x : Nat) : Nat :=
  if (g.decode x).isNan then g.nanCode else (x + 2 ^ (g.w - 1)) % 2 ^ g.w

/-! ## Meanings -/

/-- The operation of VADD on elements of w bits (R290). -/
def vaddOp : Nat → Nat → Nat → Nat := fun w x y => (x + y) % 2 ^ w
/-- The operation of VSUB on elements of w bits (R290). -/
def vsubOp : Nat → Nat → Nat → Nat := fun w x y => (x + 2 ^ w - y) % 2 ^ w
/-- The operation of VMUL on elements of w bits (R290). -/
def vmulOp : Nat → Nat → Nat → Nat := fun w x y => x * y % 2 ^ w
/-- The operation of VMULH on elements of w bits (R290). -/
def vmulhOp : Nat → Nat → Nat → Nat := fun w x y => wrap w (signedOf w x * signedOf w y / 2 ^ w)
/-- The operation of VAND on elements of w bits (R290). -/
def vandOp : Nat → Nat → Nat → Nat := fun _ x y => Nat.land x y
/-- The operation of VOR on elements of w bits (R290). -/
def vorOp : Nat → Nat → Nat → Nat := fun _ x y => Nat.lor x y
/-- The operation of VXOR on elements of w bits (R290). -/
def vxorOp : Nat → Nat → Nat → Nat := fun _ x y => Nat.xor x y
/-- The operation of VSLL on elements of w bits (R290). -/
def vsllOp : Nat → Nat → Nat → Nat := fun w x y => x * 2 ^ (y % w) % 2 ^ w
/-- The operation of VSRL on elements of w bits (R290). -/
def vsrlOp : Nat → Nat → Nat → Nat := fun w x y => x / 2 ^ (y % w)
/-- The operation of VSRA on elements of w bits (R290). -/
def vsraOp : Nat → Nat → Nat → Nat := fun w x y => wrap w (signedOf w x / 2 ^ (y % w))
/-- The operation of VMIN on elements of w bits (R290). -/
def vminOp : Nat → Nat → Nat → Nat := fun w x y => if signedOf w y < signedOf w x then y else x
/-- The operation of VMAX on elements of w bits (R290). -/
def vmaxOp : Nat → Nat → Nat → Nat := fun w x y => if signedOf w x < signedOf w y then y else x
/-- The operation of VMINN on elements of w bits (R290). -/
def vminnOp : Nat → Nat → Nat → Nat := fun _ x y => min x y
/-- The operation of VMAXN on elements of w bits (R290). -/
def vmaxnOp : Nat → Nat → Nat → Nat := fun _ x y => max x y
/-- The operation of VSADD on elements of w bits (R290). -/
def vsaddOp : Nat → Nat → Nat → Nat := fun w x y => clamp w (signedOf w x + signedOf w y)
/-- The operation of VSSUB on elements of w bits (R290). -/
def vssubOp : Nat → Nat → Nat → Nat := fun w x y => clamp w (signedOf w x - signedOf w y)

/-- VADD (R290). -/
def execVadd (f : VF) (s : State) : Host.Outcome State Fault Refusal := intVV (.vadd f) f vaddOp s
/-- VSUB (R290). -/
def execVsub (f : VF) (s : State) : Host.Outcome State Fault Refusal := intVV (.vsub f) f vsubOp s
/-- VMUL (R290). -/
def execVmul (f : VF) (s : State) : Host.Outcome State Fault Refusal := intVV (.vmul f) f vmulOp s
/-- VMULH (R290). -/
def execVmulh (f : VF) (s : State) : Host.Outcome State Fault Refusal := intVV (.vmulh f) f vmulhOp s
/-- VAND (R290). -/
def execVand (f : VF) (s : State) : Host.Outcome State Fault Refusal := intVV (.vand f) f vandOp s
/-- VOR (R290). -/
def execVor (f : VF) (s : State) : Host.Outcome State Fault Refusal := intVV (.vor f) f vorOp s
/-- VXOR (R290). -/
def execVxor (f : VF) (s : State) : Host.Outcome State Fault Refusal := intVV (.vxor f) f vxorOp s
/-- VSLL (R290). -/
def execVsll (f : VF) (s : State) : Host.Outcome State Fault Refusal := intVV (.vsll f) f vsllOp s
/-- VSRL (R290). -/
def execVsrl (f : VF) (s : State) : Host.Outcome State Fault Refusal := intVV (.vsrl f) f vsrlOp s
/-- VSRA (R290). -/
def execVsra (f : VF) (s : State) : Host.Outcome State Fault Refusal := intVV (.vsra f) f vsraOp s
/-- VMIN (R290). -/
def execVmin (f : VF) (s : State) : Host.Outcome State Fault Refusal := intVV (.vmin f) f vminOp s
/-- VMAX (R290). -/
def execVmax (f : VF) (s : State) : Host.Outcome State Fault Refusal := intVV (.vmax f) f vmaxOp s
/-- VMINN (R290). -/
def execVminn (f : VF) (s : State) : Host.Outcome State Fault Refusal := intVV (.vminn f) f vminnOp s
/-- VMAXN (R290). -/
def execVmaxn (f : VF) (s : State) : Host.Outcome State Fault Refusal := intVV (.vmaxn f) f vmaxnOp s
/-- VSADD (R290). -/
def execVsadd (f : VF) (s : State) : Host.Outcome State Fault Refusal := intVV (.vsadd f) f vsaddOp s
/-- VSSUB (R290). -/
def execVssub (f : VF) (s : State) : Host.Outcome State Fault Refusal := intVV (.vssub f) f vssubOp s
/-- VADD_SCALAR (R290). -/
def execVaddScalar (f : VF) (s : State) : Host.Outcome State Fault Refusal := intVG (.vaddScalar f) f vaddOp s
/-- VSUB_SCALAR (R290). -/
def execVsubScalar (f : VF) (s : State) : Host.Outcome State Fault Refusal := intVG (.vsubScalar f) f vsubOp s
/-- VMUL_SCALAR (R290). -/
def execVmulScalar (f : VF) (s : State) : Host.Outcome State Fault Refusal := intVG (.vmulScalar f) f vmulOp s
/-- VMULH_SCALAR (R290). -/
def execVmulhScalar (f : VF) (s : State) : Host.Outcome State Fault Refusal := intVG (.vmulhScalar f) f vmulhOp s
/-- VAND_SCALAR (R290). -/
def execVandScalar (f : VF) (s : State) : Host.Outcome State Fault Refusal := intVG (.vandScalar f) f vandOp s
/-- VOR_SCALAR (R290). -/
def execVorScalar (f : VF) (s : State) : Host.Outcome State Fault Refusal := intVG (.vorScalar f) f vorOp s
/-- VXOR_SCALAR (R290). -/
def execVxorScalar (f : VF) (s : State) : Host.Outcome State Fault Refusal := intVG (.vxorScalar f) f vxorOp s
/-- VSLL_SCALAR (R290). -/
def execVsllScalar (f : VF) (s : State) : Host.Outcome State Fault Refusal := intVG (.vsllScalar f) f vsllOp s
/-- VSRL_SCALAR (R290). -/
def execVsrlScalar (f : VF) (s : State) : Host.Outcome State Fault Refusal := intVG (.vsrlScalar f) f vsrlOp s
/-- VSRA_SCALAR (R290). -/
def execVsraScalar (f : VF) (s : State) : Host.Outcome State Fault Refusal := intVG (.vsraScalar f) f vsraOp s
/-- VMIN_SCALAR (R290). -/
def execVminScalar (f : VF) (s : State) : Host.Outcome State Fault Refusal := intVG (.vminScalar f) f vminOp s
/-- VMAX_SCALAR (R290). -/
def execVmaxScalar (f : VF) (s : State) : Host.Outcome State Fault Refusal := intVG (.vmaxScalar f) f vmaxOp s
/-- VMINN_SCALAR (R290). -/
def execVminnScalar (f : VF) (s : State) : Host.Outcome State Fault Refusal := intVG (.vminnScalar f) f vminnOp s
/-- VMAXN_SCALAR (R290). -/
def execVmaxnScalar (f : VF) (s : State) : Host.Outcome State Fault Refusal := intVG (.vmaxnScalar f) f vmaxnOp s
/-- VSADD_SCALAR (R290). -/
def execVsaddScalar (f : VF) (s : State) : Host.Outcome State Fault Refusal := intVG (.vsaddScalar f) f vsaddOp s
/-- VSSUB_SCALAR (R290). -/
def execVssubScalar (f : VF) (s : State) : Host.Outcome State Fault Refusal := intVG (.vssubScalar f) f vssubOp s
/-- VPOPC (R291). -/
def execVpopc (f : VF) (s : State) : Host.Outcome State Fault Refusal := intV (.vpopc f) f ones s
/-- VCLZ (R291). -/
def execVclz (f : VF) (s : State) : Host.Outcome State Fault Refusal := intV (.vclz f) f leadingZeros s
/-- VFADD (R292). -/
def execVfadd (f : VF) (s : State) : Host.Outcome State Fault Refusal :=
  fpVV (.vfadd f) f (fun g x y _ rm => g.fadd x y rm) s
/-- VFSUB (R292). -/
def execVfsub (f : VF) (s : State) : Host.Outcome State Fault Refusal :=
  fpVV (.vfsub f) f (fun g x y _ rm => g.fsub x y rm) s
/-- VFMUL (R292). -/
def execVfmul (f : VF) (s : State) : Host.Outcome State Fault Refusal :=
  fpVV (.vfmul f) f (fun g x y _ rm => g.fmul x y rm) s
/-- VFMA (R292). -/
def execVfma (f : VF) (s : State) : Host.Outcome State Fault Refusal :=
  fpVV (.vfma f) f (fun g x y z rm => g.ffma false x y z rm) s
/-- VFNMA (R292). -/
def execVfnma (f : VF) (s : State) : Host.Outcome State Fault Refusal :=
  fpVV (.vfnma f) f (fun g x y z rm => g.ffma true x y z rm) s
/-- VFDIV (R292). -/
def execVfdiv (f : VF) (s : State) : Host.Outcome State Fault Refusal :=
  fpVV (.vfdiv f) f (fun g x y _ rm => g.fdiv x y rm) s
/-- VFMIN (R292). -/
def execVfmin (f : VF) (s : State) : Host.Outcome State Fault Refusal :=
  fpVV (.vfmin f) f (fun g x y _ _ => (g.fmin x y, 0)) s
/-- VFMAX (R292). -/
def execVfmax (f : VF) (s : State) : Host.Outcome State Fault Refusal :=
  fpVV (.vfmax f) f (fun g x y _ _ => (g.fmax x y, 0)) s
/-- VFADD_SCALAR (R292). -/
def execVfaddScalar (f : VF) (s : State) : Host.Outcome State Fault Refusal :=
  fpVG (.vfaddScalar f) f (fun g x y _ rm => g.fadd x y rm) s
/-- VFSUB_SCALAR (R292). -/
def execVfsubScalar (f : VF) (s : State) : Host.Outcome State Fault Refusal :=
  fpVG (.vfsubScalar f) f (fun g x y _ rm => g.fsub x y rm) s
/-- VFMUL_SCALAR (R292). -/
def execVfmulScalar (f : VF) (s : State) : Host.Outcome State Fault Refusal :=
  fpVG (.vfmulScalar f) f (fun g x y _ rm => g.fmul x y rm) s
/-- VFMA_SCALAR (R292). -/
def execVfmaScalar (f : VF) (s : State) : Host.Outcome State Fault Refusal :=
  fpVG (.vfmaScalar f) f (fun g x y z rm => g.ffma false x y z rm) s
/-- VFNMA_SCALAR (R292). -/
def execVfnmaScalar (f : VF) (s : State) : Host.Outcome State Fault Refusal :=
  fpVG (.vfnmaScalar f) f (fun g x y z rm => g.ffma true x y z rm) s
/-- VFDIV_SCALAR (R292). -/
def execVfdivScalar (f : VF) (s : State) : Host.Outcome State Fault Refusal :=
  fpVG (.vfdivScalar f) f (fun g x y _ rm => g.fdiv x y rm) s
/-- VFMIN_SCALAR (R292). -/
def execVfminScalar (f : VF) (s : State) : Host.Outcome State Fault Refusal :=
  fpVG (.vfminScalar f) f (fun g x y _ _ => (g.fmin x y, 0)) s
/-- VFMAX_SCALAR (R292). -/
def execVfmaxScalar (f : VF) (s : State) : Host.Outcome State Fault Refusal :=
  fpVG (.vfmaxScalar f) f (fun g x y _ _ => (g.fmax x y, 0)) s
/-- VFSQRT (R293, R143). -/
def execVfsqrt (f : VF) (s : State) : Host.Outcome State Fault Refusal := fpV (.vfsqrt f) f (Fmt.fsqrt) s
/-- VFABS (R293). -/
def execVfabs (f : VF) (s : State) : Host.Outcome State Fault Refusal := fpV (.vfabs f) f (fun g x _ => (g.fabs x, 0)) s
/-- VFNEG (R293). -/
def execVfneg (f : VF) (s : State) : Host.Outcome State Fault Refusal := fpV (.vfneg f) f (fun g x _ => (g.fneg x, 0)) s
/-- VFEXP2 (R293, R143). -/
def execVfexp2 (f : VF) (s : State) : Host.Outcome State Fault Refusal := fpV (.vfexp2 f) f (Fmt.fexp2) s
/-- VFLOG2 (R293, R143). -/
def execVflog2 (f : VF) (s : State) : Host.Outcome State Fault Refusal := fpV (.vflog2 f) f (Fmt.flog2) s
/-- VFRSQ (R293, R143). -/
def execVfrsq (f : VF) (s : State) : Host.Outcome State Fault Refusal := fpV (.vfrsq f) f (Fmt.frsq) s
/-- VFRCP (R293, R143). -/
def execVfrcp (f : VF) (s : State) : Host.Outcome State Fault Refusal := fpV (.vfrcp f) f (Fmt.frcp) s

/-- One element of VCVT (R64, R142, R294): the value and its width, its flags and mark. -/
def cvtElem (c : LCore) (n r e : Nat) : Nat × Narrowed :=
  let w := c.sew
  let g := Vtype.fmt c.vtype
  match n with
  | 0 => (w, (g.decode (c.val r w e)).toInt true w c.frm)
  | 1 => (w, (g.decode (c.val r w e)).toInt false w c.frm)
  | 2 => let x := g.ofInt (signedOf w (c.val r w e)) c.frm; (w, ⟨x.1, x.2, false⟩)
  | 3 => let x := g.ofInt (c.val r w e) c.frm; (w, ⟨x.1, x.2, false⟩)
  | 4 => let x := Fmt.fp32.ofVal (Fmt.bf16.decode (c.val r w e)) c.frm; (2 * w, ⟨x.1, x.2, false⟩)
  | 5 => (w, Fmt.bf16.narrow (Fmt.fp32.decode (c.elem r (2 * w) e)) c.frm)
  | 6 => (2 * w, ⟨wrap (2 * w) (signedOf w (c.val r w e)), 0, false⟩)
  | 7 => (2 * w, ⟨c.val r w e, 0, false⟩)
  | 8 => (w, MemFmt.saturate true w (signedOf (2 * w) (c.elem r (2 * w) e)))
  | _ => (w, MemFmt.saturate false w (c.elem r (2 * w) e))

/-- VCVT (R294): it marks under SATK where its code can (R140). -/
def execVcvt (f : VF) (s : State) : Host.Outcome State Fault Refusal :=
  member (.vcvt f) (elementwise f.m fun c e =>
    let x := cvtElem c f.s2.toNat f.s1.toNat e
    c.putNarrowed f.d.toNat x.1 e x.2) s

/-- VCMPEQ (R295). -/
def execVcmpeq (f : VF) (s : State) : Host.Outcome State Fault Refusal :=
  cmpVV (.vcmpeq f) f (fun _ x y => x == y) s
/-- VCMPNE (R295). -/
def execVcmpne (f : VF) (s : State) : Host.Outcome State Fault Refusal :=
  cmpVV (.vcmpne f) f (fun _ x y => x != y) s
/-- VCMPLT (R295). -/
def execVcmplt (f : VF) (s : State) : Host.Outcome State Fault Refusal :=
  cmpVV (.vcmplt f) f (fun w x y => decide (signedOf w x < signedOf w y)) s
/-- VCMPLE (R295). -/
def execVcmple (f : VF) (s : State) : Host.Outcome State Fault Refusal :=
  cmpVV (.vcmple f) f (fun w x y => decide (signedOf w x ≤ signedOf w y)) s
/-- VCMPLTN (R295). -/
def execVcmpltn (f : VF) (s : State) : Host.Outcome State Fault Refusal :=
  cmpVV (.vcmpltn f) f (fun _ x y => decide (x < y)) s
/-- VCMPLEN (R295). -/
def execVcmplen (f : VF) (s : State) : Host.Outcome State Fault Refusal :=
  cmpVV (.vcmplen f) f (fun _ x y => decide (x ≤ y)) s
/-- VFCMPEQ (R295). -/
def execVfcmpeq (f : VF) (s : State) : Host.Outcome State Fault Refusal := fcmpVV (.vfcmpeq f) f 0 s
/-- VFCMPLT (R295). -/
def execVfcmplt (f : VF) (s : State) : Host.Outcome State Fault Refusal := fcmpVV (.vfcmplt f) f 1 s
/-- VFCMPLE (R295). -/
def execVfcmple (f : VF) (s : State) : Host.Outcome State Fault Refusal := fcmpVV (.vfcmple f) f 2 s
/-- VCMPEQ_SCALAR (R295). -/
def execVcmpeqScalar (f : VF) (s : State) : Host.Outcome State Fault Refusal :=
  cmpVG (.vcmpeqScalar f) f (fun _ x y => x == y) s
/-- VCMPNE_SCALAR (R295). -/
def execVcmpneScalar (f : VF) (s : State) : Host.Outcome State Fault Refusal :=
  cmpVG (.vcmpneScalar f) f (fun _ x y => x != y) s
/-- VCMPLT_SCALAR (R295). -/
def execVcmpltScalar (f : VF) (s : State) : Host.Outcome State Fault Refusal :=
  cmpVG (.vcmpltScalar f) f (fun w x y => decide (signedOf w x < signedOf w y)) s
/-- VCMPLE_SCALAR (R295). -/
def execVcmpleScalar (f : VF) (s : State) : Host.Outcome State Fault Refusal :=
  cmpVG (.vcmpleScalar f) f (fun w x y => decide (signedOf w x ≤ signedOf w y)) s
/-- VCMPLTN_SCALAR (R295). -/
def execVcmpltnScalar (f : VF) (s : State) : Host.Outcome State Fault Refusal :=
  cmpVG (.vcmpltnScalar f) f (fun _ x y => decide (x < y)) s
/-- VCMPLEN_SCALAR (R295). -/
def execVcmplenScalar (f : VF) (s : State) : Host.Outcome State Fault Refusal :=
  cmpVG (.vcmplenScalar f) f (fun _ x y => decide (x ≤ y)) s
/-- VFCMPEQ_SCALAR (R295). -/
def execVfcmpeqScalar (f : VF) (s : State) : Host.Outcome State Fault Refusal := fcmpVG (.vfcmpeqScalar f) f 0 s
/-- VFCMPLT_SCALAR (R295). -/
def execVfcmpltScalar (f : VF) (s : State) : Host.Outcome State Fault Refusal := fcmpVG (.vfcmpltScalar f) f 1 s
/-- VFCMPLE_SCALAR (R295). -/
def execVfcmpleScalar (f : VF) (s : State) : Host.Outcome State Fault Refusal := fcmpVG (.vfcmpleScalar f) f 2 s
/-- KAND (R296). -/
def execKand (f : VF) (s : State) : Host.Outcome State Fault Refusal := maskOp (.kand f) f (fun a b => a && b) s
/-- KOR (R296). -/
def execKor (f : VF) (s : State) : Host.Outcome State Fault Refusal := maskOp (.kor f) f (fun a b => a || b) s
/-- KXOR (R296). -/
def execKxor (f : VF) (s : State) : Host.Outcome State Fault Refusal := maskOp (.kxor f) f (fun a b => a != b) s
/-- KNOT (R296). -/
def execKnot (f : VF) (s : State) : Host.Outcome State Fault Refusal := maskOp (.knot f) f (fun a _ => !a) s
/-- KMOV (R296). -/
def execKmov (f : VF) (s : State) : Host.Outcome State Fault Refusal := maskOp (.kmov f) f (fun a _ => a) s

/-! ## Moves and merge (R298) -/

/-- VID (R298). -/
def execVid (f : VF) (s : State) : Host.Outcome State Fault Refusal :=
  member (.vid f) (elementwise f.m fun c e => c.setVal f.d.toNat c.sew e (e % 2 ^ c.sew)) s

/-- VMVS (R298). -/
def execVmvs (f : VF) (s : State) : Host.Outcome State Fault Refusal :=
  member (.vmvs f) (elementwise f.m fun c e => c.setVal f.d.toNat c.sew e (c.scalarVal f.s1)) s

/-- VMERGE (R288, R298): k0 selects the source, and every element of the window is written. -/
def execVmerge (f : VF) (s : State) : Host.Outcome State Fault Refusal :=
  member (.vmerge f) (elementwise false fun c e =>
    c.setVal f.d.toNat c.sew e (if c.kbit 0 e then c.val f.s2.toNat c.sew e else c.val f.s1.toNat c.sew e)) s

/-- VMERGE_SCALAR (R288, R298). -/
def execVmergeScalar (f : VF) (s : State) : Host.Outcome State Fault Refusal :=
  member (.vmergeScalar f) (elementwise false fun c e =>
    c.setVal f.d.toNat c.sew e (if c.kbit 0 e then c.scalarVal f.s2 else c.val f.s1.toNat c.sew e)) s

/-! ## Whole-result members that write a g register (R237) -/

/-- The effect of a whole-result member: nothing until its convoy completes (R241). -/
def wholeResult (g : Nat → LCore → LCore) (w : Window) (s : State) : State :=
  if w.whole then s.setLc (g w.vl s.lc) else s

/-- An element as VMVX reads it: sign-extended when FLT = 0 (R298). -/
def LCore.asWord (c : LCore) (r e : Nat) : Word :=
  if Vtype.flt c.vtype then BitVec.ofNat 64 (c.val r c.sew e) else BitVec.ofInt 64 (signedOf c.sew (c.val r c.sew e))

/-- VMVX (R298): element 0, whatever VL and VSTART hold. -/
def execVmvx (f : VF) (s : State) : Host.Outcome State Fault Refusal :=
  member (.vmvx f) (wholeResult fun _ c => c.wr f.d (c.asWord f.s1.toNat 0)) s

/-- KFFS (R297): the lowest bit set below VL, or −1. -/
def execKffs (f : VF) (s : State) : Host.Outcome State Fault Refusal :=
  member (.kffs f) (wholeResult fun vl c =>
    c.wr f.d (match (List.range vl).find? (c.kbit f.s1.toNat) with
      | some e => BitVec.ofNat 64 e
      | none => BitVec.allOnes 64)) s

/-- KPOPC (R297): the bits set below VL. -/
def execKpopc (f : VF) (s : State) : Host.Outcome State Fault Refusal :=
  member (.kpopc f) (wholeResult fun vl c =>
    c.wr f.d (BitVec.ofNat 64 ((List.range vl).filter (c.kbit f.s1.toNat)).length)) s

end Sys2Proof.Machine
end

