-- ==== Sys2Proof/Machine/Permute.lean ====
section
/-! DEFINITION. Whole-result vector members (R299 to R307): slides, gathers and compression, reductions, the
index of the maximum, structured sparsity, conflicts and pre-combining, and CAPP. -/

namespace Sys2Proof.Machine

/-! ## Permutes (R299) -/

/-- Write elements of d from the sources as they stood, for the active elements below VL that `g` gives. -/
def LCore.permuted (c : LCore) (m : Bool) (vl d : Nat) (g : Nat → Option Nat) : LCore :=
  (c.activeIn m 0 vl).foldl (fun (a : LCore) e =>
    match g e with
    | some v => a.setVal d c.sew e v
    | none => a) c

/-- VSLIDEUP (R299). -/
def execVslideup (f : VF) (s : State) : Host.Outcome State Fault Refusal :=
  member (.vslideup f) (wholeResult fun vl c =>
    let x := (c.rd f.s2).toNat
    c.permuted f.m vl f.d.toNat fun e => if x ≤ e then some (c.val f.s1.toNat c.sew (e - x)) else none) s

/-- VSLIDEDN (R299). -/
def execVslidedn (f : VF) (s : State) : Host.Outcome State Fault Refusal :=
  member (.vslidedn f) (wholeResult fun vl c =>
    let x := (c.rd f.s2).toNat
    c.permuted f.m vl f.d.toNat fun e => some (if e + x < vl then c.val f.s1.toNat c.sew (e + x) else 0)) s

/-- VRGATH (R299). -/
def execVrgath (f : VF) (s : State) : Host.Outcome State Fault Refusal :=
  member (.vrgath f) (wholeResult fun vl c =>
    c.permuted f.m vl f.d.toNat fun e =>
      let i := c.val f.s2.toNat c.sew e
      some (if i < vl then c.val f.s1.toNat c.sew i else 0)) s

/-- VCMPR (R288, R299): the selected elements, packed from element 0. -/
def execVcmpr (f : VF) (s : State) : Host.Outcome State Fault Refusal :=
  member (.vcmpr f) (wholeResult fun vl c =>
    (((List.range vl).filter (c.kbit 0)).zipIdx.foldl (fun (a : LCore) p =>
      a.setVal f.d.toNat c.sew p.2 (c.val f.s1.toNat c.sew p.1)) c)) s

/-! ## Reductions (R144, R300) -/

/-- Two slots combined; an empty slot passes the other through (R144). -/
def combine {α : Type} (op : α → α → α) : Option α → Option α → Option α
  | some x, some y => some (op x y)
  | some x, none => some x
  | none, y => y

/-- Halve a row of slots until one is left, with fuel (R144): slot i combines with slot i + h. -/
def halving {α : Type} (op : α → α → α) : Nat → List (Option α) → Option α
  | 0, l => l.headD none
  | fuel + 1, l =>
    let h := l.length / 2
    if h = 0 then l.headD none
    else halving op fuel (List.zipWith (combine op) (l.take h) (l.drop h))

/-- The smallest power of two that is at least n. -/
def pow2Above (n : Nat) : Nat := if n ≤ 1 then 1 else 2 ^ (Nat.log2 (n - 1) + 1)

/-- The slots of a reduction: its active elements below VL, padded with empty slots (R144). -/
def slots {α : Type} (c : LCore) (m : Bool) (vl : Nat) (g : Nat → α) : List (Option α) :=
  (List.range (pow2Above vl)).map fun e => if e < vl && c.active m e then some (g e) else none

/-- The result of a reduction: the initial operand comes last (R144). -/
def reduce {α : Type} (op : α → α → α) (init : α) (l : List (Option α)) : Option α :=
  match halving op 14 l with
  | none => none
  | some x => some (op x init)

/-- An integer reduction (R300). -/
def intReduce (i : Instr) (f : VF) (op : Word → Word → Word) (s : State) : Host.Outcome State Fault Refusal :=
  member i (wholeResult fun vl c =>
    let init := c.rd f.s2
    let x := slots c f.m vl fun e => BitVec.ofInt 64 (signedOf c.sew (c.val f.s1.toNat c.sew e))
    c.wr f.d ((reduce op init x).getD init)) s

/-- A floating reduction (R300): codes with the flags of the combinations so far. -/
def fpReduce (i : Instr) (f : VF) (op : Fmt → Nat → Nat → BitVec 2 → Nat × BitVec 5) (s : State) :
    Host.Outcome State Fault Refusal :=
  member i (wholeResult fun vl c =>
    let init := c.scalarVal f.s2
    let x := slots c f.m vl fun e => (c.val f.s1.toNat c.sew e, (0 : BitVec 5))
    let join (a b : Nat × BitVec 5) : Nat × BitVec 5 :=
      let r := op c.fmt a.1 b.1 c.frm
      (r.1, r.2 ||| a.2 ||| b.2)
    let r := (reduce join (init, 0) x).getD (init, 0)
    (c.wr f.d (BitVec.ofNat 64 r.1)).raise r.2) s

/-- VREDSUM (R300). -/
def execVredsum (f : VF) (s : State) : Host.Outcome State Fault Refusal := intReduce (.vredsum f) f (· + ·) s
/-- VREDMAX (R300): signed. -/
def execVredmax (f : VF) (s : State) : Host.Outcome State Fault Refusal :=
  intReduce (.vredmax f) f (fun a b => if a.slt b then b else a) s
/-- VREDMIN (R300): signed. -/
def execVredmin (f : VF) (s : State) : Host.Outcome State Fault Refusal :=
  intReduce (.vredmin f) f (fun a b => if b.slt a then b else a) s
/-- VFREDSUM (R144, R300). -/
def execVfredsum (f : VF) (s : State) : Host.Outcome State Fault Refusal := fpReduce (.vfredsum f) f Fmt.fadd s
/-- VFREDMAX (R300): no flag. -/
def execVfredmax (f : VF) (s : State) : Host.Outcome State Fault Refusal :=
  fpReduce (.vfredmax f) f (fun g a b _ => (g.fmax a b, 0)) s
/-- VFREDMIN (R300): no flag. -/
def execVfredmin (f : VF) (s : State) : Host.Outcome State Fault Refusal :=
  fpReduce (.vfredmin f) f (fun g a b _ => (g.fmin a b, 0)) s

/-! ## VARGMAX (R301) -/

/-- Element x of the vector is greater than element y under VARGMAX's comparison: signed with FLT = 0, else
as VFMAX, a NaN below every number. -/
def LCore.greater (c : LCore) (x y : Nat) : Bool :=
  if Vtype.flt c.vtype then
    let a := c.fmt.decode x
    let b := c.fmt.decode y
    if a.isNan then false else if b.isNan then true else b.below a
  else decide (signedOf c.sew y < signedOf c.sew x)

/-- VARGMAX (R301): the lowest index of the greatest active element, or −1. -/
def execVargmax (f : VF) (s : State) : Host.Outcome State Fault Refusal :=
  member (.vargmax f) (wholeResult fun vl c =>
    let best (a : Option Nat) (e : Nat) : Option Nat :=
      match a with
      | none => some e
      | some b => if c.greater (c.val f.s1.toNat c.sew e) (c.val f.s1.toNat c.sew b) then some e else a
    c.wr f.d (match (c.activeIn f.m 0 vl).foldl best none with
      | some e => BitVec.ofNat 64 e
      | none => BitVec.allOnes 64)) s

/-! ## VSPSEL, VCONFL and VFCOMB (R302 to R304) -/

/-- A magnitude, as a number that orders like it (R302): |x| signed, or the code without its sign, a NaN
above infinity. -/
def LCore.magnitude (c : LCore) (x : Nat) : Nat :=
  if Vtype.flt c.vtype then
    if (c.fmt.decode x).isNan then 2 ^ c.sew else x % 2 ^ (c.sew - 1)
  else (signedOf c.sew x).natAbs

/-- N of every M, for the code n (R302). -/
def patternOf (n : Nat) : Nat × Nat := if n = 0 then (2, 4) else if n = 1 then (1, 4) else (2, 8)

/-- Whether element e is kept: fewer than N competitors of its group beat it (R302). -/
def LCore.kept (c : LCore) (m : Bool) (vl r n e : Nat) : Bool :=
  let p := patternOf n
  let mag (j : Nat) : Nat := c.magnitude (c.val r c.sew j)
  let rivals := (c.activeIn m 0 vl).filter fun j => j / p.2 == e / p.2
  decide ((rivals.filter fun j => decide (mag e < mag j) || (mag j == mag e && decide (j < e))).length < p.1)

/-- VSPSEL (R302). -/
def execVspsel (f : VF) (s : State) : Host.Outcome State Fault Refusal :=
  member (.vspsel f) (wholeResult fun vl c =>
    c.permuted f.m vl f.d.toNat fun e =>
      some (if c.kept f.m vl f.s1.toNat f.s2.toNat e then c.val f.s1.toNat c.sew e else 0)) s

/-- VCONFL (R303): the first earlier active element with the same value, or the element itself. -/
def execVconfl (f : VF) (s : State) : Host.Outcome State Fault Refusal :=
  member (.vconfl f) (wholeResult fun vl c =>
    let act := c.activeIn f.m 0 vl
    c.permuted f.m vl f.d.toNat fun e =>
      some ((act.find? fun j => decide (j < e) && c.val f.s1.toNat c.sew j == c.val f.s1.toNat c.sew e).getD e)) s

/-- The leader of active element e (R304). -/
def LCore.leader (c : LCore) (m : Bool) (r e : Nat) : Nat :=
  let l := c.val r c.sew e
  if l < e && c.active m l && c.val r c.sew l == l then l else e

/-- VFCOMB (R304): each leader sums its followers in ascending order; a non-leader takes +0; a NaN written is
the canonical one, a lone leader's too (R289). -/
def execVfcomb (f : VF) (s : State) : Host.Outcome State Fault Refusal :=
  member (.vfcomb f) (wholeResult fun vl c =>
    let act := c.activeIn f.m 0 vl
    let v (e : Nat) : Nat := c.val f.s1.toNat c.sew e
    act.foldl (fun (a : LCore) e =>
      if c.leader f.m f.s2.toNat e = e then
        let r := (act.filter fun j => decide (e < j) && c.leader f.m f.s2.toNat j == e).foldl
          (fun (x : Nat × BitVec 5) j =>
            let y := c.fmt.fadd x.1 (v j) c.frm
            (y.1, x.2 ||| y.2)) (v e, 0)
        a.putFp f.d.toNat c.sew e (if (c.fmt.decode r.1).isNan then c.fmt.nanCode else r.1, r.2)
      else a.setVal f.d.toNat c.sew e 0) c) s

/-! ## CAPP (R305 to R307) -/

/-- Set the event flag of the logical core of a launch with an LCORE, running, saved or parked (R270, R271);
with none given, of every one. -/
def State.signal (s : State) (launch : Nat) (lcore : Option Nat) : State :=
  let hit (c : LCore) : Bool := c.job.launch == launch && (match lcore with
    | none => true
    | some n => c.job.lcore == n)
  { s with
    threads := s.threads.map fun t =>
      if t.2.occupied && hit t.2.lc then (t.1, { t.2 with lc := { t.2.lc with evf := true } }) else t,
    saved := s.saved.map fun i => if hit i.lc then { i with lc := { i.lc with evf := true } } else i }

/-- CAPP in a window (R306): when the convoy completes, the entries are written, then QTAIL, and the owner
is signalled when VLMAX entries (R285: at most 4,096) stand unconsumed. -/
def cappIn (m : Bool) (w : Window) (s : State) : State :=
  match w.data with
  | [] => s
  | (_, b) :: _ =>
    if !w.whole then s
    else
      let q := QueueObj.ofBytes b
      let act := s.lc.activeIn m 0 w.vl
      let k := act.length
      let cells := act.zipIdx.flatMap fun p => ((FMap.get? w.places p.2).getD []).zip (leBytes 4 p.1)
      let tail := ((FMap.get? w.places k).getD []).zip (leBytes 8 (q.tail + k))
      let s1 := (s.write (cells ++ tail)).dropLines s.core ((cells ++ tail).map (·.1))
      if q.owner != 0xFFFFFFFF && decide (min (Vtype.vlmax s.lc.vtype) 4096 ≤ (q.tail + k + 2 ^ 64 - q.head) % 2 ^ 64) then
        s1.signal s.lc.job.launch (some q.owner)
      else s1

/-- CAPP (R305 to R307). -/
def execCapp (f : VF) (s : State) : Host.Outcome State Fault Refusal := member (.capp f) (cappIn f.m) s

end Sys2Proof.Machine
end

