-- ==== Sys2Proof/Machine/VectorMem.lean ====
section
/-! DEFINITION. The vector memory instructions (R155 to R172): loads, stores, first-fault loads, shape
records, vertical access, scoped gathers and scatters, and vector atomics. -/

namespace Sys2Proof.Machine

/-- The keys that a window's elements reach: the lines that an access invalidates (R196). -/
def Window.reached (w : Window) : List Nat := (w.places.filter fun p => decide (w.lo ≤ p.1) && decide (p.1 < w.hi)).flatMap (·.2)

/-- A load as a member (R157). -/
def loadMember (i : Instr) (s : State) : Host.Outcome State Fault Refusal :=
  member i (fun w s =>
    match memOp s.lc w.shape i with
    | none => s
    | some o => (s.setLc (o.loadIn w s.lc)).dropLines s.core w.reached) s

/-- A store as a member (R157). -/
def storeMember (i : Instr) (s : State) : Host.Outcome State Fault Refusal :=
  member i (fun w s =>
    match memOp s.lc w.shape i with
    | none => s
    | some o => o.storeIn w s) s

/-- VLD (R155 to R158). -/
def execVld (f : VMF) (s : State) : Host.Outcome State Fault Refusal := loadMember (.vld f) s
/-- VLDS (R156, R159). -/
def execVlds (f : VMF) (s : State) : Host.Outcome State Fault Refusal := loadMember (.vlds f) s
/-- VLDX (R156, R159, R116). -/
def execVldx (f : VMF) (s : State) : Host.Outcome State Fault Refusal := loadMember (.vldx f) s
/-- VLDT (R161 to R164). -/
def execVldt (f : VMF) (s : State) : Host.Outcome State Fault Refusal := loadMember (.vldt f) s
/-- VLDFF (R160). -/
def execVldff (f : VMF) (s : State) : Host.Outcome State Fault Refusal := loadMember (.vldff f) s
/-- VLDV (R110, R165). -/
def execVldv (f : VMF) (s : State) : Host.Outcome State Fault Refusal := loadMember (.vldv f) s
/-- VST (R155 to R158). -/
def execVst (f : VMF) (s : State) : Host.Outcome State Fault Refusal := storeMember (.vst f) s
/-- VSTS (R156, R159). -/
def execVsts (f : VMF) (s : State) : Host.Outcome State Fault Refusal := storeMember (.vsts f) s
/-- VSTX (R156, R159, R116). -/
def execVstx (f : VMF) (s : State) : Host.Outcome State Fault Refusal := storeMember (.vstx f) s
/-- VSTT (R161 to R164). -/
def execVstt (f : VMF) (s : State) : Host.Outcome State Fault Refusal := storeMember (.vstt f) s
/-- VSTV (R110, R165). -/
def execVstv (f : VMF) (s : State) : Host.Outcome State Fault Refusal := storeMember (.vstv f) s
/-- VSTXR (R168): a release store: none of its elements performs before what VSTP has pushed has (`State.planOf`). -/
def execVstxr (f : VMF) (s : State) : Host.Outcome State Fault Refusal := storeMember (.vstxr f) s

/-- VLDXA in a window (R167): a gather that writes bit e of ksm, 1 for a scope miss; an acquiring element at
CORE scope or wider invalidates the data cache (R196); the lines it reaches leave it at every scope (log entry 73). -/
def vldxaIn (f : VMF) (w : Window) (s : State) : State :=
  match memOp s.lc none (.vldxa f) with
  | none => s
  | some o =>
    let scope := f.fmt.toNat
    let miss (e : Nat) : Bool :=
      match (FMap.get? w.places e).bind List.head? with
      | none => false
      | some k => decide (scope < homeScope s.core ⟨k, kindOfKey k, k⟩)
    let act := s.lc.activeIn f.m w.lo w.hi
    let c := act.foldl (fun (c : LCore) e => c.setKbit 8 e (miss e)) (o.loadIn w s.lc)
    let s1 := (s.setLc c).dropLines s.core w.reached
    if decide (1 ≤ scope) && act.any (fun e => !miss e) then s1.dropCache s.core else s1
where
  kindOfKey (k : Nat) : MemKind :=
    if k < vaultBase then .global else if k < hostBase then .vault else if k < deviceBase 0 then .host else .domain

/-- VLDXA (R166, R167). -/
def execVldxa (f : VMF) (s : State) : Host.Outcome State Fault Refusal := member (.vldxa f) (vldxaIn f) s

/-- A vector atomic as a member (R169 to R171). -/
def atomicMember (i : Instr) (op : AtomOp) (s : State) : Host.Outcome State Fault Refusal :=
  member i (fun w s =>
    match memOp s.lc none i with
    | none => s
    | some o => o.atomicIn (if Vtype.flt s.lc.vtype then floatOp op else op) w s) s
where
  floatOp : AtomOp → AtomOp
    | .add => .fadd
    | .min => .fmin
    | .max => .fmax
    | x => x

/-- VAMOADD (R169 to R171). -/
def execVamoadd (f : VMF) (s : State) : Host.Outcome State Fault Refusal := atomicMember (.vamoadd f) .add s
/-- VAMOMIN (R169 to R171). -/
def execVamomin (f : VMF) (s : State) : Host.Outcome State Fault Refusal := atomicMember (.vamomin f) .min s
/-- VAMOMAX (R169 to R171). -/
def execVamomax (f : VMF) (s : State) : Host.Outcome State Fault Refusal := atomicMember (.vamomax f) .max s
/-- VAMOSWP (R169 to R172): the old values arrive later. -/
def execVamoswp (f : VMF) (s : State) : Host.Outcome State Fault Refusal := atomicMember (.vamoswp f) .swp s

end Sys2Proof.Machine
end

