-- ==== Sys2Proof/Machine/Leave.lean ====
section
/-! DEFINITION. Power leave, the shared part (R409): asking for leave, holding it, giving it back; and the save
slots of the vaults (R122). -/

namespace Sys2Proof.Machine

/-- The deck of a core: 0 for deck A, 1 for deck B (R1). -/
def deckOf (core : Nat) : Nat := core / 96

/-- The charge of an operation in milliwatts (R409), `rows` counting for MATT. -/
def LeaveKind.charge : LeaveKind → Nat → Nat
  | .matt, rows => 700 * rows
  | .hvfact, _ => 4000
  | .mgemv, _ => 40000
  | .xgo, _ => 6000
  | .strm, _ => 2000

/-- The deck an operation of a core charges; none for half to each (R409). -/
def LeaveKind.deck : LeaveKind → Nat → Option Nat
  | .mgemv, _ | .xgo, _ => none
  | _, core => some (deckOf core)

/-- Leave stands granted to an operation (R409, R412). -/
def State.hasLeave (s : State) (r : LeaveRef) : Bool := s.gov.grants.any fun g => g.ref == r

/-- An operation asks the governor for leave, once (R409, R410). -/
def State.askLeave (s : State) (r : LeaveRef) (rows prio : Nat) : State :=
  if s.gov.reqs.any (·.ref == r) || s.gov.grants.any (·.ref == r) then s
  else
    let q : LeaveReq := ⟨r, r.kind.charge rows, r.kind.deck r.core, prio, s.gov.order, false, s.dtime⟩
    { s with gov := { s.gov with reqs := s.gov.reqs ++ [q], order := s.gov.order + 1 } }

/-- Give leave back, with any request for it (R409). -/
def State.dropLeave (s : State) (r : LeaveRef) : State :=
  { s with gov := { s.gov with reqs := s.gov.reqs.filter (·.ref != r), grants := s.gov.grants.filter (·.ref != r) } }

/-- The leave of a stream, or of a matrix-vector command, on a port. -/
def portLeave (kind : LeaveKind) (thr core port : Nat) : LeaveRef := ⟨kind, thr, core, port⟩

/-- The priority of a thread (R404). -/
def State.prioOf (s : State) (n : Nat) : Nat := (s.thr n).lc.job.prio

/-! ## Save slots (R122) -/

/-- The first key of save slot n of a core (R122). -/
def slotKey (core slot : Nat) : Nat := vaultKey core (0x300000 + 0x20000 * slot)

/-- The base of the save pool. -/
def State.poolBase (s : State) : Nat := s.host.svpb.toNat

/-- The pool blocks (R423). -/
def State.poolBlocks (s : State) : Nat := s.host.svpn.toNat

/-- The pool block that holds the upper part of an image (R429). -/
def ImageAt.block : ImageAt → Nat
  | .slot core n => if n < 4 then 4 * core + n else 768 + 4 * core + (n - 4)
  | .pool b => b

/-- The key of the start of an image, for offsets below 0x2_0000. -/
def State.imageKey (s : State) : ImageAt → Nat
  | .slot core n => slotKey core n
  | .pool b => s.poolBase + 0x28000 * b

/-- The key of an offset of an image. -/
def State.imageOff (s : State) (i : ImageAt) (off : Nat) : Nat :=
  if off < 0x20000 then s.imageKey i + off else s.poolBase + 0x28000 * i.block + off

/-- Write parts of an image at a key. -/
def State.putParts (s : State) (key : Nat) (l : List (Nat × List Byte)) : State :=
  l.foldl (fun s p => s.write ((keysFrom (key + p.1) p.2.length).zip p.2)) s

/-- A place holds no saved image (R122, R429). -/
def State.imageFree (s : State) (i : ImageAt) : Bool := s.saved.all (·.at_ != i)

/-- Bits at their places. -/
def bitsAt (l : List (Bool × Nat)) : Nat := (l.map fun p => if p.1 then 2 ^ p.2 else 0).foldl (· + ·) 0

end Sys2Proof.Machine
end

