-- ==== Sys2Proof/Machine/Hyper.lean ====
section
/-! DEFINITION. Hypervectors and the Case (R310 to R331): width, generation, binding, bundling, clean-up,
factoring with its work area, and status. -/

namespace Sys2Proof.Machine

/-! ## Hypervectors in register groups (R128, R311) -/

/-- HVW. -/
def LCore.width (c : LCore) : Nat := c.hvw.toNat

/-- The hypervector in the group at a register. -/
def LCore.hv (c : LCore) (r : Nat) : Nat :=
  ((List.range (Vtype.gm c.vtype)).foldl (fun a i => a + (c.vreg (r + i)).toNat * 2 ^ (16384 * i)) 0) % 2 ^ c.width

/-- Write a hypervector: every bit of the group above it becomes 0. -/
def LCore.putHv (c : LCore) (r x : Nat) : LCore :=
  (List.range (Vtype.gm c.vtype)).foldl (fun (a : LCore) i =>
    a.setVreg (r + i) (BitVec.ofNat 16384 (x % 2 ^ c.width / 2 ^ (16384 * i))) 128) c

/-- The Hamming distance of two hypervectors of n bits. -/
def hamming (n x y : Nat) : Nat := (BitVec.ofNat n (Nat.xor x y)).cpop.toNat

/-- Bit i of a hypervector. -/
def bitAt (x i : Nat) : Bool := x / 2 ^ i % 2 == 1

/-- A hypervector from its bits. -/
def ofBits (l : List Bool) : Nat := l.foldr (fun b a => 2 * a + (if b then 1 else 0)) 0

/-! ## HVSET, HVRAND, HVSTAT (R310, R314, R330) -/

/-- HVSET (R310). -/
def execHvset (f : VF) (s : State) : Host.Outcome State Fault Refusal :=
  serial [f.s1] s fun s =>
    let v := s.lc.rd f.s1
    if v.toNat % 64 != 0 || decide (v.toNat < 64) || decide (131072 < v.toNat) || (s.lc.hvw != 0 && s.lc.hvw != v) then
      .next (s.trap .case v)
    else .next (s.setLc { s.lc with hvw := v }.advance)

/-- Mix (R314). -/
def mix (x : Word) : Word :=
  let x := (x ^^^ (x >>> 31)) * 0x8F3A51C72B6E94D5
  let x := (x ^^^ (x >>> 27)) * 0xC619E47B05A3D2F1
  x ^^^ (x >>> 33)

/-- The hypervector of n bits with an index under a seed (R314). -/
def randomHv (n : Nat) (seed index : Word) : Nat :=
  let m := mix (seed ^^^ index)
  ((List.range (n / 64)).foldl (fun a j => a + (mix (m + BitVec.ofNat 64 j)).toNat * 2 ^ (64 * j)) 0)

/-- HVRAND (R314). -/
def execHvrand (f : VF) (s : State) : Host.Outcome State Fault Refusal :=
  let x : Member := { Member.base (encode (.hvrand f)) false with
    ill := s.lc.notHv, gr := [f.s1], vw := [s.lc.grp f.d] }
  checked x s fun s =>
    .next (s.setLc (s.lc.putHv f.d.toNat (randomHv s.lc.width s.lc.hvseed (s.lc.rd f.s1))).advance)

/-- HVSTAT (R330): OVER and SAT clear. -/
def execHvstat (f : VF) (s : State) : Host.Outcome State Fault Refusal :=
  serial [f.d] s fun s =>
    .next (s.setLc (({ s.lc with hvout := s.lc.hvout &&& ~~~(0x300 : Word) } : LCore).wr f.d s.lc.hvout).advance)

/-! ## HVBIND, HVPERM, HVSIM (R315) -/

/-- HVBIND (R315). -/
def execHvbind (f : VF) (s : State) : Host.Outcome State Fault Refusal :=
  member (.hvbind f) (wholeResult fun _ c => c.putHv f.d.toNat (Nat.xor (c.hv f.s1.toNat) (c.hv f.s2.toNat))) s

/-- A rotation upward of n bits by r (R315). -/
def rotateHv (n r x : Nat) : Nat := x * 2 ^ r % 2 ^ n + x / 2 ^ (n - r)

/-- HVPERM (R315). -/
def execHvperm (f : VF) (s : State) : Host.Outcome State Fault Refusal :=
  member (.hvperm f) (wholeResult fun _ c =>
    let r := ((c.rd f.s2).toInt % (c.width : Int)).toNat
    c.putHv f.d.toNat (rotateHv c.width r (c.hv f.s1.toNat))) s

/-- HVSIM (R315). -/
def execHvsim (f : VF) (s : State) : Host.Outcome State Fault Refusal :=
  member (.hvsim f) (wholeResult fun _ c =>
    c.wr f.d (BitVec.ofNat 64 (hamming c.width (c.hv f.s1.toNat) (c.hv f.s2.toNat)))) s

/-! ## HVBUND and HVMAJ (R316 to R318) -/

/-- exp(x / 2^256) · 2^256 for x below 32 · 2^256: exp of a thirty-second of it, squared five times. -/
def expFix (x : Nat) : Nat :=
  (List.range 5).foldl (fun y _ => y * y / 2 ^ fixBits) (expSeries (x / 32) 64 0 (2 ^ fixBits))

/-- (M − 1)·exp(−HVW·δ²/2) ≤ 0.001, where δ = b / 2^n with b the central binomial of n (R317, R319). -/
def capFits (hvw m n b : Nat) : Bool :=
  let x := hvw * b * b * 2 ^ fixBits / (2 * 4 ^ n)
  decide (17 * 2 ^ fixBits ≤ x) || decide (1000 * (m - 1) * 2 ^ fixBits ≤ expFix x)

/-- The largest odd n, from n upward, that fits, with `b` its central binomial C(n − 1, (n − 1)/2). -/
def capFrom (hvw m : Nat) : Nat → Nat → Nat → Nat → Nat
  | 0, _, _, best => best
  | fuel + 1, n, b, best => if capFits hvw m n b then capFrom hvw m fuel (n + 2) (b * (4 * n) / (n + 1)) n else best

/-- Cap() (R317). -/
def LCore.cap (c : LCore) : Nat :=
  if c.hvcap != 0 then c.hvcap.toNat else capFrom c.width (max c.casen.toNat 2) 200 1 1 1

/-- HVBUND (R316). -/
def LCore.bundle (c : LCore) (d : Nat) (x : Nat) (w : Int) : LCore :=
  let sew := c.sew
  let lo : Int := -(2 ^ (sew - 1))
  let hi : Int := 2 ^ (sew - 1) - 1
  let one (a : LCore × Bool) (i : Nat) : LCore × Bool :=
    let t := signedOf sew (c.val d sew i) + (if bitAt x i then w else -w)
    let v := min (max t lo) hi
    (a.1.setVal d sew i (wrap sew v), a.2 || v != t)
  let r := (List.range c.width).foldl one (c, false)
  let n := min (c.hvn.toNat + w.natAbs) (2 ^ 64 - 1)
  let o := if r.2 then c.hvout ||| 0x200 else c.hvout
  { r.1 with hvn := BitVec.ofNat 64 n, hvout := if c.cap < n then o ||| 0x100 else o }

/-- HVBUND (R316). -/
def execHvbund (f : VF) (s : State) : Host.Outcome State Fault Refusal :=
  member (.hvbund f) (wholeResult fun _ c =>
    let w := (c.rd f.s2).toInt
    if w = 0 then c else c.bundle f.d.toNat (c.hv f.s1.toNat) w) s

/-- HVMAJ (R318). -/
def execHvmaj (f : VF) (s : State) : Host.Outcome State Fault Refusal :=
  member (.hvmaj f) (wholeResult fun _ c =>
    let t := c.hv f.s2.toNat
    let bit (i : Nat) : Bool :=
      let x := signedOf c.sew (c.val f.s1.toNat c.sew i)
      decide (0 < x) || (x == 0 && bitAt t i)
    c.putHv f.d.toNat (ofBits ((List.range c.width).map bit))) s

/-! ## The Case (R320) -/

/-- SST, the sort stride (R320). -/
def LCore.sst (c : LCore) : Nat := 256 * ((c.width + 2047) / 2048)

/-- CASEN. -/
def LCore.sorts (c : LCore) : Nat := c.casen.toNat

/-- The Case breaks R320 or the kernel's declaration (R232, R321). -/
def LCore.caseBad (c : LCore) : Bool :=
  decide (4096 < c.sorts) || decide (c.job.casesorts < c.sorts) || decide (2097152 < c.sorts * c.sst)

/-- Read one sort (R320). -/
def State.readSort (s : State) (i : Nat) : State × Except Stop Nat :=
  match s.span .ownVault .read (s.lc.caseb + BitVec.ofNat 64 (i * s.lc.sst)) (s.lc.width / 8) with
  | (s, .error e) => (s, .error e)
  | (s, .ok l) =>
    match s.load l with
    | (s, .error e) => (s, .error e)
    | (s, .ok b) => (s.dropLines s.core (l.map (·.key)), .ok (leNat b))

/-- Read sorts, in order. -/
def State.readSorts : List Nat → State → State × Except Stop (List (Nat × Nat))
  | [], s => (s, .ok [])
  | i :: l, s =>
    match s.readSort i with
    | (s, .error e) => (s, .error e)
    | (s, .ok x) =>
      match State.readSorts l s with
      | (s, .error e) => (s, .error e)
      | (s, .ok m) => (s, .ok ((i, x) :: m))

/-! ## HVCLEAN (R321 to R323) -/

/-- The smallest t with 4t² ≥ 9·HVW. -/
def farMargin (hvw : Nat) : Nat :=
  let t := isqrt (9 * hvw) / 2
  if 4 * t * t < 9 * hvw then t + 1 else t

/-- The FAR threshold (R323). -/
def LCore.tau (c : LCore) : Nat := if c.hvfth != 0 then c.hvfth.toNat else c.width / 2 - farMargin c.width

/-- HVOUT with MARGIN, OP and OUT replaced (R313). -/
def LCore.outcome (c : LCore) (margin op out : Nat) : LCore :=
  { c with hvout := (c.hvout &&& ~~~(0x3FFFF000000FF : Word)) ||| BitVec.ofNat 64 (margin % 2 ^ 18 * 2 ^ 32 + op * 16 + out) }

/-- The best sort, the best and the runner-up distance so far (R321). -/
structure Best where
  idx : Nat
  dist : Nat
  next : Nat
  deriving DecidableEq, Repr

/-- One sort compared with the best so far (R321). -/
def Best.see (hvw q : Nat) (b : Best) (x : Nat × Nat) : Best :=
  let d := hamming hvw q x.2
  if d < b.dist then ⟨x.1, d, min b.next b.dist⟩ else if d < b.next then { b with next := d } else b

/-- HVCLEAN completes: the outcome from the values of all the sorts (R321). -/
def LCore.cleaned (c : LCore) : LCore :=
  let dist := c.hvdist.toNat
  let margin : Int := (c.hvnext.toNat : Int) - dist
  let out := if c.tau ≤ dist then 5 else if margin = 0 then 3 else if max c.hvmth.toNat 1 ≤ margin then 1 else 2
  { c.outcome (wrap 18 margin) 1 out with vstart := 0 }

/-- A fresh start of HVCLEAN: the partial values of no sorts (R321). -/
def LCore.cleanStart (c : LCore) (d : Reg) : LCore :=
  if c.vstart = 0 then
    { c.wr d 0 with hvdist := BitVec.ofNat 64 (c.width + 1), hvnext := BitVec.ofNat 64 c.width }
  else c

/-- HVCLEAN (R321, R322): the sorts up to the next multiple of 16, the partial values standing in its
registers between; after the last sort, the outcome. The checks of CASE before it reads any sort leave VSTART (log
entry 114). -/
def execHvclean (f : VF) (s : State) : Host.Outcome State Fault Refusal :=
  let x : Member := { Member.base (encode (.hvclean f)) false with
    ill := s.lc.notHv, vr := [s.lc.grp f.s1], gw := [f.d] }
  checked x s fun s =>
    let c := s.lc
    if c.caseBad then .next (s.trap .case c.casen)
    else if c.sorts = 0 then
      .next (s.setLc { (({ c with hvdist := c.hvw, hvnext := c.hvw } : LCore).outcome 0 1 4).wr f.d (BitVec.allOnes 64) with
        vstart := 0 }.advance)
    else
      let c := c.cleanStart f.d
      let lo := c.vstart.toNat
      let hi := min c.sorts (lo / 16 * 16 + 16)
      match State.readSorts (rangeFrom lo hi) (s.setLc c) with
      | (s, .error e) => s.stopped e 0 (BitVec.ofNat 13 (lo / 16 * 16))
      | (s, .ok l) =>
        let b0 : Best := ⟨(c.rd f.d).toNat, c.hvdist.toNat, c.hvnext.toNat⟩
        let b := l.foldl (Best.see c.width (c.hv f.s1.toNat)) b0
        let c : LCore := { c.wr f.d (BitVec.ofNat 64 b.idx) with
          hvdist := BitVec.ofNat 64 b.dist, hvnext := BitVec.ofNat 64 b.next }
        if c.sorts ≤ hi ∨ c.sorts ≤ lo then .next (s.setLc c.cleaned.advance)
        else .next (s.setLc { c with vstart := BitVec.ofNat 13 hi })

/-! ## HVFACT (R324 to R329) -/

/-- NF. -/
def LCore.nf (c : LCore) : Nat := field c.hvpart 48 2

/-- The bound B_j, with B_0 = 0 (R324). -/
def LCore.bound (c : LCore) (j : Nat) : Nat := if j = 0 then 0 else field c.hvpart (16 * (j - 1)) 13

/-- The value that makes HVFACT raise CASE, the first of R324's list: of a relation of bounds that fails its upper bound,
of a work area too large CASEN (log entry 111). -/
def LCore.factBad (c : LCore) : Option Word :=
  let n (x : Nat) : Option Word := some (BitVec.ofNat 64 x)
  let badBound (j : Nat) : Bool := decide (c.bound j ≤ c.bound (j - 1)) || (j != 1 && decide (c.sorts < c.bound j))
  if 16384 < c.width then n c.width
  else if c.nf ≠ 2 ∧ c.nf ≠ 3 then n c.nf
  else
    match (rangeFrom 1 (c.nf + 1)).find? badBound with
    | some j => n (c.bound j)
    | none => if c.caseBad || decide (3145728 < (c.sorts + 49) * c.sst) then n c.sorts else none

/-- W, the work area (R325). -/
def LCore.work (c : LCore) : Word := c.caseb + BitVec.ofNat 64 (c.sorts * c.sst)

/-- Bits(c) (R326). -/
def factBits (tie : Nat) (l : List Int) : Nat :=
  ofBits (l.zipIdx.map fun p => decide (0 < p.1) || (p.1 == 0 && bitAt tie p.2))

/-- An HVFACT at its start. -/
def Fact.fresh (c : LCore) : Fact :=
  { phase := 0, fact := 0, sort := 0, sweep := 0, rbest := c.width + 1, stag := 0, chg := false, marg := c.width,
    idx := [0, 0, 0], est := List.replicate c.nf 0, hist := [], tie := randomHv c.width c.hvseed (BitVec.allOnes 64),
    counters := List.replicate c.width 0, dist := c.width + 1, next := c.width }

namespace Fact

/-- XOR of the estimates, but for one. -/
def others (r : Fact) (j : Nat) : Nat := (r.est.eraseIdx j).foldl Nat.xor 0

/-- The residual. -/
def residual (r : Fact) (hvw x : Nat) : Nat := hamming hvw x (r.est.foldl Nat.xor 0)

/-- The least p in 2 to 4 such that the estimates equal the state p sweeps ago. -/
def period (r : Fact) : Option Nat := [2, 3, 4].find? fun p => r.hist[p - 1]? == some r.est

/-- STW, with 0 read as 8 (R313). -/
def window (c : LCore) : Nat := if c.hvstw = 0 then 8 else c.hvstw.toNat

/-- ITL, with 0 read as 256 (R313). -/
def limit (c : LCore) : Nat := if c.hvitl = 0 then 256 else c.hvitl.toNat

/-- The outcome at the end of a sweep, with the period, or none to go on (R326, R328). -/
def exit (c : LCore) (r : Fact) : Option (Nat × Nat) :=
  if !r.chg then some (8, 0)
  else
    match r.period with
    | some p => some (10, p)
    | none => if window c ≤ r.stag then some (11, 0) else if r.sweep = limit c then some (9, 0) else none

/-- The weight of a sort in the counters: 1 at the start, Sim(u, s) in a sweep (R326). -/
def weight (c : LCore) (x : Nat) (r : Fact) (sort : Nat) : Int :=
  if r.phase = 0 then 1 else (c.width : Int) - 2 * hamming c.width (Nat.xor x (r.others r.fact)) sort

/-- Add weighted sorts into the counters. -/
def addSorts (c : LCore) (x : Nat) (r : Fact) (l : List (Nat × Nat)) : Fact :=
  { r with counters := l.foldl (fun k p =>
      let w := r.weight c x p.2
      k.zipIdx.map fun q => q.1 + (if bitAt p.2 q.2 then w else -w)) r.counters }

/-- The end of a sweep (R326): residual, stagnation, the tests, and either clean-up or the next sweep. -/
def endSweep (c : LCore) (x : Nat) (r : Fact) : Fact :=
  let k := r.sweep + 1
  let d := r.residual c.width x
  let r := if d < r.rbest then { r with rbest := d, stag := 0 } else { r with stag := r.stag + 1 }
  let r := { r with sweep := k, fact := 0 }
  match r.exit c with
  | some _ => { r with phase := 2, dist := c.width + 1, next := c.width }
  | none => { r with hist := (r.est :: r.hist).take 4, chg := false }

/-- The end of a pass that counts: the estimate of its factor (R326). -/
def endPass (c : LCore) (x : Nat) (r : Fact) : Fact :=
  let e := factBits r.tie r.counters
  let r := { r with
    chg := r.chg || (r.phase == 1 && e != r.est.getD r.fact 0), est := r.est.set r.fact e,
    counters := List.replicate c.width 0, sort := 0, fact := r.fact + 1 }
  if r.fact < c.nf then r
  else if r.phase = 0 then { r with phase := 1, fact := 0 }
  else r.endSweep c x

/-- The end of a clean-up pass: the margin of its factor. -/
def endClean (c : LCore) (r : Fact) : Fact :=
  { r with marg := min r.marg (r.next - r.dist), sort := 0, fact := r.fact + 1, dist := c.width + 1, next := c.width }

/-- Sorts of the pass under way that the next block reads: up to 16 (R329). -/
def block (c : LCore) (r : Fact) : List Nat :=
  let lo := c.bound r.fact + r.sort
  rangeFrom lo (min (c.bound (r.fact + 1)) (lo + 16))

/-- The run after a block of sorts. -/
def after (c : LCore) (x : Nat) (r : Fact) (l : List (Nat × Nat)) : Fact :=
  let size := c.bound (r.fact + 1) - c.bound r.fact
  if r.phase = 2 then
    let b := l.foldl (Best.see c.width (r.est.getD r.fact 0)) ⟨r.idx.getD r.fact 0, r.dist, r.next⟩
    let r := { r with idx := r.idx.set r.fact b.idx, dist := b.dist, next := b.next, sort := r.sort + l.length }
    if size ≤ r.sort then r.endClean c else r
  else
    let r := { r.addSorts c x l with sort := r.sort + l.length }
    if size ≤ r.sort then r.endPass c x else r

/-- The run is over. -/
def over' (c : LCore) (r : Fact) : Bool := r.phase == 2 && r.fact == c.nf

/-! ### The work area (R325) -/

/-- The bytes of a hypervector. -/
def bytesOf (c : LCore) (x : Nat) : List Byte := leBytes (c.width / 8) x

/-- The slots that stand at any time: estimates, history, tie-break. -/
def slots (c : LCore) (r : Fact) : List (Nat × List Byte) :=
  r.est.zipIdx.map (fun p => (p.2 * c.sst, bytesOf c p.1))
    ++ r.hist.zipIdx.flatMap (fun g => g.1.zipIdx.map fun p => ((3 + 3 * g.2 + p.2) * c.sst, bytesOf c p.1))
    ++ [(15 * c.sst, bytesOf c r.tie)]

/-- The control words. -/
def control (r : Fact) : List Byte :=
  [r.phase, r.fact, r.sort, r.sweep, r.rbest, r.stag, if r.chg then 1 else 0, r.marg, r.idx.getD 0 0,
    r.idx.getD 1 0, r.idx.getD 2 0].flatMap (leBytes 4)

/-- All that a stop writes (R329). -/
def image (c : LCore) (r : Fact) : List (Nat × List Byte) :=
  r.slots c ++ [(16 * c.sst, r.counters.flatMap fun i => leBytes 4 (wrap 32 i)), (48 * c.sst, r.control)]

/-- The run that a work area holds; none when a control word is outside its range (R325): the ranges are those of the
values that a run writes (log entry 112). The two distances of a clean-up
are in HVDIST and HVNEXT (R329). -/
def ofArea (c : LCore) (b : List Byte) : Option Fact :=
  let num (off n : Nat) : Nat := leNat ((b.drop off).take n)
  let w (i : Nat) : Nat := num (48 * c.sst + 4 * i) 4
  let hv (slot : Nat) : Nat := num (slot * c.sst) (c.width / 8)
  let size := c.bound (w 1 + 1) - c.bound (w 1)
  let kept := if w 0 = 2 then w 3 - 1 else w 3
  let r : Fact :=
    { phase := w 0, fact := w 1, sort := w 2, sweep := w 3, rbest := w 4, stag := w 5, chg := w 6 == 1, marg := w 7,
      idx := [w 8, w 9, w 10], est := (List.range c.nf).map hv,
      hist := (List.range (min 4 kept)).map fun g => (List.range c.nf).map fun j => hv (3 + 3 * g + j),
      tie := hv 15, counters := (List.range c.width).map fun i => signedOf 32 (num (16 * c.sst + 4 * i) 4),
      dist := if w 0 = 2 then c.hvdist.toNat else c.width + 1, next := if w 0 = 2 then c.hvnext.toNat else c.width }
  if w 0 ≤ 2 ∧ w 1 < c.nf ∧ w 2 < size ∧ w 2 % 16 = 0 ∧ w 3 ≤ limit c ∧ w 4 ≤ c.width + 1 ∧ w 5 ≤ limit c ∧ w 6 ≤ 1
      ∧ w 7 ≤ c.width ∧ w 8 < c.sorts ∧ w 9 < c.sorts ∧ w 10 < c.sorts then some r
  else none

end Fact

/-- Store parts of a work area whose bytes are translated. -/
def State.putArea (s : State) (area : List ByteAt) (parts : List (Nat × List Byte)) : State :=
  parts.foldl (fun s p => s.store s.core ((area.drop p.1).take p.2.length) p.2) s

/-- The leave of the HVFACT of a thread. -/
def factLeave (thr : Nat) : LeaveRef := ⟨.hvfact, thr, thr / 4, 0⟩

/-- The factoring buffer of the core is given up (R329). -/
def State.factDrop (s : State) : State := { s with factHolder := FMap.erase s.factHolder s.core }

/-- The factoring buffer of the core, and the leave, are given up (R329, R409). -/
def State.factFree (s : State) : State := s.factDrop.dropLeave (factLeave s.cur)

/-- What an HVFACT that stops writes (R329): the work area takes what the run holds, VSTART becomes 1. -/
def State.factSave (s : State) (area : List ByteAt) (r : Fact) : State :=
  let s := s.putArea area (r.image s.lc)
  let c := s.lc
  let c := if r.phase = 2 then { c with hvdist := BitVec.ofNat 64 r.dist, hvnext := BitVec.ofNat 64 r.next } else c
  s.setLc { c with vstart := 1 }

/-- An HVFACT stops (R329). -/
def State.factStop (s : State) (area : List ByteAt) (r : Fact) : State := (s.factSave area r).factFree

/-- The result of HVFACT in g[d] (R327). -/
def Fact.result (r : Fact) (nf out p : Nat) : Nat :=
  let i (j : Nat) : Nat := if j < nf then r.idx.getD j 0 % 4096 else 0
  i 0 + i 1 * 2 ^ 16 + i 2 * 2 ^ 32 + p * 2 ^ 48 + out * 2 ^ 60

/-- HVFACT completes (R327, R328). `chosen` are the sorts chosen. Of a run that was stopped in its clean-up the exit is
found again from what it holds, LIMIT where none holds any more (log entry 113). -/
def LCore.factored (c : LCore) (d : Reg) (x : Nat) (r : Fact) (chosen : List Nat) : LCore :=
  let e := (r.exit c).getD (9, 0)
  let out := if e.1 = 8 ∧ r.marg = 0 then 12 else e.1
  let c1 : LCore := { c with
    hvdist := BitVec.ofNat 64 (hamming c.width x (chosen.foldl Nat.xor 0)),
    hvnext := BitVec.ofNat 64 (r.residual c.width x),
    hvout := (c.hvout &&& ~~~(0xFFFF0000 : Word)) ||| BitVec.ofNat 64 (r.sweep * 2 ^ 16), vstart := 0 }
  (c1.outcome r.marg 2 out).wr d (BitVec.ofNat 64 (r.result c.nf out e.2))

/-- The run at which an HVFACT goes on: the one under way, a fresh one, or that of the work area (R329). -/
def State.factRun (s : State) (area : List ByteAt) : State × Except Stop Fact :=
  match (FMap.get? s.factHolder s.core).bind (·.run) with
  | some r => (s, .ok r)
  | none =>
    if s.lc.vstart = 0 then (s, .ok (Fact.fresh s.lc))
    else
      match s.load area with
      | (s, .error e) => (s, .error e)
      | (s, .ok b) =>
        let s := s.dropLines s.core (area.map (·.key))
        match Fact.ofArea s.lc b with
        | some r => (s.setLc { s.lc with vstart := 0 }, .ok r)
        | none => (s, .error (.trap .case (s.lc.work + BitVec.ofNat 64 (48 * s.lc.sst))))

/-- A Case read of an HVFACT does not perform (R329, R440): it waits, poison kills the context and nothing is written, or
a fault stops it at the block's start. -/
def State.factFault (s : State) (area : List ByteAt) (r : Fact) : Stop → Host.Outcome State Fault Refusal
  | .held => .next (s.waiting .other)
  | .poison => s.stopped .poison 0 0
  | e => (s.factStop area r).stopped e 0 1

/-- One block of an HVFACT; its end may be the end of the instruction (R327). -/
def State.factBlock (s : State) (d : Reg) (area : List ByteAt) (x : Nat) (r : Fact) : Host.Outcome State Fault Refusal :=
  let c := s.lc
  match State.readSorts (r.block c) s with
  | (s, .error e) => s.factFault area r e
  | (s, .ok l) =>
    let q := r.after c x l
    if q.over' c then
      match State.readSorts (q.idx.take c.nf) s with
      | (s, .error e) => s.factFault area r e
      | (s, .ok m) =>
        let s := (s.putArea area (q.slots c)).factFree
        .next (s.setLc (s.lc.factored d x q (m.map (·.2))).advance)
    else
      let s := s.putArea area (q.slots c)
      .next { s with factHolder := FMap.set s.factHolder s.core ⟨s.cur, some q⟩ }

/-- An HVFACT that has the buffer and leave, or is to stop: its work area, its run, then a block, or the stop
that a stop request or the loss of leave asks for (R325, R329, R411). A renewal that has run out of time stays queued
(R412). A stop request withdraws a store to the work area that the swap engine holds (R104): VSTART stays 0, and the
instruction starts afresh (log entry 97). -/
def State.factGo (s : State) (d : Reg) (x : Nat) : Host.Outcome State Fault Refusal :=
  match s.span .ownVault .rmw s.lc.work (49 * s.lc.sst) with
  | (s, .error .held) => .next (if (s.thr s.cur).stopAsked.isSome then s.factFree else s.waiting .other)
  | (s, .error e) => s.factFree.stopped e 0 s.lc.vstart
  | (s, .ok area) =>
    match s.factRun area with
    | (s, .error e) => s.factFree.stopped e 0 s.lc.vstart
    | (s, .ok r) =>
      let out := ((FMap.get? s.factHolder s.core).bind (·.run)).isSome && !s.hasLeave (factLeave s.cur)
      if (s.thr s.cur).stopAsked.isSome then .next (s.factStop area r)
      else if out then .next (s.factSave area r).factDrop
      else s.factBlock d area x r

/-- HVFACT (R324 to R329): a block of up to 16 sorts at each turn, the run held in the factoring buffer. -/
def execHvfact (f : VF) (s : State) : Host.Outcome State Fault Refusal :=
  let m : Member := { Member.base (encode (.hvfact f)) false with
    ill := s.lc.notHv, vr := [s.lc.grp f.s1], gw := [f.d] }
  checked m s fun s =>
    match s.lc.factBad with
    | some v => .next (s.trap .case v)
    | none =>
      let x := s.lc.hv f.s1.toNat
      let ref := factLeave s.cur
      match FMap.get? s.factHolder s.core with
      | some h =>
        if h.thr ≠ s.cur then .next (s.waiting .fact)
        else if !s.hasLeave ref && h.run.isNone then
          .next ((s.askLeave ref 0 s.lc.job.prio).waiting .other)
        else s.factGo f.d x
      | none =>
        if !s.hasLeave ref then .next ((s.askLeave ref 0 s.lc.job.prio).waiting .other) else s.factGo f.d x

/-- FACTORING_BUFFER_TAKE (R329): a thread that waits for the factoring buffer takes it from a holder of
lower priority, whose HVFACT stops. -/
def execFactoringBufferTake (core thr : Nat) (s : State) : Host.Outcome State Fault Refusal :=
  match FMap.get? s.factHolder core with
  | none => .next s
  | some h =>
    let t := s.thr thr
    if thr / 4 = core ∧ h.thr ≠ thr ∧ t.occupied ∧ t.lc.waitFor = .fact ∧ s.prioOf h.thr < t.lc.job.prio then
      let pass (u : State) : State :=
        { u with cur := s.cur, factHolder := FMap.set u.factHolder core ⟨thr, none⟩ }
      let o : State := { s with cur := h.thr }
      match h.run with
      | none => .next (pass o.factFree)
      | some r =>
        match o.span .ownVault .rmw o.lc.work (49 * o.lc.sst) with
        | (_, .error .held) => .next s
        | (u, .error e) =>
          match u.factFree.stopped e 0 u.lc.vstart with
          | .next v => .next (pass v)
          | x => x
        | (u, .ok area) => .next (pass (u.factStop area r))
    else .next s

end Sys2Proof.Machine
end

