-- ==== Sys2Proof/Machine/Stick.lean ====
section
/-! DEFINITION. The Stick (R333 to R347): its element records, checkpoints, the two methods of
extrapolation, and the instructions that feed and read it. -/

namespace Sys2Proof.Machine

/-! ## FP32 arithmetic to nearest even, without flags (R338, R341) -/

namespace Sk

/-- RNE(a + b). -/
def add (a b : Nat) : Nat := (Fmt.fp32.fadd a b rne).1
/-- RNE(a − b). -/
def sub (a b : Nat) : Nat := (Fmt.fp32.fsub a b rne).1
/-- RNE(a · b). -/
def mul (a b : Nat) : Nat := (Fmt.fp32.fmul a b rne).1
/-- RNE(a / b). -/
def div (a b : Nat) : Nat := (Fmt.fp32.fdiv a b rne).1
/-- |a|. -/
def abs (a : Nat) : Nat := a % 2 ^ 31
/-- A NaN. -/
def nan (a : Nat) : Bool := (Fmt.fp32.decode a).isNan
/-- Neither an infinity nor a NaN. -/
def finite (a : Nat) : Bool := decide (abs a < 0x7F800000)
/-- The canonical NaN. -/
def theNan : Nat := 0x7FC00000
/-- 1. -/
def one : Nat := 0x3F800000
/-- a < b for codes; false with a NaN (R338). -/
def lt (a b : Nat) : Bool := (Fmt.fp32.decode a).lt (Fmt.fp32.decode b)
/-- a ≤ b for codes; false with a NaN (R338). -/
def le (a b : Nat) : Bool := !nan a && !nan b && !lt b a
/-- max(); a NaN with a NaN operand (R338). -/
def max (a b : Nat) : Nat := if nan a || nan b then theNan else if lt a b then b else a

/-! ## The two methods (R339, R340) -/

/-- One column of the epsilon table from the two before it: the new column, or none when it is cut short. -/
def column (flr : Nat) : List Nat → List Nat → Option (List Nat)
  | b :: a :: more, _ :: p :: prev =>
    let dv := sub a b
    let fl := mul (abs flr) (max (max (abs a) (abs b)) 0x00800000)
    if !finite dv || !lt fl (abs dv) then none
    else
      let x := add p (div one dv)
      if !finite x then none else (column flr (a :: more) (p :: prev)).map (x :: ·)
  | _, _ => some []

/-- The columns from column k on: `even` is the last entry of the highest even column completed. -/
def table (flr : Nat) : Nat → Nat → List Nat → List Nat → Nat → Nat × Bool
  | 0, _, _, _, even => (even, false)
  | fuel + 1, k, cur, prev, even =>
    match column flr cur prev with
    | none => (even, true)
    | some c => table flr fuel (k + 1) c cur (if (k + 1) % 2 = 0 then c.getLast?.getD even else even)

/-- Eps() (R339) on the entries held, oldest first. -/
def eps (flr : Nat) (hist : List Nat) : Nat × Bool :=
  let j := (hist.length - 1) / 2
  let s := hist.drop (hist.length - (2 * j + 1))
  table flr (2 * j) 0 s (List.replicate (2 * j + 2) 0) (s.getLast?.getD 0)

/-- The exact sum of products of pairs, rounded once. -/
def sumProducts (l : List (Nat × Nat)) : Nat :=
  let r := l.foldl (fun (a : Option FVal) p =>
    let x := ((Fmt.fp32.decode p.1).mul (Fmt.fp32.decode p.2)).1
    match a with
    | none => some x
    | some a => some (a.add x rne).1) none
  match r with
  | none => 0
  | some x => (Fmt.fp32.ofVal x rne).1

/-- Lsq() (R340) on the entries held, oldest first. -/
def lsq (flr : Nat) (hist : List Nat) : Nat × Bool :=
  let last := hist.getLast?.getD 0
  let dl := (hist.drop 1).zip hist |>.map fun p => sub p.1 p.2
  let num := sumProducts ((dl.drop 1).zip dl)
  let den := sumProducts (dl.dropLast.map fun x => (x, x))
  if !finite num || !finite den || abs den == 0 then (last, true)
  else
    let rho := div num den
    let om := sub one rho
    if !lt (abs flr) (abs om) then (last, true)
    else
      let est := add last (mul (dl.getLast?.getD 0) (div rho om))
      if !finite est then (last, true) else (est, false)

end Sk

/-! ## Records and checkpoints (R336, R338) -/

/-- The empty record. -/
def StickRec.empty : StickRec :=
  { est := 0, best := 0x7F800000, nh := 0, cc := 0, sc := 0, ready := false, converged := false, stagnant := false,
    fallback := false, fbc := 0, hist := [] }

/-- H. -/
def LCore.skH (c : LCore) : Nat := field c.skcfg 0 4
/-- CINT. -/
def LCore.skInt (c : LCore) : Nat := field c.skcfg 8 16
/-- NMAX (R335). -/
def LCore.nmax (c : LCore) : Nat := min 512 (4096 / (c.skH + 3))
/-- WIN, with 0 read as 8 (R333). -/
def LCore.skWindow (c : LCore) : Nat := if field c.skwin 0 8 = 0 then 8 else field c.skwin 0 8

/-- The record of an element. -/
def LCore.record (c : LCore) (e : Nat) : StickRec := c.stick.getD e StickRec.empty

/-- Replace the record of an element. -/
def LCore.setRecord (c : LCore) (e : Nat) (r : StickRec) : LCore :=
  { c with stick := (c.stick ++ List.replicate (e + 1 - c.stick.length) StickRec.empty).set e r }

/-- Checkpoint(e, x) (R338) on a record. -/
def LCore.checkpoint (c : LCore) (r : StickRec) (x : Nat) : StickRec :=
  let x := if Sk.nan x then Sk.theNan else x
  let hist := (if r.nh = c.skH then r.hist.drop 1 else r.hist) ++ [BitVec.ofNat 32 x]
  let nh := min (r.nh + 1) c.skH
  let h := hist.map (·.toNat)
  let flr := field c.skflr 0 32
  let q : Nat × Bool :=
    if 3 ≤ nh then (if c.skcfg.getLsbD 4 then Sk.lsq flr h else Sk.eps flr h) else (h.getLast?.getD 0, false)
  let chg := Sk.abs (Sk.sub q.1 r.est.toNat)
  let tol := Sk.mul (Sk.abs (field c.sktol 0 32)) (Sk.max Sk.one (Sk.abs q.1))
  let cc := if r.ready then (if Sk.le chg tol then min (r.cc + 1) 2 else 0) else r.cc
  let less := Sk.lt chg r.best.toNat
  let sc := if r.ready then (if less then 0 else min (r.sc + 1) 255) else r.sc
  { est := BitVec.ofNat 32 q.1, best := if r.ready && less then BitVec.ofNat 32 chg else r.best, nh := nh, cc := cc,
    sc := sc, ready := decide (3 ≤ nh), converged := cc == 2, stagnant := decide (c.skWindow ≤ sc), fallback := q.2,
    fbc := if q.2 then min (r.fbc + 1) 16383 else r.fbc, hist := hist }

/-! ## The instructions -/

/-- SKSET (R334). -/
def execSkset (f : VF) (s : State) : Host.Outcome State Fault Refusal :=
  serial [f.s1] s fun s =>
    let v := s.lc.rd f.s1
    let h := field v 0 4
    if v.toNat / 2 ^ 24 != 0 || field v 5 3 != 0 || decide (h < 3) || decide (8 < h) || field v 8 16 == 0
        || decide (s.lc.job.skdepth < h) then .next (s.trap .stick v)
    else .next (s.setLc { s.lc with skcfg := v, skcnt := 0, stick := [] }.advance)

/-- SKCLR (R344). -/
def execSkclr (_f : VF) (s : State) : Host.Outcome State Fault Refusal :=
  serial [] s fun s => .next (s.setLc { s.lc with skcnt := 0, stick := [] }.advance)

/-- VTYPE is not e32f (R335). -/
def LCore.notE32f (c : LCore) : Bool := Vtype.vill c.vtype || !Vtype.flt c.vtype || c.sew != 32

/-- The checks of R335 that follow those of R78. -/
def onStick (x : Member) (s : State) (k : State → Host.Outcome State Fault Refusal) : Host.Outcome State Fault Refusal :=
  checked x s fun s =>
    if s.lc.skH = 0 then .next (s.trap .stick 0)
    else if s.lc.nmax < s.lc.vl then .next (s.trap .stick (BitVec.ofNat 64 s.lc.vl))
    else k s

/-- Where an element-wise instruction outside a convoy ends: VSTART at a stop, or completion (R241, R346). -/
def State.endAt (s : State) (stop : Option Nat) : State :=
  match stop with
  | some e => s.setLc { s.lc with vstart := BitVec.ofNat 13 e }
  | none => s.setLc { s.lc with vstart := 0 }.advance

/-- SKFEED on the elements from `lo` to `hi` - 1 (R337). -/
def LCore.feed (c : LCore) (r : Nat) (m : Bool) (lo hi : Nat) : LCore :=
  let n : BitVec 48 := if c.vstart = 0 then c.skcnt + 1 else c.skcnt
  let c1 : LCore :=
    if n != 0 && n.toNat % c.skInt == 0 then
      (c.activeIn m lo hi).foldl (fun (a : LCore) e => a.setRecord e (a.checkpoint (a.record e) (c.elem r 32 e))) c
    else c
  if lo < hi ∨ c.vl = 0 then { c1 with skcnt := n } else c1

/-- SKFEED (R337, R346). -/
def execSkfeed (f : VF) (s : State) : Host.Outcome State Fault Refusal :=
  let x : Member := { Member.base (encode (.skfeed f)) f.m with ill := s.lc.notE32f, vr := [s.lc.grp f.s1] }
  onStick x s fun s =>
    let c := s.lc
    let stop := s.stopAt c.vl
    .next ((s.setLc (c.feed f.s1.toNat f.m c.vstart.toNat (stop.getD c.vl))).endAt stop)

/-- SKEST (R342, R346). -/
def execSkest (f : VF) (s : State) : Host.Outcome State Fault Refusal :=
  let x : Member := { Member.base (encode (.skest f)) f.m with ill := s.lc.notE32f, vw := [s.lc.grp f.d] }
  onStick x s fun s =>
    let c := s.lc
    let stop := s.stopAt c.vl
    let d := (c.activeIn f.m c.vstart.toNat (stop.getD c.vl)).foldl (fun (a : LCore) e =>
      a.setVal f.d.toNat 32 e (c.record e).est.toNat) c
    .next ((s.setLc d).endAt stop)

/-- The class bit n of a record (R343). -/
def StickRec.cls (r : StickRec) (n : Nat) : Bool :=
  if n = 0 then r.ready else if n = 1 then r.converged else if n = 2 then r.stagnant else r.fallback

/-- The summary of SKSTAT (R343). -/
def LCore.skSummary (c : LCore) (n : Nat) : Word :=
  let rs := (List.range c.vl).map c.record
  let count := (rs.filter (·.cls n)).length
  let ready := (rs.filter (·.ready)).length
  let fb := min ((rs.map (·.fbc)).foldl (· + ·) 0) 65535
  BitVec.ofNat 64 ((if 1 ≤ c.vl ∧ count = c.vl then 2 ^ 63 else 0) + fb * 2 ^ 32 + ready * 2 ^ 16 + count)

/-- SKSTAT (R343). -/
def execSkstat (f : VF) (s : State) : Host.Outcome State Fault Refusal :=
  let x : Member := { Member.base (encode (.skstat f)) false with ill := s.lc.notE32f, kw := [f.d.toNat], gw := [f.s1] }
  onStick x s fun s =>
    let c := s.lc
    let n := f.s2.toNat
    let d := (List.range c.vl).foldl (fun (a : LCore) e => a.setKbit f.d.toNat e ((c.record e).cls n)) c
    .next (s.setLc (d.wr f.s1 (c.skSummary n)).advance)

end Sys2Proof.Machine
end

