-- ==== Sys2Proof/Machine/Streams.lean ====
section
/-! DEFINITION. Streams (R199 to R225): STRM, VLDP, VSTP, the port instructions, and the steps of the stream
engine: dispatch, element groups, completion, stops, displacement. -/

namespace Sys2Proof.Machine

/-! ## STRM (R202 to R206) -/

/-- A new command from a record (R203). -/
def newCmd (s : State) (x : Shape) (vl : Nat) (token : Reg) : Cmd :=
  { owner := s.cur, shape := x, vtype := (s.lc.vtype.extractLsb' 0 10).setWidth 16, exp := vl, mem := 0, reg := 0,
    token := token, tokenPending := token != 0, started := false, done := false, suspended := false, paused := false, stopAsked := false,
    fault := none, hold := false, satk := s.lc.satk, buf := [], wrote := [], xlat := none, after := [], mgemv := none }

/-- The places that commands of a port take: those not finished on the register side (R199). -/
def placesTaken (l : List Cmd) : Nat := (l.filter fun x => !x.regDone).length

/-- Append a command to a port when it is the thread's or free, and then when a place is free and nothing else is
full; else the state in which the thread waits. A port claimed stays claimed meanwhile (R200, R203, R363). The push is a
release: the command makes no access before what VSTP has pushed on other ports is in memory (R189). -/
def State.push (s : State) (p : Nat) (full : Bool) (x : Cmd) : Except State State :=
  match s.claim p with
  | none => .error (s.waiting (.port p))
  | some s =>
    if placesTaken (s.myCmds p) < 5 ∧ !full then .ok (s.setCmds p (s.myCmds p ++ [{ x with after := s.owed (some p) }])) else .error (s.waiting .other)

/-- A record that STRM refuses with STREAM: malformed, or with a start out of range (R203). -/
def Shape.refusedByStrm (x : Shape) (t : Word) : Bool := x.malformed (Vtype.sew t) || !x.startsFit

/-- STRM as the checks of R78 see it. The format of a record is judged once STREAM does not refuse it; STREAM itself
comes after those checks (log entry 63). -/
def strmMember (f : VF) (s : State) : Member :=
  let r := s.lc.shape f.s1.toNat
  { Member.base (encode (.strm f)) false with
    ill := s.lc.notAny || (!r.refusedByStrm s.lc.vtype && !r.accepted s.lc.vtype), vr := [(f.s1.toNat, 1)], gr := [f.s2] }

/-- STRM (R203). -/
def execStrm (f : VF) (s : State) : Host.Outcome State Fault Refusal :=
  checked (strmMember f s) s fun s =>
    let r := s.lc.shape f.s1.toNat
    if r.refusedByStrm s.lc.vtype then .next (s.trap .stream r.e1)
    else
      let vl := min s.lc.vl r.points
      let s := s.setLc { s.lc with vl := vl }
      if vl = 0 then .next (s.put f.s2 0)
      else
        match s.push f.d.toNat false (newCmd s r vl f.s2) with
        | .error t => .next t
        | .ok t => .next (t.setLc t.lc.advance)

/-! ## VLDP and VSTP (R210, R211) -/

/-- VLDP (R210, R211). -/
def execVldp (f : VF) (s : State) : Host.Outcome State Fault Refusal :=
  member (.vldp f) (fun w s => s.popIn f.s1.toNat f.d.toNat f.m w) s

/-- VSTP (R210, R211). -/
def execVstp (f : VF) (s : State) : Host.Outcome State Fault Refusal :=
  member (.vstp f) (fun w s => s.pushIn f.s1.toNat f.s2.toNat f.m w) s

/-! ## Port control (R215 to R218) -/

/-- The value of SAVAIL for the thread's commands on a port (R216). -/
def availOf (cmds : List Cmd) : Nat :=
  match headCmd cmds with
  | none => 2 ^ 19
  | some h =>
    let bit (b : Bool) (i : Nat) : Nat := if b then 2 ^ i else 0
    let count := if h.isWrite then min (h.exp - h.reg) (freeElems cmds h) else h.mem - h.reg
    (cmds.length - headAt cmds - 1) * 2 ^ 20 + bit h.fault.isSome 18 + bit (h.suspended || h.paused) 17 + bit h.isWrite 16 + count

/-- SAVAIL (R216). -/
def execSavail (f : VF) (s : State) : Host.Outcome State Fault Refusal :=
  scalar [f.d] s fun s => .next (s.put f.d (BitVec.ofNat 64 (availOf (s.myCmds f.s1.toNat))))

/-- An instruction that names a port first reclaims it for displaced commands (R200). -/
def onPort (p : Nat) (s : State) (k : State → Host.Outcome State Fault Refusal) : Host.Outcome State Fault Refusal :=
  match s.reclaim p with
  | none => .next (s.waiting (.port p))
  | some s => k s

/-- SWAIT would wait on progress that only its thread can make (R217): with elements of the first command not complete
still to move, the head is suspended, has no room, or wants pushes; or that command wants room or pushes, or waits for
what VSTP has pushed on another port that needs the thread (R189). A head that the governor has suspended resumes by
itself (R411): SWAIT waits for it (log entry 100). -/
def State.waitsOnItself (s : State) (cmds : List Cmd) : Bool :=
  match headCmd cmds, cmds.find? (!·.done) with
  | some h, some x =>
    !x.allMoved
      && (h.suspended || (!h.isWrite && (decide (freeElems cmds h = 0) || decide (freeElems cmds x = 0)))
        || (h.isWrite && decide (h.reg < h.exp)) || (x.isWrite && decide (x.reg < x.exp)) || s.stuck 16 x.after)
  | _, _ => false

/-- SWAIT (R190, R209, R217). -/
def execSwait (f : VF) (s : State) : Host.Outcome State Fault Refusal :=
  let p := f.s1.toNat
  onPort p s fun s =>
    let cmds := s.myCmds p
    if cmds.all (·.done) then
      let s := s.observe fun u => u.2.1 == p
      .next (s.setLc s.lc.advance)
    else
      match cmds.find? (·.fault.isSome) with
      | some x =>
        match x.fault with
        | some r => .next ((s.setCmds p (faultTaken x cmds)).trap r.cause r.addr)
        | none => .next s
      | none =>
        if s.waitsOnItself cmds then .next (s.trap .stream ((encode (.swait f)).setWidth 64))
        else .next ((s.setCmds p (retried cmds)).waiting .other)

/-- Write a token register of a thread. -/
def State.writeToken (s : State) (n : Nat) (t : Reg) (v : Nat) : State :=
  s.setLcOf n ((s.thr n).lc.wr t (BitVec.ofNat 64 v))

/-- Remove the thread's commands from a port: each that has a token writes to it, MEM for the head and 0 for those
queued behind, even where they had completed; the port falls free (R218). -/
def State.cancel (s : State) (p : Nat) : State :=
  let cmds := s.myCmds p
  let n := headAt cmds
  let c := cmds.zipIdx.foldl (fun (c : LCore) x =>
    let c := c.wr x.1.token (BitVec.ofNat 64 (if x.2 ≤ n then x.1.mem else 0))
    if x.1.wrote.isEmpty then c else { c with unseen := c.unseen ++ [(x.1.token, p, x.1.wrote)] }) s.lc
  let s : State := ((s.setLc c).setPort s.core p ⟨none, []⟩).written s.cur p (unwritten cmds)
  (s.dropLeave (portLeave .strm s.cur s.core p)).dropLeave (portLeave .mgemv s.cur s.core p)

/-- Stop the head of a port at the engine's next element-group boundary: done at once when it does not run,
else asked for (R218). -/
def stopHead (p : Nat) (s : State) (k : State → Host.Outcome State Fault Refusal) : Host.Outcome State Fault Refusal :=
  let cmds := s.myCmds p
  match headCmd cmds with
  | none => k s
  | some h =>
    if h.suspended || !h.started || h.done then k s
    else .next ((s.setCmds p (setHead (fun h => { h with stopAsked := true }) cmds)).waiting .other)

/-- SCANCEL (R218). -/
def execScancel (f : VF) (s : State) : Host.Outcome State Fault Refusal :=
  let p := f.s1.toNat
  onPort p s fun s =>
    if (s.myCmds p).isEmpty then .next (s.setLc s.lc.advance)
    else stopHead p s fun s => let t := s.cancel p; .next (t.setLc t.lc.advance)

/-- SSUSP (R218). -/
def execSsusp (f : VF) (s : State) : Host.Outcome State Fault Refusal :=
  let p := f.s1.toNat
  onPort p s fun s =>
    if (s.myCmds p).isEmpty then .next (s.setLc s.lc.advance)
    else stopHead p s fun s =>
      let t := s.setCmds p (setHead (fun h => { h with suspended := true }) (s.myCmds p))
      .next (t.setLc t.lc.advance)

/-- SRESM (R218). -/
def execSresm (f : VF) (s : State) : Host.Outcome State Fault Refusal :=
  let p := f.s1.toNat
  onPort p s fun s =>
    if (s.myCmds p).isEmpty then .next (s.setLc s.lc.advance)
    else
      let t := s.setCmds p (setHead (fun h => { h with suspended := false, stopAsked := false }) (s.myCmds p))
      .next (t.setLc t.lc.advance)

/-! ## The engine: dispatch (R205, R206) -/

/-- The vault rows that a record's in-range points touch (R206): distinct aligned 256-byte blocks, of all its P points
though a stream may have fewer elements (log entry 108). -/
def Shape.rowsTouched (x : Shape) (sew : Nat) : Nat :=
  (((List.range x.points).flatMap fun e =>
    match x.elemAt sew true 0 e with
    | none => []
    | some a => a.runs.flatMap fun r => (List.range r.2).map fun i => (r.1 + BitVec.ofNat 64 i).toNat / 256).eraseDups).length

/-- The stream needs leave (R206). -/
def Cmd.needsLeave (x : Cmd) : Bool := x.mgemv.isNone && decide (512 < x.shape.rowsTouched (Vtype.sew x.vt))

/-- The memory-side head: the first command not complete there; none when it has not started and one before it is
suspended (R205, R218). -/
def memHead (cmds : List Cmd) : Option Cmd :=
  match cmds.findIdx? (!·.done) with
  | none => none
  | some i => if (cmds.take i).any (·.suspended) && !(cmds[i]?).any (·.started) then none else cmds[i]?

/-- Replace the memory-side head. -/
def setMemHead (f : Cmd → Cmd) (cmds : List Cmd) : List Cmd :=
  match cmds.findIdx? (!·.done) with
  | none => cmds
  | some i => cmds.modify i f

/-- Replace the memory-side head of a port. -/
def State.updMemHead (s : State) (core p : Nat) (f : Cmd → Cmd) : State :=
  let q := s.port core p
  s.setPort core p { q with cmds := setMemHead f q.cmds }

/-- STREAM_DISPATCH (R205, R206): the memory-side head starts, once it has leave if it needs it. -/
def execStreamDispatch (core port : Nat) (s : State) : Host.Outcome State Fault Refusal :=
  match memHead (s.port core port).cmds with
  | none => .next s
  | some x =>
    if x.started || x.suspended || x.mgemv.isSome then .next s
    else
      let r := portLeave .strm x.owner core port
      if x.needsLeave && !s.hasLeave r then .next (s.askLeave r 0 (s.prioOf x.owner))
      else .next (s.updMemHead core port fun x => { x with started := true })

/-! ## The engine: one element group (R201, R207 to R209) -/

/-- A stream that can move: started, not stopped, what was pushed before it written (R189), with leave where it needs
it. -/
def State.canMove (s : State) (core port : Nat) (x : Cmd) : Bool :=
  x.started && !x.suspended && !x.stopAsked && x.fault.isNone && !x.hold && x.mgemv.isNone && x.after.isEmpty
    && (!x.needsLeave || s.hasLeave (portLeave .strm x.owner core port))

/-- The translation that an engine uses for one byte run within a page: the cursor's, or the second-level
TLB's, which the cursor then holds (R207, R222). -/
def State.cursorXlate (s : State) (core : Nat) (who : Who) (acc : Acc) (x : Option TlbEntry) (va : Word) :
    State × Except Stop (Place × Option TlbEntry) :=
  let walk (s : State) : State × Except Stop (Place × Option TlbEntry) :=
    if va.toNat / 2 ^ 51 != 0 then (s, .error (.trap .bounds va))
    else
      match s.leafFor core tlb2 who .plain acc va with
      | (s, .error e) => (s, .error e)
      | (s, .ok l) =>
        match leafPlace who s.dev l.pte (l.pa va) va with
        | .error e => (s, .error e)
        | .ok p => (s, .ok (p, some (l.entry core tlb2 who.ctx va)))
  match x with
  | none => walk s
  | some e =>
    if va.toNat / 2 ^ e.shift == e.vpn && e.ctx == who.ctx then
      match leafFault .plain acc who s.dev e.pte (e.leafOf.pa va) with
      | some c => (s, .error (.trap c va))
      | none =>
        match s.useEntry e acc with
        | (s, .error e) => (s, .error e)
        | (s, .ok none) => walk s
        | (s, .ok (some l)) =>
          match leafPlace who s.dev l.pte (l.pa va) va with
          | .error e => (s, .error e)
          | .ok p => (s, .ok (p, some (l.entry core tlb2 who.ctx va)))
    else walk s

/-- Translate the bytes of a run for an engine, page by page, with fuel. -/
def State.cursorBytes (core : Nat) (who : Who) (acc : Acc) :
    Nat → State → Option TlbEntry → Word → Nat → State × Option TlbEntry × Except Stop (List ByteAt)
  | 0, s, x, _, _ => (s, x, .ok [])
  | fuel + 1, s, x, va, n =>
    if n = 0 then (s, x, .ok [])
    else
      let here := min n (0x8000 - va.toNat % 0x8000)
      match s.cursorXlate core who acc x va with
      | (s, .error e) => (s, x, .error e)
      | (s, .ok (p, x)) =>
        match placeBytes s acc p here with
        | .error e => (s, x, .error e)
        | .ok l =>
          match State.cursorBytes core who acc fuel s x (va + BitVec.ofNat 64 here) (n - here) with
          | (s, x, .error e) => (s, x, .error e)
          | (s, x, .ok m) => (s, x, .ok (l ++ m))

/-- Translate the runs of an element for an engine. -/
def State.cursorRuns (core : Nat) (who : Who) (acc : Acc) :
    List (Word × Nat) → State → Option TlbEntry → State × Option TlbEntry × Except Stop (List ByteAt)
  | [], s, x => (s, x, .ok [])
  | r :: rs, s, x =>
    match State.cursorBytes core who acc 3 s x r.1 r.2 with
    | (s, x, .error e) => (s, x, .error e)
    | (s, x, .ok l) =>
      match State.cursorRuns core who acc rs s x with
      | (s, x, .error e) => (s, x, .error e)
      | (s, x, .ok m) => (s, x, .ok (l ++ m))

/-- The access of a stream as VMemOp, for the conversions of its format. -/
def Cmd.op (x : Cmd) : VMemOp :=
  { fmt := x.shape.fmt, mode := .shape x.shape, base := 0, load := !x.isWrite,
    acc := if x.isWrite then .write else .read, cls := .plain, m := false, d := 0, vertical := false, ff := false }

/-- On whose behalf a stream accesses memory: its owner's context and level. -/
def State.streamWho (s : State) (core : Nat) (x : Cmd) : Who :=
  let j := (s.thr x.owner).lc.job
  ⟨some core, j.ctx, if j.priv then .s else .u⟩

/-- The logical core of a thread as a stream sees it: VTYPE captured at issue (R207). -/
def Cmd.view (x : Cmd) (c : LCore) : LCore := { c with vtype := x.vt }

/-- Where one element of a stream stops the engine: a fault to record, a wait, a kill, or no place. -/
inductive Halt
  | record (cause : Cause) (addr : Word)
  | wait
  | poison
  | noPlace (addr : Nat)
  deriving DecidableEq, Repr

/-- A stop of an access as the engine takes it (R101, R209, R440). -/
def Stop.halt : Stop → Halt
  | .trap c a => .record c a
  | .held => .wait
  | .poison => .poison
  | .noPlace a => .noPlace a

/-- Read bytes at their keys where some words have been read already: those are not met again (R120). -/
def State.readPast (s : State) (met : List Nat) (keys : List Nat) : State × Option (List Byte) :=
  let s := if s.latent.isEmpty then s else ((wordsOf keys).filter (!met.contains ·)).foldl State.meet s
  (s, if keys.any s.poisoned then none else some (keys.map (Memory.get s.mem)))

/-- What moving one element gives: the state, the command, the words read so far in the group, and a halt. -/
abbrev Moved := State × Cmd × List Nat × Option Halt

/-- One element of a read stream lands (R207): out of range it takes the FILL value. It is rounded under the FRM
that its owner holds then (R141, log entry 71). -/
def State.landOne (s : State) (core : Nat) (x : Cmd) (met : List Nat) : Moved :=
  let c := x.view (s.thr x.owner).lc
  let sew := Vtype.sew x.vt
  let put (x : Cmd) (v : Nat) (fl : BitVec 5) : Cmd := { x with mem := x.mem + 1, buf := x.buf ++ [⟨some v, fl⟩] }
  match x.shape.elemAt sew true 0 x.mem with
  | none => (s, put x (fillValue x.shape x.vt) 0, met, none)
  | some a =>
    if a.addr.toNat / 2 ^ 51 != 0 then (s, x, met, some (.record .bounds a.addr))
    else if a.misaligned (x.shape.fmt.align sew) then (s, x, met, some (.record .misalign a.addr))
    else
      match State.cursorRuns core (s.streamWho core x) .read a.runs s x.xlat with
      | (s, t, .error e) => (s, { x with xlat := t }, met, some e.halt)
      | (s, t, .ok l) =>
        let ks := l.map (·.key)
        match s.readPast met ks with
        | (s, none) => (s, { x with xlat := t }, met, some .poison)
        | (s, some b) =>
          let r := x.op.ofBytes c (x.op.bitOf c x.mem) b
          (s, put { x with xlat := t } r.1 r.2, if s.latent.isEmpty then met else met ++ wordsOf ks, none)

/-- One element of a write stream in an element format is written, or passed over as a skip or out of range
(R135, R207). -/
def State.writeOne (s : State) (core : Nat) (x : Cmd) : State × Cmd × Option Halt :=
  let sew := Vtype.sew x.vt
  let w := x.shape.fmt.width sew
  let passed (x : Cmd) : Cmd := { x with mem := x.mem + 1, buf := x.buf.drop 1 }
  match (x.buf.head?.bind (·.val)), x.shape.elemAt sew false 0 x.mem with
  | none, _ | _, none => (s, passed x, none)
  | some v, some a =>
    if a.addr.toNat / 2 ^ 51 != 0 then (s, x, some (.record .bounds a.addr))
    else if a.misaligned (x.shape.fmt.align sew) then (s, x, some (.record .misalign a.addr))
    else
      match State.cursorRuns core (s.streamWho core x) .write a.runs s x.xlat with
      | (s, t, .error e) => (s, { x with xlat := t }, some e.halt)
      | (s, t, .ok l) =>
        let ks := l.map (·.key)
        let new :=
          if x.shape.fmt.dense sew then (setField (BitVec.ofNat 24 (leNat (ks.map (Memory.get s.mem)))) a.bit w v).toNat else v
        (s.poke (ks.zip (leBytes ks.length new)), passed { x with xlat := t, wrote := x.wrote ++ ks }, none)

/-- One block of a write stream in E2M1B (R133, R207): its pushed elements from MEM on are encoded and written, under
the FRM that its owner holds then (log entry 71); flags and marks take effect with it, under the SATK captured at
STRM. A block of which a quiesced stream has written the first part takes code 0 there (log entry 72). -/
def State.writeBlockOne (s : State) (core : Nat) (x : Cmd) : State × Cmd × Option Halt :=
  let r := x.mem % 32
  let n := min (32 - r) (min x.exp x.reg - x.mem)
  let vals := (List.range 32).map fun j =>
    if r ≤ j ∧ j < r + n then (x.buf[j - r]?.bind (·.val)).map (Vtype.fmt x.vt).decode else none
  let passed (x : Cmd) : Cmd := { x with mem := x.mem + n, buf := x.buf.drop n }
  match x.shape.elemAt (Vtype.sew x.vt) false 0 x.mem with
  | none => (s, passed x, none)
  | some a =>
    if vals.all Option.isNone then (s, passed x, none)
    else if a.addr.toNat / 2 ^ 51 != 0 then (s, x, some (.record .bounds a.addr))
    else if a.misaligned 2 then (s, x, some (.record .misalign a.addr))
    else
      match State.cursorRuns core (s.streamWho core x) .write a.runs s x.xlat with
      | (s, t, .error e) => (s, { x with xlat := t }, some e.halt)
      | (s, t, .ok l) =>
        let ks := l.map (·.key)
        let b := encodeBlock vals (s.thr x.owner).lc.frm
        let c := (List.range n).foldl (fun (c : LCore) j =>
          let c := c.raise (b.flags.getD (r + j) 0)
          if b.marks.getD (r + j) false then c.markWith x.satk ((x.mem + j) % 4096) else c) (s.thr x.owner).lc
        ((s.poke (ks.zip b.bytes)).setLcOf x.owner c, passed { x with xlat := t, wrote := x.wrote ++ ks }, none)

/-- A command has an element, or a block, that can move: with `drain` also a block pushed in part (R207, R220). -/
def Cmd.ready (x : Cmd) (cmds : List Cmd) (drain : Bool) : Bool :=
  if x.isWrite then
    if x.shape.fmt == .e2m1b && !drain then
      decide (x.mem < x.exp) && decide (min (x.mem / 32 * 32 + 32) x.exp ≤ x.reg)
    else decide (x.mem < x.reg)
  else decide (x.mem < x.exp) && decide (0 < freeElems (setMemHead (fun _ => x) cmds) x)

/-- One element, or one block, moves. -/
def State.moveOne (s : State) (core : Nat) (x : Cmd) (met : List Nat) : Moved :=
  if !x.isWrite then s.landOne core x met
  else
    let r := if x.shape.fmt == .e2m1b then s.writeBlockOne core x else s.writeOne core x
    (r.1, r.2.1, met, r.2.2)

/-- Up to n elements, or blocks, of a command move, with the elements that its buffer gives or takes (R201, R207). -/
def State.moveAll (core : Nat) (cmds : List Cmd) (drain : Bool) : Nat → State → Cmd → List Nat → State × Cmd × Option Halt
  | 0, s, x, _ => (s, x, none)
  | n + 1, s, x, met =>
    if !x.ready cmds drain then (s, x, none)
    else
      match s.moveOne core x met with
      | (s, x, _, some h) => (s, x, some h)
      | (s, x, met, none) => State.moveAll core cmds drain n s x met

/-- The bits at which the elements start that a write stream in an element format writes among its next n. -/
def Cmd.writtenBits (x : Cmd) (n : Nat) : List Nat :=
  (List.range n).filterMap fun j =>
    match x.buf[j]?.bind (·.val), x.shape.elemAt (Vtype.sew x.vt) false 0 (x.mem + j) with
    | some _, some a => some a.bit
    | _, _ => none

/-- The bytes that a command replaces entirely as it moves its next n elements, which reach `keys` (R135). -/
def Cmd.wholeKeys (x : Cmd) (n : Nat) (keys : List Nat) : List Nat :=
  let sew := Vtype.sew x.vt
  if x.shape.fmt.dense sew then
    x.shape.fmt.wholeKeys sew ((x.writtenBits n).zip (chunks (if x.shape.fmt.width sew = 4 then 1 else 3) keys.length keys))
  else keys

/-- Up to n elements, or blocks, of a command move as one group: the writes of a word are merged (R120, R441). -/
def State.moveGroup (core : Nat) (cmds : List Cmd) (drain : Bool) (n : Nat) (s : State) (x : Cmd) :
    State × Cmd × Option Halt :=
  let r := State.moveAll core cmds drain n s x []
  let keys := r.2.1.wrote.drop x.wrote.length
  (r.1.merged keys (x.wholeKeys (r.2.1.mem - x.mem) keys), r.2.1, r.2.2)

/-- Put back the memory-side head after its group, recording a fault (R209). -/
def State.afterGroup (s : State) (core port : Nat) (x : Cmd) (h : Option Halt) : Host.Outcome State Fault Refusal :=
  match h with
  | none | some .wait => .next (s.updMemHead core port fun _ => x)
  | some (.record c a) => .next (s.updMemHead core port fun _ => { x with fault := some ⟨c, a⟩ })
  | some .poison => .next (s.kill (s.thr x.owner).lc.job.ctx Cause.poison.code x.owner)
  | some (.noPlace a) => .fault (.noSuchPlace a)

/-- The stream on a port that can move, if there is one. -/
def State.mover (s : State) (core port : Nat) : Option Cmd :=
  match memHead (s.port core port).cmds with
  | some x => if s.canMove core port x then some x else none
  | none => none

/-- The stream on a port has something to move: an element that the engine can serve now, or a fault to record. -/
def State.hasWork (s : State) (core port : Nat) (y : Cmd) : Bool :=
  match State.moveGroup core (s.port core port).cmds false 1 s y with
  | (_, z, h) => z.mem != y.mem || (h.isSome && h != some .wait)

/-- When the engine of a core last served a port, as a number that rises (R201). -/
def State.servedAt (s : State) (core port : Nat) : Nat := (FMap.get? s.streamTurns (portKey core port)).getD 0

/-- The engine of a core serves a port. -/
def State.serve (s : State) (core port : Nat) : State :=
  { s with streamTurns := FMap.set s.streamTurns (portKey core port) (((List.range 16).map (s.servedAt core)).foldl max 0 + 1) }

/-- Another port of the core comes first: it has something to move, and its priority is higher, or equal while it
was served longer ago (R201). -/
def State.outranked (s : State) (core port : Nat) (x : Cmd) : Bool :=
  (List.range 16).any fun p =>
    match s.mover core p with
    | some y =>
      s.hasWork core p y && (decide (s.prioOf x.owner < s.prioOf y.owner)
        || (s.prioOf x.owner == s.prioOf y.owner && decide (s.servedAt core p < s.servedAt core port)))
    | none => false

/-- The elements of a group of 2,048 bits on the register side, in blocks for a write stream in E2M1B (R201). -/
def Cmd.groupSize (x : Cmd) : Nat := if x.isWrite && x.shape.fmt == .e2m1b then 2048 / x.c / 32 else 2048 / x.c

/-- STREAM_ELEMENT_GROUP (R201, R207 to R209): one group of the command that may move on a port. -/
def execStreamElementGroup (core port : Nat) (s : State) : Host.Outcome State Fault Refusal :=
  match s.mover core port with
  | none => .next s
  | some x =>
    if s.outranked core port x then .next s
    else
      match State.moveGroup core (s.port core port).cmds false x.groupSize s x with
      | (s, y, h) =>
        ((s.serve core port).written x.owner port (if x.isWrite then y.mem - x.mem else 0)).afterGroup core port y h

/-! ## Completion, stops, displacement -/

/-- The completion bits of a record (R214). -/
def Shape.completionBits (x : Shape) (n : Nat) (k : KReg) : KReg :=
  (List.range n).foldl (fun (k : KReg) e =>
    setField k e 1 (if x.inRange (x.coords (List.range x.rank) e) then 1 else 0)) k

/-- What completion on the memory side gives the owner: the token, the completion mask, and the bytes that
a write stream wrote (R190, R213, R214). -/
def Cmd.complete (x : Cmd) (port : Nat) (c : LCore) : LCore :=
  let c := if x.tokenPending then c.wr x.token (BitVec.ofNat 64 x.exp) else c
  let c := if x.mgemv.isNone && x.shape.cmen then
      c.setKreg x.shape.cmk (x.shape.completionBits x.exp (c.kreg x.shape.cmk)) ((x.exp + 127) / 128)
    else c
  if x.wrote.isEmpty then c else { c with unseen := c.unseen ++ [(x.token, port, x.wrote)] }

/-- STREAM_COMPLETE (R190, R212 to R214): a command whose every element has moved completes on the memory
side, be it suspended; it gives back its leave, and the port falls free with its last command. -/
def execStreamComplete (core port : Nat) (s : State) : Host.Outcome State Fault Refusal :=
  match memHead (s.port core port).cmds with
  | none => .next s
  | some x =>
    if x.allMoved then
      let s1 := s.setLcOf x.owner (x.complete port (s.thr x.owner).lc)
      let s2 := s1.updMemHead core port fun x => { x with done := true, tokenPending := false, wrote := [], xlat := none }
      let s3 := s2.setPort core port (s2.port core port).settle
      .next ((s3.dropLeave (portLeave .strm x.owner core port)).dropLeave (portLeave .mgemv x.owner core port))
    else .next s

/-- STREAM_STOP (R218): a stop asked for takes effect at an element-group boundary: the head is suspended. -/
def execStreamStop (core port : Nat) (s : State) : Host.Outcome State Fault Refusal :=
  let q := s.port core port
  .next (s.setPort core port { q with cmds := q.cmds.map fun x =>
    if x.stopAsked then { x with stopAsked := false, suspended := true } else x })

/-- The pushed elements of a write stream move, group after group (R120, R220). -/
def State.drainGroups (core : Nat) (cmds : List Cmd) : Nat → State → Cmd → State × Cmd × Option Halt
  | 0, s, x => (s, x, none)
  | n + 1, s, x =>
    if !x.ready cmds true then (s, x, none)
    else
      match State.moveGroup core cmds true x.groupSize s x with
      | (s, x, none) => State.drainGroups core cmds n s x
      | r => r

/-- Every pushed element of a stopped write stream is issued to memory, so that MEM reaches REG (R220). What a fault
stops, or the swap engine holds, stays with the command and is issued again after the restore (log entry 72); poison
kills the context of its thread (R440). -/
def State.drainWrite (s : State) (core : Nat) (cmds : List Cmd) (x : Cmd) : State × Cmd :=
  if x.isWrite && x.fault.isNone && !x.hold && !x.done then
    match State.drainGroups core cmds 65536 s x with
    | (s, x, some (.record c a)) => (s, { x with fault := some ⟨c, a⟩ })
    | (s, x, some .poison) => (s.kill (s.thr x.owner).lc.job.ctx Cause.poison.code x.owner, x)
    | (s, x, _) => (s, x)
  else (s, x)

/-- A command quiesces (R220): a read stream drops what it has buffered; a cursor holds no translation. One whose memory
side had completed and that has elements to pop is no longer complete: as it completes again its completion bits are
written again, not its token (R213, R214, log entry 80). -/
def Cmd.quiesced (x : Cmd) : Cmd :=
  if x.isWrite then { x with started := false, stopAsked := false, xlat := none }
  else { x with started := false, stopAsked := false, xlat := none, mem := x.reg, buf := [],
                done := x.done && decide (x.exp ≤ x.reg), mgemv := x.mgemv.map fun j => { j with rowsDone := [] } }

/-- Take a thread's commands off a port as saved commands, giving back their leave (R200, R219, R220). Once poison has
killed its context nothing more of them is issued. -/
def State.takeCmds (s : State) (core port : Nat) : State × List SavedCmd :=
  let q := s.port core port
  let o := q.owner.getD 0
  let r := q.cmds.foldl (fun (a : State × List SavedCmd) x =>
    let d := if (a.1.thr o).occupied then a.1.drainWrite core q.cmds x else (a.1, x)
    (d.1, a.2 ++ [⟨port, d.2.quiesced⟩])) (s, [])
  let s := ((r.1.setPort core port ⟨none, []⟩).dropLeave (portLeave .strm o core port)).dropLeave (portLeave .mgemv o core port)
  (s.written o port (unwritten q.cmds - unwritten (r.2.map (·.cmd))), r.2)

/-- The cursor of a command at a place of its port (R219, R365). -/
def Cmd.cursor (x : Cmd) (port place : Nat) : List Byte :=
  let st := (if x.suspended || x.paused then 2 else if place = 0 then 1 else 0)
    + bitsAt [(x.tokenPending, 2), (x.fault.isSome, 3), (x.mgemv.isSome, 4)]
  leBytes 8 x.shape.e0.toNat ++ leBytes 4 x.shape.e1.toNat ++ leBytes 2 x.vtype.toNat ++ leBytes 1 x.token.toNat ++ leBytes 1 st
    ++ ((List.range 5).flatMap fun k => leBytes 4 (x.shape.ext.getD k 0).toNat)
    ++ ((List.range 5).flatMap fun k => leBytes 4 (x.shape.start.getD k 0).toNat)
    ++ ((List.range 5).flatMap fun k => leBytes 8 (x.shape.stride.getD k 0).toNat)
    ++ leBytes 2 x.exp ++ leBytes 2 x.mem ++ leBytes 2 x.reg ++ leBytes 2 (port + 16 * place)
    ++ leBytes 8 ((x.fault.map (·.addr.toNat)).getD 0) ++ leBytes 1 ((x.fault.map (·.cause.code.toNat)).getD 0)
    ++ List.replicate 15 0

/-- The saved commands of a logical core with their ports and places, in port order (R219, R429). Places count every
command in its order: a read command popped whole that has not completed is place 0, the head behind it place 1 (log
entry 109). -/
def LCore.cursors (c : LCore) : List (SavedCmd × Nat) :=
  (List.range 16).flatMap fun p => (c.displaced.filter (·.port == p)).zipIdx

/-- The cursors of a logical core in its image, from offset 0x1700 (R219, R429). -/
def LCore.cursorParts (c : LCore) : List (Nat × List Byte) :=
  c.cursors.zipIdx.map fun x => (0x1700 + 128 * x.2, x.1.1.cmd.cursor x.1.1.port x.1.2)

/-- The commands of a thread on a port are displaced: they leave it as saved commands, and their cursors go to its
save slot (R200, R219). A slot that holds the image of another logical core keeps it (log entry 20). A thread that
poison has killed keeps nothing (R440). -/
def State.displacePort (s : State) (core port o : Nat) : State :=
  let r := s.takeCmds core port
  if !(r.1.thr o).occupied then r.1 else
  let c : LCore := { (r.1.thr o).lc with displaced := (r.1.thr o).lc.displaced ++ r.2 }
  let s := r.1.setLcOf o c
  if s.imageFree (.slot (o / 4) (o % 4)) then s.putParts (slotKey (o / 4) (o % 4)) c.cursorParts else s

/-- PORT_DISPLACE (R200): a thread that waits for a port owned by a thread of lower priority takes it; the
owner's commands become displaced. -/
def execPortDisplace (core port thr : Nat) (s : State) : Host.Outcome State Fault Refusal :=
  match (s.port core port).owner with
  | none => .next s
  | some o =>
    let t := s.thr thr
    if o ≠ thr ∧ thr / 4 = core ∧ t.occupied ∧ t.lc.waitFor = .port port ∧ s.prioOf o < s.prioOf thr then
      let u := s.displacePort core port o
      .next (if (u.thr thr).occupied then u.setPort core port ⟨some thr, []⟩ else u)
    else .next s

end Sys2Proof.Machine
end

