-- ==== Sys2Proof/Machine/Collect.lean ====
section
/-! DEFINITION. Groups and collective rounds (R368 to R380): CSET, VSTC, CWAIT, VLDC, and what homes and
leaders do with contributions, sets and releases. -/

namespace Sys2Proof.Machine

/-! ## Groups (R369, R370) -/

/-- The ranks of live members, ascending (R369). -/
def State.liveRanks (s : State) (g : Group) : List Nat :=
  (List.range g.n).filter fun r => !s.dead.contains ((g.members.getD r (0, 0)).1)

/-- The group that CGRP names, with this device's rank in it. -/
def State.myGroup (s : State) : Option (Nat × Group × Nat) :=
  let gid := field s.lc.cgrp 0 12
  match s.group? gid with
  | none => none
  | some g => (g.rankOf s.dev).map fun r => (gid, g, r)

/-- The entry of a group is read for a thread: a poisoned one gives nothing (R440). The engines use it as it stands
(log entry 106). -/
def State.readEntry (s : State) (gid : Nat) : State × Option Unit :=
  let b := s.host.gtbase.toNat + 4096 * gid
  let n := if gid < 4096 then 0x40 + 4 * min (s.num b 2) 900 else 0
  ((s.read (keysFrom b n)).1, ((s.read (keysFrom b n)).2).map fun _ => ())

/-- CSET (R370). -/
def execCset (f : KF) (s : State) : Host.Outcome State Fault Refusal :=
  serial [f.d, f.a, f.b] s fun s =>
    let gid := (s.lc.rd f.a).toNat
    let str := (s.lc.rd f.b).toNat
    let c := s.lc
    let no : LCore := { c with cgrp := 0, cstr := 0, cop := 0 }
    match s.readEntry gid with
    | (s, none) => s.stopped .poison 0 s.lc.vstart
    | (s, some _) =>
    match s.group? gid with
    | none => .next (s.setLc (no.wr f.d 0).advance)
    | some g =>
      if g.isMember s.dev c && str % 64 == 0 && decide (64 ≤ str) && decide (str ≤ g.gwlen) then
        let yes : LCore := { c with
          cgrp := BitVec.ofNat 64 (2 ^ 63 + gid), cstr := BitVec.ofNat 31 str, cop := f.cop,
          xchs := c.xchs.map fun p => if p.1 == gid then (p.1, { p.2 with dposted := false }) else p }
        .next (s.setLc (yes.wr f.d (BitVec.ofNat 64 g.n)).advance)
      else .next (s.setLc (no.wr f.d 0).advance)

/-- XFAIL with a TVAL (R370, R384, R388, R393). -/
def State.xfail (s : State) (n : Nat) : State := s.trap .xfail (BitVec.ofNat 64 n)

/-- The check that CGRP names a group (R370). One whose entry has become invalid since CSET raises XFAIL 1 too (log entry
116). -/
def onGroup (s : State) (k : Nat → Group → Nat → State → Host.Outcome State Fault Refusal) :
    Host.Outcome State Fault Refusal :=
  if !s.lc.cgrp.getLsbD 63 then .next (s.xfail 1)
  else
    match s.myGroup with
    | none => .next (s.xfail 1)
    | some (gid, g, r) => k gid g r s

/-! ## Members (R373, R378) -/

/-- The release of a round, once this device knows it. -/
def State.released? (s : State) (gid round : Nat) : Option Released :=
  s.releases.find? fun r => r.gid == gid && r.info.round == round

/-- VTYPE is none of e32, e64 and e32f (R374). -/
def LCore.notColl (c : LCore) : Bool :=
  Vtype.vill c.vtype || !(c.sew == 32 || (c.sew == 64 && !Vtype.flt c.vtype))

/-- The elements of a contribution with their offsets (R374). -/
def LCore.contribution (c : LCore) (m : Bool) (base : Word) (r : Nat) : List (Nat × Nat) :=
  (c.activeIn m 0 c.vl).map fun e => ((base + BitVec.ofNat 64 (e * (c.sew / 8))).toNat, c.val r c.sew e)

/-- The home of an offset (R374). -/
def homeOf (cstr n o : Nat) : Nat := o / cstr % n

/-- The homes of a group whose devices are live: no other answers (R369, log entry 75). -/
def State.liveHomes (s : State) (g : Group) : List Nat := s.liveRanks g

/-- VSTC (R374): one packet to every home; the report of the arrival waits until every home has accepted its own. -/
def execVstc (f : VF) (s : State) : Host.Outcome State Fault Refusal :=
  let m : Member := { Member.base (encode (.vstc f)) f.m with
    ill := s.lc.notColl || (s.lc.cop == 3 && Vtype.flt s.lc.vtype), vr := [s.lc.grp f.s2], gr := [f.s1] }
  checked m s fun s =>
    onGroup s fun gid g rank s =>
      let c := s.lc
      let q := s.collIn c gid
      let a := c.rd f.s1
      let elems := c.contribution f.m a f.s2.toNat
      if q.next % 2 ^ 32 ≠ 0 ∧ (s.released? gid (q.next - 1)).isNone then .next (s.waiting .other)
      else if a.toNat % (c.sew / 8) ≠ 0 then .next (s.trap .misalign a)
      else
        match elems.find? fun e => decide (g.gwlen ≤ e.1) with
        | some e => .next (s.trap .bounds (BitVec.ofNat 64 e.1))
        | none =>
          let packet (h : Nat) : CollPacket :=
            { gid := gid, home := h, round := q.next, rank := rank, cop := c.cop.toNat, cstr := c.cstr.toNat,
              sew := c.sew, flt := Vtype.flt c.vtype, cdl := c.cdl.toNat, dlvl := c.job.dlvl,
              elems := elems.filter fun e => homeOf c.cstr.toNat g.n e.1 == h, gone := false }
          let out := (List.range g.n).map fun h => OutMsg.contribution (packet h)
          let push : CollPush := ⟨c.job.launch, c.job.lcore, packet ((s.liveRanks g).headD 0), s.liveHomes g, s.owed none⟩
          let run := q.next / 2 ^ 32 + 1
          let c : LCore := { c with coll := FMap.set c.coll gid { q with next := q.next + 1 } }
          .next (({ s with outbox := s.outbox ++ out, pushes := s.pushes ++ [push],
                           collRuns := FMap.set s.collRuns gid run } : State).setLc c.advance)

/-- The bitmap of a contributor set, 120 bytes (R378). -/
def setBitmap (set : List Nat) : List Byte :=
  leBytes 120 ((List.range 960).foldl (fun a r => if set.contains r then a + 2 ^ r else a) 0)

/-- CWAIT after the release of its round and its bitmap (R378): CCNT is written, then a member that is not in the
set receives its trap. -/
def State.cwaitDone (s : State) (gid rank round : Nat) (r : ReleaseMsg) : State :=
  let q := s.collIn s.lc gid
  let ccnt := r.late * 2 ^ 32 + (if r.part then 2 ^ 16 else 0) + r.set.length
  let s := s.setLc { s.lc with ccnt := BitVec.ofNat 64 ccnt, coll := FMap.set s.lc.coll gid { q with waited := q.next } }
  if r.set.contains rank then s.setLc s.lc.advance
  else if r.removed.contains rank then s.xfail 2
  else s.trap .clate (BitVec.ofNat 64 (round % 2 ^ 32))

/-- Ordered 8-byte stores from an address upward (R378): those before one that stops have performed. -/
def State.storeWords (s : State) (va : Word) : List (List Byte) → State × Except Stop Unit
  | [] => (s, .ok ())
  | w :: l =>
    match s.span .plain .write va 8 with
    | (s, .error e) => (s, .error e)
    | (s, .ok p) => (s.store s.core p w).storeWords (va + 8) l

/-- CWAIT (R378); it completes at once when no round has been contributed since the last (log entry 18). -/
def execCwait (_f : VF) (s : State) : Host.Outcome State Fault Refusal :=
  onGroup s fun gid _ rank s =>
    let q := s.collIn s.lc gid
    if q.next = q.waited then .next (s.setLc s.lc.advance)
    else
      match s.released? gid (q.next - 1) with
      | none => .next (s.waiting .other)
      | some r =>
        if s.lc.cmapb = 0 then .next (s.cwaitDone gid rank (q.next - 1) r.info)
        else
          match s.storeWords s.lc.cmapb (chunks 8 15 (setBitmap r.info.set)) with
          | (s, .error e) => s.stopped e 0 s.lc.vstart
          | (s, .ok ()) => .next (s.cwaitDone gid rank (q.next - 1) r.info)

/-! ## Operators (R376) -/

/-- The operator of a COP on register values (R376). -/
def combineOp (cop sew : Nat) (flt : Bool) (a b : Nat) : Nat :=
  match cop with
  | 0 => if flt then (Fmt.fp32.fadd a b rne).1 else (a + b) % 2 ^ sew
  | 1 => if flt then Fmt.fp32.fmax a b else if signedOf sew a < signedOf sew b then b else a
  | 2 => if flt then Fmt.fp32.fmin a b else if signedOf sew b < signedOf sew a then b else a
  | 3 => Nat.lor a b
  | _ => a

/-- The identity of a COP (R376). -/
def identityOf (cop sew : Nat) (flt : Bool) : Nat :=
  match cop with
  | 0 => if flt then 0x80000000 else 0
  | 1 => if flt then 0xFF800000 else 2 ^ (sew - 1)
  | 2 => if flt then 0x7F800000 else 2 ^ (sew - 1) - 1
  | _ => 0

/-- The contributions to one offset, by rank, combined at a DLVL; in arrival order as they stand (R376). -/
def combineAt (cop sew : Nat) (flt : Bool) (dlvl : Nat) (vals : List (Nat × Nat)) : Nat :=
  let op := combineOp cop sew flt
  let byRank := sortBy (fun a b => decide (a.1 ≤ b.1)) vals
  let inOrder (l : List (Nat × Nat)) : Nat :=
    match l with
    | [] => identityOf cop sew flt
    | x :: l => l.foldl (fun a y => op a y.2) x.2
  if cop = 4 then inOrder byRank
  else if dlvl = 0 then inOrder vals
  else if dlvl = 1 then inOrder byRank
  else
    let slots := (List.range 1024).map fun r => (vals.find? (·.1 == r)).map (·.2)
    (halving op 10 slots).getD (identityOf cop sew flt)

/-! ## Homes (R374 to R376, R379) -/

/-- Replace the home round of a group and round, keeping those of the two newest rounds. -/
def State.setHome (s : State) (h : HomeRound) : State :=
  { s with homes := h :: s.homes.filter fun x => !(x.gid == h.gid && (x.round == h.round || decide (x.round + 2 < h.round))) }

/-- A home round; one not yet met is empty. -/
def State.homeAt (s : State) (gid round : Nat) : HomeRound :=
  (s.homes.find? fun x => x.gid == gid && x.round == round).getD ⟨gid, round, [], none, none⟩

/-- The late contributions of a group that this device's home has discarded, as round and rank (R371, R379). -/
def State.lateAt (s : State) (gid : Nat) : List (Nat × Nat) := (FMap.get? s.late gid).getD []

/-- A late contribution is noted (R379). -/
def State.countLate (s : State) (p : CollPacket) : State :=
  { s with late := FMap.set s.late p.gid (s.lateAt p.gid ++ [(p.round, p.rank)]) }

/-- A home has accepted a packet of this device's member; the last acceptance sends the report (R374). -/
def State.pushAccepted (s : State) (p : CollPacket) : State :=
  let mine (x : CollPush) : Bool := x.report.gid == p.gid && x.report.round == p.round
  let l := s.pushes.map fun x => if mine x then { x with left := x.left.filter (· != p.home) } else x
  State.sendReports { s with pushes := l }

/-- This device's home takes a packet (R374, R379): one that comes after S was fixed without its sender is discarded
and counted. -/
def State.homeAccepts (s : State) (p : CollPacket) : State :=
  let h := s.homeAt p.gid p.round
  if h.packets.any (·.rank == p.rank) then s
  else
    match h.set with
    | some x => if x.1.contains p.rank then s.setHome { h with packets := h.packets ++ [p] } else s.countLate p
    | none =>
      if (s.released? p.gid p.round).isSome then s.countLate p
      else s.setHome { h with packets := h.packets ++ [p] }

/-- COLLECTIVE_PACKET (R374, R379): a home accepts a packet: this device's, or, for a packet of this device's member,
one elsewhere. -/
def execCollectivePacket (p : CollPacket) (s : State) : Host.Outcome State Fault Refusal :=
  match s.group? p.gid with
  | none => .next s
  | some g =>
    if g.n ≤ p.rank then .next s
    else
      let s := if g.rankOf s.dev = some p.home then s.homeAccepts p else s
      .next (if g.rankOf s.dev = some p.rank then s.pushAccepted p else s)

/-- The offsets that the contributions in S supply (R376). -/
def suppliedOffsets (ps : List CollPacket) : List Nat := ((ps.flatMap (·.elems)).map (·.1)).eraseDups

/-- The result of an offset (R376). -/
def resultOf (ps : List CollPacket) (dlvl o : Nat) : Nat :=
  match ps with
  | [] => 0
  | p :: _ => combineAt p.cop p.sew p.flt dlvl (ps.filterMap fun x => (x.elems.find? (·.1 == o)).map fun e => (x.rank, e.2))

/-- The home of a round combines the contributions of S in its window (R376): a word of the window that is not
overwritten whole is read, and a poisoned one kills the context of every member (R440, log entry 76). -/
def State.combineHome (s : State) (g : Group) (h : HomeRound) (home : Nat) (ps : List CollPacket) (dlvl : Nat) : State :=
  let offs := suppliedOffsets ps
  let n := ((ps.head?.map (·.sew)).getD 32) / 8
  let cells := offs.flatMap fun o => (keysFrom (g.gwin + h.round % 2 * g.gwlen + o) n).zip (leBytes n (resultOf ps dlvl o))
  let part := (cells.map (·.1)).filter fun k => !(wholeWords (cells.map (·.1))).contains (wordOf k)
  match s.read part with
  | (s, none) =>
    let s := s.kill g.ctx Cause.poison.code 0
    { s with outbox := s.outbox ++ [.fixedSet h.gid ⟨h.round, [], 0, true⟩] }
  | (s, some _) =>
    let s := (s.writeBack cells).overwritten (cells.map (·.1))
    { s.setHome { h with written := some offs } with
      outbox := s.outbox ++ [OutMsg.homeDone h.gid h.round home (s.lateAt h.gid)] }

/-- What the leader on another device tells a home (R375): S, kept until its packets are here. -/
def State.learnSet (s : State) (gid : Nat) (m : SetMsg) : State :=
  let h := s.homeAt gid m.round
  if h.set.isSome then s else s.setHome { h with set := some (m.set, m.dlvl) }

/-- HOME_COMBINE (R376): once S is fixed and its packets are here, the home writes the result of every offset
that they supply into the round's half of its window. `told` is S when another device leads, or that a home
elsewhere met poison. -/
def execHomeCombine (gid home : Nat) (told : Option SetMsg) (s : State) : Host.Outcome State Fault Refusal :=
  match s.group? gid with
  | none => .next s
  | some g =>
    if (told.map (·.poison)).getD false then .next (s.kill g.ctx Cause.poison.code 0)
    else
      let s := match told with
        | some m => s.learnSet gid m
        | none => s
      match s.homes.find? fun h => h.gid == gid && h.set.isSome && h.written.isNone with
      | none => .next s
      | some h =>
        match h.set with
        | none => .next s
        | some (set, dlvl) =>
          let ps := h.packets.filter fun p => set.contains p.rank
          if g.rankOf s.dev ≠ some home ∨ !(set.all fun r => ps.any (·.rank == r)) then .next s
          else .next (s.combineHome g h home ps dlvl)

/-! ## The leader (R373, R375, R376) -/

/-- Replace a leader round. -/
def State.setLeader (s : State) (l : LeaderRound) : State :=
  { s with leaders := l :: s.leaders.filter fun x => !(x.gid == l.gid && x.round == l.round) }

/-- A leader fixes S (R375): mismatched contributions are removed, the DLVL is the least in S; S goes to
every home. -/
def State.fixSet (s : State) (l : LeaderRound) (part : Bool) : State :=
  let byRank := sortBy (fun a b => decide (a.rank ≤ b.rank)) l.reports
  match byRank with
  | [] => s
  | p :: _ =>
    let same (q : CollPacket) : Bool := q.cop == p.cop && q.cstr == p.cstr && q.sew == p.sew && q.flt == p.flt
    let inS := byRank.filter same
    let set := inS.map (·.rank)
    let dlvl := inS.foldl (fun a q => min a q.dlvl) 2
    let l : LeaderRound := { l with fixed := some set, removed := (byRank.filter (!same ·)).map (·.rank), dlvl := dlvl, part := part }
    let s := { s.setLeader l with outbox := s.outbox ++ [OutMsg.fixedSet l.gid ⟨l.round, set, dlvl, false⟩] }
    s.setHome { s.homeAt l.gid l.round with set := some (set, dlvl) }

/-- A member contributes no more to a round: it was killed (R435). -/
def State.isGone (s : State) (gid round rank : Nat) : Bool :=
  s.gone.any fun x => x.gid == gid && x.rank == rank && x.round / 2 ^ 32 == round / 2 ^ 32 && decide (x.round ≤ round)

/-- Every member has arrived, but for those that were killed (R375, R435). -/
def State.allArrived (s : State) (g : Group) (l : LeaderRound) : Bool :=
  (List.range g.n).all fun r => l.reports.any (·.rank == r) || s.isGone l.gid l.round r

/-- The leader takes a notice that a member was killed (R435): rounds in progress close once every other member has
arrived. -/
def State.memberGone (s : State) (g : Group) (p : CollPacket) : State :=
  let s : State := { s with gone := s.gone ++ [⟨p.gid, p.rank, p.round⟩] }
  (s.leaders.filter fun l => l.gid == p.gid && l.fixed.isNone).foldl (fun (s : State) l => if s.allArrived g l then s.fixSet l false else s) s

/-- ARRIVAL_REPORT (R373, R375): the leader, the lowest-ranked member live at the first arrival, receives a
member's report; S is fixed when all members have arrived. -/
def execArrivalReport (p : CollPacket) (s : State) : Host.Outcome State Fault Refusal :=
  match s.group? p.gid with
  | none => .next s
  | some g =>
    if p.gone then .next (s.memberGone g p)
    else
      let known := s.leaders.find? fun l => l.gid == p.gid && l.round == p.round
      if g.n ≤ p.rank ∨ (known.isNone ∧ g.rankOf s.dev ≠ (s.liveRanks g).head?) then .next s
      else
        let l := known.getD ⟨p.gid, p.round, [], s.dtime, none, [], 0, false, false⟩
        if l.fixed.isSome ∨ l.reports.any (·.rank == p.rank) then .next s
        else
          let l : LeaderRound := { l with reports := l.reports ++ [p] }
          let s := s.setLeader l
          .next (if s.allArrived g l then s.fixSet l false else s)

/-- COLLECTIVE_DEADLINE (R375): CDL ns after the first arrival, S is fixed as it stands. -/
def execCollectiveDeadline (gid : Nat) (s : State) : Host.Outcome State Fault Refusal :=
  match s.leaders.find? fun l => l.gid == gid && l.fixed.isNone with
  | none => .next s
  | some l =>
    let cdl := (l.reports.head?.map (·.cdl)).getD 0
    .next (if cdl ≠ 0 ∧ l.firstAt + cdl ≤ s.dtime then s.fixSet l true else s)

/-- This device learns that a round is released. -/
def State.addRelease (s : State) (r : Released) : State :=
  if (s.released? r.gid r.info.round).isSome then s else { s with releases := s.releases ++ [r] }

/-- Late contributions of a group, of which each home tells those it has discarded: each counts once, however many homes
have discarded its packets (R379); saturating (R371). -/
def lateTotal (own : List (Nat × Nat)) (homes : List HomeMsg) : Nat :=
  min 65535 (own ++ homes.flatMap (·.late)).eraseDups.length

/-- What the leader broadcasts of a round (R376, R378). -/
def LeaderRound.release (l : LeaderRound) (late : Nat) : ReleaseMsg :=
  let set := l.fixed.getD []
  let p := l.reports.find? fun p => set.contains p.rank
  { round := l.round, set := set, removed := l.removed, part := l.part, late := late,
    cop := (p.map (·.cop)).getD 0, sew := (p.map (·.sew)).getD 32, flt := (p.map (·.flt)).getD false }

/-- ROUND_RELEASE (R376): the leader releases a round once every home has written, or the release of another
leader arrives. `homes` is what the homes on other devices have told. -/
def execRoundRelease (gid : Nat) (told : Option ReleaseMsg) (homes : List HomeMsg) (s : State) :
    Host.Outcome State Fault Refusal :=
  match told with
  | some m => .next (s.addRelease ⟨gid, m, homes⟩)
  | none =>
    match s.leaders.find? (fun l => l.gid == gid && l.fixed.isSome && !l.released), s.group? gid with
    | some l, some g =>
      let done (h : Nat) : Bool :=
        if g.rankOf s.dev = some h then (s.homeAt gid l.round).written.isSome else homes.any (·.home == h)
      if !(s.liveHomes g).all done then .next s
      else
        let m := l.release (lateTotal (s.lateAt gid) homes)
        let s := (s.setLeader { l with released := true }).addRelease ⟨gid, m, homes⟩
        .next { s with outbox := s.outbox ++ [OutMsg.release gid m] }
    | _, _ => .next s

/-! ## VLDC (R380) -/

/-- Where one element of VLDC stops, or the value it reads. -/
inductive ResultRead
  | value (s : State) (v : Nat)
  | fault (cause : Cause) (addr : Word)
  | poison (s : State)

/-- A byte of a window that no contribution of a round supplied: of the identity of the round's operator (R376). -/
def identByte (r : ReleaseMsg) (o : Nat) : Byte :=
  (leBytes (r.sew / 8) (identityOf r.cop r.sew r.flt)).getD (o % (r.sew / 8)) 0

/-- The bytes of this device's window that a round's contributions supplied, of n from an offset. -/
def State.suppliedHere (s : State) (gid : Nat) (r : ReleaseMsg) (o n : Nat) : List Nat :=
  let offs := (s.homeAt gid r.round).written.getD []
  (List.range n).filter fun i => offs.contains ((o + i) / (r.sew / 8) * (r.sew / 8))

/-- A byte of the window of a home elsewhere, as it has told of it. -/
def Released.toldByte (x : Released) (home o : Nat) : Byte :=
  match ((x.homes.find? (·.home == home)).map (·.results)).getD [] |>.find? (·.1 == o) with
  | some b => b.2
  | none => identByte x.info o

/-- The value of an offset of the last released round (R376, R380): from this device's window, from what homes
elsewhere hold, or the identity where nothing was supplied (log entry 19). -/
def State.resultAt (s : State) (g : Group) (gid rank : Nat) (round : Option Nat) (o : Nat) : ResultRead :=
  let c := s.lc
  let n := c.sew / 8
  match round.bind (s.released? gid) with
  | none => .value s (identityOf c.cop.toNat c.sew (Vtype.flt c.vtype))
  | some x =>
    let r := x.info
    let home := homeOf c.cstr.toNat g.n o
    if (s.released? gid (r.round + 2)).isSome then .fault .clate (BitVec.ofNat 64 o)
    else if home = rank then
      let is := s.suppliedHere gid r o n
      match s.read (is.map fun i => g.gwin + r.round % 2 * g.gwlen + o + i) with
      | (s, none) => .poison s
      | (s, some b) =>
        .value s (leNat ((List.range n).map fun i =>
          ((is.zip b).find? (·.1 == i)).map (·.2) |>.getD (identByte r (o + i))))
    else .value s (leNat ((List.range n).map fun i => x.toldByte home (o + i)))

/-- The elements of VLDC, in ascending order (R95, R380). -/
def loadResults (g : Group) (gid rank : Nat) (round : Option Nat) (d : Nat) (a : Word) :
    List Nat → State → State × Option (Nat × Option (Cause × Word))
  | [], s => (s, none)
  | e :: l, s =>
    let o := (a + BitVec.ofNat 64 (e * (s.lc.sew / 8))).toNat
    if a.toNat % (s.lc.sew / 8) ≠ 0 then (s, some (e, some (.misalign, a)))
    else if g.gwlen ≤ o then (s, some (e, some (.bounds, BitVec.ofNat 64 o)))
    else
      match s.resultAt g gid rank round o with
      | .fault c v => (s, some (e, some (c, v)))
      | .poison s => (s, some (e, none))
      | .value s v => loadResults g gid rank round d a l (s.setLc (s.lc.setVal d s.lc.sew e v))

/-- VLDC (R380). It accepts e32f whatever COP holds (log entry 117). -/
def execVldc (f : VF) (s : State) : Host.Outcome State Fault Refusal :=
  let m : Member := { Member.base (encode (.vldc f)) f.m with ill := s.lc.notColl, vw := [s.lc.grp f.d], gr := [f.s1] }
  checked m s fun s =>
    onGroup s fun gid g rank s =>
      let q := s.collIn s.lc gid
      let round : Option Nat :=
        if q.next % 2 ^ 32 = 0 then none
        else if (s.released? gid (q.next - 1)).isSome then some (q.next - 1)
        else if q.next % 2 ^ 32 = 1 then none else some (q.next - 2)
      let stop := s.stopAt s.lc.vl
      let act := s.lc.activeIn f.m s.lc.vstart.toNat (stop.getD s.lc.vl)
      match loadResults g gid rank round f.d.toNat (s.lc.rd f.s1) act s with
      | (s, some (e, some (c, v))) => s.stopped (.trap c v) 0 (BitVec.ofNat 13 e)
      | (s, some (_, none)) => s.stopped .poison 0 s.lc.vstart
      | (s, none) => .next (s.endAt stop)

/-! ## A group made anew (R368, R371, R453) -/

/-- What a logical core keeps of a group goes: its rounds and its exchange (R368, R373). -/
def LCore.dropGroup (gid : Nat) (c : LCore) : LCore := { c with coll := FMap.erase c.coll gid, xchs := FMap.erase c.xchs gid }

/-- What the engines and the members keep of a group goes: its entry is no longer valid. -/
def State.dropGroup (s : State) (gid : Nat) : State :=
  ({ s with
      homes := s.homes.filter (·.gid != gid), leaders := s.leaders.filter (·.gid != gid),
      releases := s.releases.filter (·.gid != gid), pushes := s.pushes.filter (·.report.gid != gid),
      gone := s.gone.filter (·.gid != gid), collRuns := FMap.erase s.collRuns gid, late := FMap.erase s.late gid,
      imposers := s.imposers.filter (·.gid != gid), xgens := FMap.erase s.xgens gid, early := s.early.filter (·.gid != gid),
      threads := s.threads.map fun t => (t.1, { t.2 with lc := t.2.lc.dropGroup gid }),
      saved := s.saved.map fun i => { i with lc := i.lc.dropGroup gid },
      ghosts := s.ghosts.map (LCore.dropGroup gid) } : State).dropLeave (xgoLeave gid)

/-- The groups whose GV[0] the host has written 0, in a write of some keys, are made anew: their counts and rounds
start again (R371, log entry 77). -/
def State.groupsWritten (s : State) (keys : List Nat) : State :=
  let base := s.host.gtbase.toNat
  let gids := (keys.filter fun k => decide (base ≤ k) && decide (k < base + 2 ^ 24) && (k - base) % 4096 == 0x18
    && (Memory.get s.mem k).toNat % 2 == 0).map fun k => (k - base) / 4096
  gids.foldl State.dropGroup s

end Sys2Proof.Machine
end

