-- ==== Sys2Proof/Machine/Exchange.lean ====
section
/-! DEFINITION. The Imposed Exchange (R381 to R397): the control area, posting demand, the imposition, the
engine that sends and receives, and the Imposer with its standby. -/

namespace Sys2Proof.Machine

/-! ## The member of a group on this device -/

/-- Where the engine finds a logical core: on a thread, saved, or gone with an exchange under way. -/
inductive Seat
  | thread (n : Nat)
  | image (i : Nat)
  | ghost (i : Nat)
  deriving DecidableEq, Repr

/-- The first logical core of this device that meets a test, on a thread or saved. -/
def State.seat (s : State) (p : LCore → Bool) : Option Seat :=
  match threadNumbers.find? fun n => (s.thr n).occupied && p (s.thr n).lc with
  | some n => some (.thread n)
  | none => (s.saved.findIdx? fun i => p i.lc).map .image

/-- The logical core in a seat. -/
def State.seated (s : State) : Seat → LCore
  | .thread n => (s.thr n).lc
  | .image i => ((s.saved[i]?).map (·.lc)).getD (.start .nothing)
  | .ghost i => (s.ghosts[i]?).getD (.start .nothing)

/-- Replace the logical core in a seat. -/
def State.reseat (s : State) (w : Seat) (c : LCore) : State :=
  match w with
  | .thread n => s.setLcOf n c
  | .image i => { s with saved := s.saved.modify i fun x => { x with lc := c } }
  | .ghost i => { s with ghosts := s.ghosts.set i c }

/-- The exchange state in a group of the logical core in a seat. -/
def State.xchAt (s : State) (w : Seat) (gid : Nat) : XchMember := (s.seated w).xchIn gid

/-- Replace it. -/
def State.setXchAt (s : State) (w : Seat) (gid : Nat) (x : XchMember) : State := s.reseat w ((s.seated w).setXch gid x)

/-- Some send of the member has not gone. -/
def XchMember.unsent (x : XchMember) : Bool :=
  x.grants.zipIdx.any (fun g => g.1.dst != 0xFFFF && !x.started.contains g.2) || x.dests.any (!·.tail.isEmpty)

/-- Every source is complete. -/
def XchMember.allIn (x : XchMember) : Bool := x.sources.all (·.complete)

/-- The exchange of the member has completed. -/
def XchMember.complete (x : XchMember) : Bool := x.granted && !x.unsent && x.allIn

/-- The engine has nothing more to do for a member that is gone: the exchange is complete, or, of a killed one, its end
flits are sent (R395). -/
def XchMember.over (x : XchMember) : Bool := x.complete || (x.cut && x.granted && !x.unsent)

/-- The logical core whose exchange in a group is under way. -/
def State.exchangeSeat (s : State) (gid : Nat) : Option Seat :=
  match s.seat fun c => (c.xchIn gid).active with
  | some w => some w
  | none => (s.ghosts.findIdx? fun c => (c.xchIn gid).active && !(c.xchIn gid).over).map .ghost

/-- The member of a group whose exchange is under way, else the logical core that R368 names. -/
def State.memberSeat (s : State) (gid : Nat) (g : Group) : Option Seat :=
  match s.exchangeSeat gid with
  | some w => some w
  | none => s.seat fun c => g.isMember s.dev c

/-- The core of a seat: of its thread, or the one that holds its image, or 0. -/
def State.seatCore (s : State) : Seat → Nat
  | .thread n => n / 4
  | .image i =>
    match s.saved[i]? with
    | none => 0
    | some x =>
      match x.at_ with
      | .slot core _ => core
      | .pool _ => 0
  | .ghost _ => 0

/-! ## The control area (R381, R382) -/

/-- The key of an offset in an area. -/
def areaKey (area : List (Nat × Bool)) (off : Nat) : Nat :=
  match area[off / 4096]? with
  | none => 0
  | some (b, st) => if st then stripedCell (b + off % 4096) else b + off % 4096

/-- The keys of n bytes of an area. -/
def areaKeys (area : List (Nat × Bool)) (off n : Nat) : List Nat := (List.range n).map fun i => areaKey area (off + i)

/-- Write a number into an area, when there is one. -/
def State.putArea' (s : State) (area : List (Nat × Bool)) (off n x : Nat) : State :=
  if area.isEmpty then s else s.write ((areaKeys area off n).zip (leBytes n x))

/-- Translate the 24 KiB of an area as WRITE accesses, block by block (R382): a block that a swap in flight has moved
is taken where it is now, and one that is moving holds the translation (R101). -/
def State.areaBlocks (who : Who) (base : Word) : List Nat → State → State × Except Stop (List (Nat × Bool))
  | [], s => (s, .ok [])
  | i :: l, s =>
    match s.xlate tlb2 who .area .write (base + BitVec.ofNat 64 (4096 * i)) with
    | (s, .error e) => (s, .error e)
    | (s, .ok p) =>
      match if p.striped then some p.base else s.redirect true p.base with
      | none => (s, .error .held)
      | some b =>
        match State.areaBlocks who base l s with
        | (s, .error e) => (s, .error e)
        | (s, .ok m) => (s, .ok ((b, p.striped) :: m))

/-- Read a number of an area (R382): none when it is poisoned. -/
def State.areaNum (s : State) (area : List (Nat × Bool)) (off : Nat) : State × Option Word :=
  match s.read (areaKeys area off 8) with
  | (s, none) => (s, none)
  | (s, some b) => (s, some (BitVec.ofNat 64 (leNat b)))

/-- XSBUF, XRBUF and XRLEN of an area (R382). -/
def State.areaHead (s : State) (area : List (Nat × Bool)) : State × Option (Word × Word × Word) :=
  match s.areaNum area 0 with
  | (s, none) => (s, none)
  | (s, some a) =>
    match s.areaNum area 8 with
    | (s, none) => (s, none)
    | (s, some b) =>
      match s.areaNum area 16 with
      | (s, none) => (s, none)
      | (s, some c) => (s, some (a, b, c))

/-! ## Status (R390, R394) -/

/-- Set a flag of XSTAT: 0 SHORT, 1 LATE, 2 SKEW, 3 DROP, 4 NOTRIM, 5 FOVER, 6 NOROW, 7 DEAD. -/
def XchMember.flag (x : XchMember) (i : Nat) : XchMember := { x with flags := x.flags ||| BitVec.ofNat 9 (2 ^ i) }

/-- Leave is given back once every send is done and every source is complete (R409). -/
def State.xchSettle (s : State) (x : XchMember) : State :=
  if x.complete then s.dropLeave (xgoLeave x.gid) else s

/-- This device's offset from the domain clock exceeds 125 ns (R392). -/
def State.skewed (s : State) : Bool := decide (125 < s.dtOffset.natAbs)

/-! ## Posting demand (R384) -/

/-- The checks that DPOST and DPOSTA share (R384): the group, then VL and the member's own element; the post is a
release. -/
def onDemand (word : IWord) (r : Reg) (s : State) (k : Nat → Group → Nat → State → Host.Outcome State Fault Refusal) :
    Host.Outcome State Fault Refusal :=
  let m : Member := { Member.base word false with
    ill := Vtype.vill s.lc.vtype || Vtype.flt s.lc.vtype || s.lc.sew != 64, vr := [s.lc.grp r] }
  checked m s fun s =>
    onGroup s fun gid g rank s =>
      if s.lc.vl ≠ g.n ∨ s.lc.val r.toNat 64 rank ≠ 0 then .next (s.xfail 3) else afterPushes true (k gid g rank) s

/-- The row that a register group holds. -/
def LCore.row (c : LCore) (r n : Nat) : List Nat := (List.range n).map fun j => c.val r 64 j

/-- The last generation of a group that a member has accepted: itself, or one of an earlier launch on this device
(R397, log entry 104). -/
def State.genOf (s : State) (gid : Nat) (x : XchMember) : Nat := max x.gen ((FMap.get? s.xgens gid).getD 0)

/-- A rank's device has died (R369). -/
def State.isDead (s : State) (g : Group) (r : Nat) : Bool := s.dead.contains ((g.members.getD r (0, 0)).1)

/-- The flags of XSTAT that a new exchange has from the start: SKEW, and DEAD where a member has died (R390, R392,
R394). -/
def State.firstFlags (s : State) (g : Group) : BitVec 9 :=
  (if s.skewed then 4 else 0) ||| (if (List.range g.n).any (s.isDead g) then 0x80 else 0)

/-- Send a row to the Imposers. -/
def State.postRow (s : State) (gid rank : Nat) (add : Bool) (row : List Nat) : State :=
  { s with outbox := s.outbox ++ [.row ⟨gid, rank, add, row, s.lc.cdl.toNat, s.genOf gid (s.lc.xchIn gid), false, []⟩] }

/-- A new exchange of a group: the generation accepted stays, and so do the faults recorded and not yet delivered
(R388, R393). -/
def XchMember.anew (x : XchMember) (gid : Nat) : XchMember :=
  { XchMember.start with active := true, gid := gid, gen := x.gen, faults := x.faults, fail6 := x.fail6 }

/-- DPOST (R382, R384). A member without a row in the exchange under way has its row discarded; so is that of a second
DPOST, which has begun no exchange of its own (log entry 118). -/
def execDpost (f : VF) (s : State) : Host.Outcome State Fault Refusal :=
  onDemand (encode (.dpost f)) f.s1 s fun gid g rank s =>
    let x := s.lc.xchIn gid
    if x.active && !x.complete && x.posted then .next (s.xfail 5)
    else if x.active && !x.complete then
      .next (s.setLc (s.lc.setXch gid { x.flag 6 with dposted := true }).advance)
    else
      match State.areaBlocks s.who s.lc.xbase (List.range 6) s with
      | (s, .error e) => s.stopped e 0 s.lc.vstart
      | (s, .ok area) =>
        match s.areaHead area with
        | (s, none) => s.stopped .poison 0 s.lc.vstart
        | (s, some (sb, rb, rl)) =>
          let y : XchMember := { x.anew gid with
            dposted := true, posted := true, core := s.core, area := area, sbuf := sb, rbuf := rb, rlen := rl,
            flags := s.firstFlags g }
          let s := (s.dropLines s.core (areaKeys area 0 24)).postRow gid rank false (s.lc.row f.s1.toNat g.n)
          .next (s.setLc (s.lc.setXch gid y).advance)

/-- DPOSTA (R384): its row is added; after the calendar is fixed it is discarded, here where the member has accepted the
calendar already. -/
def execDposta (f : VF) (s : State) : Host.Outcome State Fault Refusal :=
  onDemand (encode (.dposta f)) f.s1 s fun gid g rank s =>
    let x := s.lc.xchIn gid
    if !x.dposted then .next (s.xfail 8)
    else
      .next (if x.granted then s.setLc (s.lc.setXch gid (x.flag 3)).advance
        else (s.postRow gid rank true (s.lc.row f.s1.toNat g.n)).setLc s.lc.advance)

/-! ## Building the imposition (R386, R387) -/

/-- The demand of a pair. -/
def demand (m : FMap (List Nat)) (i j : Nat) : Nat := ((FMap.get? m i).getD []).getD j 0

/-- The best destination for a source: the largest demand among those not matched, the lowest rank. -/
def bestDest (q : List (List Nat)) (i : Nat) (matched : List (Nat × Nat)) : Option Nat :=
  let row := q.getD i []
  (List.range row.length).foldl (fun a j =>
    if matched.any (·.2 == j) || row.getD j 0 == 0 then a
    else match a with
      | none => some j
      | some b => if row.getD b 0 < row.getD j 0 then some j else a) none

/-- One sheet of the greedy matching: sources in ascending rank (R386). -/
def matchSheet (q : List (List Nat)) : List (Nat × Nat) :=
  (List.range q.length).foldl (fun m i =>
    match bestDest q i m with
    | some j => m ++ [(i, j)]
    | none => m) []

/-- The sheets of a demand, at most `fuel` of them (R386). -/
def buildSheets : Nat → List (List Nat) → List (List (Nat × Nat) × Nat)
  | 0, _ => []
  | fuel + 1, q =>
    let m := matchSheet q
    match m with
    | [] => []
    | p :: _ =>
      let at_ (x : Nat × Nat) : Nat := (q.getD x.1 []).getD x.2 0
      let l := m.foldl (fun a x => min a (at_ x)) (at_ p)
      let q' := m.foldl (fun q x => q.modify x.1 fun row => row.modify x.2 (· - l)) q
      (m, l) :: buildSheets fuel q'

/-- The length of a sheet in ns (R387). -/
def sheetTime (xrate l : Nat) : Nat := (256 * l + xrate - 1) / xrate + 250

/-- Quanta of 256 bytes. -/
def quanta (b : Nat) : Nat := (b + 255) / 256

namespace Imposition

/-- What pair (i, j) had sent before this calendar. -/
def before (x : Imposition) (i j : Nat) : Nat := demand x.sent i j

/-- The bytes of pair (i, j) that its sheets below k carry, from its bytes left (R387). -/
def carried (x : Imposition) (i j k : Nat) : Nat :=
  (x.sheets.take k).foldl (fun a sh =>
    if sh.1.contains (i, j) then a + min (256 * sh.2) (demand x.rows i j - x.before i j - a) else a) 0

/-- SOFF(i, j) (R387), by the first calendar (R396). -/
def soff (x : Imposition) (i j : Nat) : Nat :=
  256 * (((List.range j).map fun k => quanta (demand x.layout i k)).foldl (· + ·) 0)

/-- ROFF(i, j) (R387), by the first calendar (R396). -/
def roff (x : Imposition) (i j : Nat) : Nat :=
  256 * (((List.range i).map fun k => quanta (demand x.layout k j)).foldl (· + ·) 0)

/-- TSTART of sheet k (R387). -/
def tstart (x : Imposition) (xrate k : Nat) : Nat :=
  x.t0 + ((x.sheets.take k).map fun sh => sheetTime xrate sh.2).foldl (· + ·) 0

/-- The grant of member i in sheet k (R383, R387). -/
def grant (x : Imposition) (xrate i k : Nat) : Grant :=
  let m := ((x.sheets[k]?).map (·.1)).getD []
  let out := (m.find? (·.1 == i)).map (·.2)
  let src := (m.find? (·.2 == i)).map (·.1)
  { tstart := x.tstart xrate k, dst := out.getD 0xFFFF, src := src.getD 0xFFFF,
    sbytes := (out.map fun j => x.carried i j (k + 1) - x.carried i j k).getD 0,
    soff := (out.map fun j => x.soff i j + x.before i j + x.carried i j k).getD 0,
    roff := (src.map fun j => x.roff j i + x.before j i + x.carried j i k).getD 0 }

/-- What member i of n is given (R387). -/
def grantsFor (x : Imposition) (xrate n i : Nat) : GrantsMsg :=
  let all := List.range n
  { gen := x.gen, t0 := x.t0, tend := x.tstart xrate x.sheets.length,
    grants := (List.range x.sheets.length).map (x.grant xrate i),
    exp := all.map fun j => demand x.rows j i, roffs := all.map fun j => x.roff j i,
    bytes := all.map fun j => demand x.rows i j, soffs := all.map fun j => x.soff i j,
    sent := all.map fun j => x.before i j, posted := (FMap.get? x.rows i).isSome, rebuilt := x.rebuilt }

/-- The rows without dead members, and without demand to them (R386). -/
def alive (x : Imposition) (dead : Nat → Bool) : Imposition :=
  { x with rows := (x.rows.filter fun r => !dead r.1).map fun r =>
      (r.1, r.2.zipIdx.map fun y => if dead y.2 then 0 else y.1) }

/-- The calendar is fixed at time F (R386, R387): T0, the sheets, a new generation; the first one places the pairs. -/
def fix (x : Imposition) (n F : Nat) : Imposition :=
  let q := (List.range n).map fun i => (List.range n).map fun j => quanta (demand x.rows i j - x.before i j)
  { x with fixedAt := some F, written := false, layout := if x.layout.isEmpty then x.rows else x.layout, sheets := buildSheets 256 q, t0 := 1000 * ((F + 999) / 1000) + 5000,
           gen := (x.gen + 1) % 2 ^ 32, firstGen := if x.layout.isEmpty then (x.gen + 1) % 2 ^ 32 else x.firstGen }

end Imposition

/-! ## The Imposer (R385, R396) -/

/-- The Imposition of a group on this device. -/
def State.imposer? (s : State) (gid : Nat) : Option Imposition := s.imposers.find? (·.gid == gid)

/-- Replace an Imposition. -/
def State.setImposer (s : State) (x : Imposition) : State :=
  { s with imposers := x :: s.imposers.filter (·.gid != x.gid) }

/-- The device of a rank is this one: its engine is the primary (place 0) or the standby (place 1) (R396). -/
def State.imposerAt (s : State) (g : Group) (place : Nat) : Bool :=
  match (s.liveRanks g)[place]? with
  | none => false
  | some r => (g.members.getD r (0, 0)).1 == s.dev

/-- This device's engine decides for a group: it is the primary, or a standby that has taken over (R396). -/
def Imposition.leads (x : Imposition) : Bool := x.place == 0 || x.lead

/-- The calendar of a group is fixed now, from the rows of live members (R385, R386). -/
def State.fixNow (s : State) (g : Group) (x : Imposition) : Imposition := (x.alive (s.isDead g)).fix g.n s.dtime

/-- Every live member has posted, and there is a row (R385). -/
def State.allPosted (s : State) (g : Group) (x : Imposition) : Bool :=
  !x.rows.isEmpty && (s.liveRanks g).all fun r => (FMap.get? x.rows r).isSome

/-- Set a flag of XSTAT of the rank that a message concerns: of this device's member, or by the row going back to
its member (R384, R385). -/
def State.discardRow (s : State) (g : Group) (m : DemandMsg) : State :=
  if g.rankOf s.dev = some m.rank then
    match s.memberSeat m.gid g with
    | none => s
    | some w => s.setXchAt w m.gid ((s.xchAt w m.gid).flag (if m.add then 3 else 6))
  else { s with outbox := s.outbox ++ [.row { m with back := true }] }

/-- The Imposition in which a row is recorded (R385, R396, R397): the one under way, or a new exchange of the group,
at the last generation known; this device is its primary, or its standby. -/
def State.imposition (s : State) (g : Group) (m : DemandMsg) : Imposition :=
  let place := if s.imposerAt g 0 then 0 else 1
  let fresh (gen first : Nat) : Imposition := ⟨m.gid, false, [], 0, 0, none, false, [], 0, gen, 0, [], [], false, place, first⟩
  match s.imposer? m.gid with
  | none => fresh m.gen m.gen
  | some x => if x.fixedAt.isSome then fresh (max x.gen m.gen) x.firstGen else { x with gen := max x.gen m.gen }

/-- A row of an exchange whose calendar is fixed, whether or not the next has begun: its member had not accepted that
calendar when it posted; or a row to be added to none (R384, R385). -/
def Imposition.missedBy (x : Imposition) (m : DemandMsg) : Bool :=
  decide (m.gen < x.firstGen) || (m.add && (x.fixedAt.isSome || (FMap.get? x.rows m.rank).isNone))

/-- A row with the bytes of another added (R384). -/
def addRows (old row : List Nat) : List Nat := old.zipWith (fun a b => (a + b) % 2 ^ 64) row

/-- DEMAND_ROW (R384, R385): a posted row reaches this device's Imposer. Its exchange is fixed once every live
member has posted; a row that missed the fix is discarded. Or a row that another Imposer discarded comes back. -/
def execDemandRow (m : DemandMsg) (s : State) : Host.Outcome State Fault Refusal :=
  match s.group? m.gid with
  | none => .next s
  | some g =>
    let old := s.imposer? m.gid
    if m.back then .next (if g.rankOf s.dev = some m.rank then s.discardRow g m else s)
    else if g.n ≤ m.rank then .next s
    else if (match old with
        | none => m.add
        | some x => x.missedBy m) then
      .next (s.discardRow g m)
    else
      let x := s.imposition g m
      let row := if m.add then addRows ((FMap.get? x.rows m.rank).getD []) m.row else m.row
      let x : Imposition := if x.rows.isEmpty then { x with firstAt := s.dtime, cdl := m.cdl } else x
      let x : Imposition := { x with rows := FMap.set x.rows m.rank (row.map (· % 2 ^ 64)) }
      let x : Imposition := if m.sent.isEmpty then x else
        { x with sent := FMap.set x.sent m.rank m.sent, layout := FMap.set x.layout m.rank m.row, firstGen := m.gen }
      .next (s.setImposer (if s.allPosted g x && x.leads then s.fixNow g x else x))

/-- The exchange of a member that posted no row, with the area taken as the calendar is fixed (R382): none while the
swap engine holds a block of it; poison in a table entry or in the header kills the member's context (R440). -/
def State.lateArea (s : State) (w : Seat) (gid : Nat) (g : Group) : State × Option XchMember :=
  let kills (s : State) (c : LCore) : State := s.kill c.job.ctx Cause.poison.code (match w with
    | .thread n => n
    | _ => 0)
  let c := s.seated w
  let old := c.xchIn gid
  let who : Who := ⟨some (s.seatCore w), c.job.ctx, c.level⟩
  let x : XchMember := { old.anew gid with dposted := old.dposted, core := s.seatCore w, flags := old.flags ||| s.firstFlags g }
  match State.areaBlocks who c.xbase (List.range 6) s with
  | (s, .error .held) => (s, none)
  | (s, .error .poison) => (kills s c, none)
  | (s, .error _) => (s, some x)
  | (s, .ok area) =>
    match s.areaHead area with
    | (s, none) => (kills s c, none)
    | (s, some (sb, rb, rl)) => (s, some { x with area := area, sbuf := sb, rbuf := rb, rlen := rl })

/-- The calendar of a group is fixed: this device's member, if it has no row in it, has its area taken (R382). -/
def State.takeArea (s : State) (gid : Nat) (g : Group) : State :=
  match s.memberSeat gid g with
  | none => s
  | some w =>
    let x := s.xchAt w gid
    if x.active && !x.complete then s
    else
      match s.lateArea w gid g with
      | (s, none) => s
      | (s, some y) => s.setXchAt w gid y

/-- CALENDAR_DEADLINE (R385): CDL ns after the first row, the calendar is fixed from the rows posted, here or by the
Imposer of another device; a member with no row has its area taken. -/
def execCalendarDeadline (gid : Nat) (s : State) : Host.Outcome State Fault Refusal :=
  match s.group? gid, s.imposer? gid with
  | some g, some x =>
    .next (if !x.leads then s.takeArea gid g
      else if x.fixedAt.isNone ∧ x.rows ≠ [] ∧ x.cdl ≠ 0 ∧ x.firstAt + x.cdl ≤ s.dtime then
        (s.setImposer (s.fixNow g x)).takeArea gid g
      else s)
  | some g, none => .next (s.takeArea gid g)
  | _, _ => .next s

/-- IMPOSER_HEARTBEAT (R396): the Imposer sends one; the standby hears it or misses it. -/
def execImposerHeartbeat (gid : Nat) (heard : Bool) (s : State) : Host.Outcome State Fault Refusal :=
  match s.imposer? gid with
  | some x =>
    if x.leads then .next { s with outbox := s.outbox ++ [.heartbeat gid] }
    else .next (s.setImposer { x with missed := if heard then 0 else x.missed + 1 })
  | none => .next s

/-- What each pair has sent once the sheets whose TSTART has passed complete (R396). -/
def Imposition.sentBy (x : Imposition) (xrate n now : Nat) : FMap (List Nat) :=
  let past := (List.range x.sheets.length).filter fun k => decide (x.tstart xrate k ≤ now)
  (List.range n).map fun i => (i, (List.range n).map fun j => x.before i j + x.carried i j past.length)

/-- STANDBY_TAKEOVER (R396): after three missed heartbeats the standby rebuilds the calendar, without the
sheets whose TSTART has passed, at a new generation; the rows, with what their pairs have sent, go to the member it names
as the new standby. -/
def execStandbyTakeover (gid : Nat) (s : State) : Host.Outcome State Fault Refusal :=
  match s.group? gid, s.imposer? gid with
  | some g, some x =>
    if x.missed < 3 ∨ x.leads then .next s
    else
      let y : Imposition := { x with lead := true, missed := 0, sent := x.sentBy g.xrate g.n s.dtime, rebuilt := true }
      let rows := (if x.layout.isEmpty then x.rows else x.layout).map fun r =>
        OutMsg.row ⟨gid, r.1, false, r.2, x.cdl, x.gen, false,
          if x.layout.isEmpty then [] else (FMap.get? y.sent r.1).getD []⟩
      .next { s.setImposer (s.fixNow g y) with outbox := s.outbox ++ rows }
  | _, _ => .next s

/-! ## Grants reach the member (R381, R382, R385, R387) -/

/-- XRLEN holds what the sources were granted (R388). -/
def XchMember.fits (x : XchMember) : Bool :=
  decide ((x.sources.map fun y => 256 * quanta y.exp).foldl (· + ·) 0 ≤ x.rlen.toNat)

/-- The sends of sheets that are past and have not started, by destination, as transfers of the tail (R389): a trim
accepted for one holds (R391). -/
def XchMember.missed (x : XchMember) (now : Nat) : List (Nat × Nat × TailPart) :=
  (x.grants.zipIdx.filter fun g => g.1.dst != 0xFFFF && decide (g.1.tstart < now) && !x.started.contains g.2).map fun g =>
    let off := g.1.soff - ((x.dests[g.1.dst]?).map (·.soff)).getD 0
    (g.2, g.1.dst, match x.trims.find? (·.1 == g.2) with
      | some t => ⟨off, t.2, true⟩
      | none => ⟨off, g.1.sbytes, false⟩)

/-- Some transfers join those of the tail, in ascending offset (R390). -/
def addTail (d : List XDest) (l : List (Nat × TailPart)) : List XDest :=
  l.foldl (fun d p => d.modify p.1 fun y =>
    { y with tail := sortBy (fun a b => decide (a.off ≤ b.off)) (p.2 :: y.tail) }) d

/-- The engine of an armed member joins, once it has leave and grants (R388, R389), and what VSTP had pushed before the
XGO is in memory (R189): the sends of sheets already past go to the loose tail. -/
def State.joinExchange (s : State) (w : Seat) (gid : Nat) : State :=
  let x := s.xchAt w gid
  if x.armed && x.granted && !x.joined && !x.disarmed && x.after.isEmpty && s.hasLeave (xgoLeave gid) then
    let past := x.missed s.dtime
    let y : XchMember := { x with
      joined := true, started := x.started ++ past.map (·.1), dests := addTail x.dests (past.map (·.2)) }
    s.setXchAt w gid (if past.isEmpty then y else y.flag 1)
  else s

/-- Write a member's area from its grants, XGENW last (R381, R387). -/
def State.writeArea (s : State) (x : XchMember) (rank : Nat) (m : GrantsMsg) : State :=
  let put (s : State) (off n v : Nat) : State := s.putArea' x.area off n v
  let s := put (put (put (put s 0x1C 2 m.grants.length) 0x1E 2 rank) 0x20 8 m.t0) 0x28 8 m.tend
  let s := put s 0x30 16 0
  let s := x.sources.zipIdx.foldl (fun s y => put (put s (0x40 + 8 * y.2) 8 y.1.arr) (0x2000 + 8 * y.2) 8 y.1.exp) s
  let s := m.grants.zipIdx.foldl (fun s g =>
    let o := 0x4000 + 32 * g.2
    put (put (put (put (put (put s o 8 g.1.tstart) (o + 8) 2 g.1.dst) (o + 10) 2 g.1.src) (o + 12) 4 g.1.sbytes)
      (o + 16) 8 g.1.soff) (o + 24) 8 g.1.roff) s
  put s 0x18 4 m.gen

/-- The exchange of a member with a calendar (R385 to R387, R390, R396). On a rebuilt one, what is left of the tail,
and the sheets that it missed, stay to be sent where the new calendar does not grant their bytes again. -/
def XchMember.withGrants (x : XchMember) (n now : Nat) (dead : Nat → Bool) (m : GrantsMsg) : XchMember :=
  let sources : List XSource := (List.range n).map fun j =>
    let old := x.sources[j]?
    let exp := m.exp.getD j 0
    ⟨(old.map (·.arr)).getD 0, exp, ((old.map (·.complete)).getD false && m.rebuilt) || exp == 0 || dead j, dead j,
      m.roffs.getD j 0, (old.map (·.keys)).getD []⟩
  let inSheets (j : Nat) : Nat := ((m.grants.filter (·.dst == j)).map (·.sbytes)).foldl (· + ·) 0
  let late := if m.rebuilt then ((x.missed now).map (·.2)).filter fun p => decide (p.2.off < m.sent.getD p.1 0) else []
  let kept (j : Nat) : List TailPart :=
    if m.rebuilt then (((x.dests[j]?).map (·.tail)).getD []).filter fun p => decide (p.off < m.sent.getD j 0) else []
  let dests : List XDest := (List.range n).map fun j =>
    let sent := m.sent.getD j 0 + inSheets j
    let rest : List TailPart := if sent < m.bytes.getD j 0 then [⟨sent, m.bytes.getD j 0 - sent, false⟩] else []
    ⟨m.bytes.getD j 0, m.soffs.getD j 0, if dead j then [] else kept j ++ rest⟩
  let y : XchMember := { x with
    granted := true, gen := m.gen, t0 := m.t0, tend := m.tend, grants := m.grants, started := [], trims := [],
    ready := (x.readyNext.filter (·.gen == m.gen)).map fun r => (r.dst, r.sheet)
    readyNext := x.readyNext.filter fun r => decide (m.gen < r.gen)
    sources := sources, dests := addTail dests (late.filter fun p => !dead p.1), joined := false }
  let y := if m.posted || !x.posted then y else y.flag 6
  let y := if m.rebuilt then y.flag 5 else y
  let y := if sources.any (·.dead) then y.flag 7 else y
  if y.armed && !y.fits && !y.disarmed then { y with disarmed := true, fail6 := true } else y

/-- The member's XGEN, also in its image when it is saved (R387, R429). -/
def State.putXgen (s : State) (w : Seat) (gen : Nat) : State :=
  let s := s.reseat w { s.seated w with xgen := BitVec.ofNat 32 gen }
  match w with
  | .image i =>
    match s.saved[i]? with
    | some x => s.write ((keysFrom (s.imageOff x.at_ (0x200 + 8 * 0x51)) 8).zip (leBytes 8 gen))
    | none => s
  | _ => s

/-! ## Sending (R388 to R392) -/

/-- On whose behalf the engine of a member accesses memory. -/
def xchWho (c : LCore) (x : XchMember) : Who := ⟨some x.core, c.job.ctx, if c.job.priv then .s else .u⟩

/-- Read bytes of a send buffer page by page, up to a fault (R393). -/
def State.readUpTo (who : Who) : Nat → State → Word → Nat → State × List Byte × Option Halt
  | 0, s, _, _ => (s, [], none)
  | fuel + 1, s, va, n =>
    if n = 0 then (s, [], none)
    else
      let here := min n (0x8000 - va.toNat % 0x8000)
      match State.xlateBytes tlb2 who .plain .read 2 s va here with
      | (s, .error e) => (s, [], some e.halt)
      | (s, .ok l) =>
        match s.read (l.map (·.key)) with
        | (s, none) => (s, [], some .poison)
        | (s, some b) =>
          let r := State.readUpTo who fuel s (va + BitVec.ofNat 64 here) (n - here)
          (r.1, b ++ r.2.1, r.2.2)

/-- A pair of a member, as destination; one that the calendar does not give is empty. -/
def XchMember.dest (x : XchMember) (j : Nat) : XDest := (x.dests[j]?).getD ⟨0, 0, []⟩

/-- Send n bytes of a pair from an offset of the pair, with its end flit. -/
def State.sendPair (s : State) (w : Seat) (gid rank dst n from_ : Nat) (short : Bool) (upd : XchMember → XchMember) :
    Host.Outcome State Fault Refusal :=
  let c := s.seated w
  let x := c.xchIn gid
  match State.readUpTo (xchWho c x) (n / 0x8000 + 2) s (x.sbuf + BitVec.ofNat 64 ((x.dest dst).soff + from_)) n with
  | (_, _, some (.noPlace a)) => .fault (.noSuchPlace a)
  | (s, _, some .poison) => .next (s.kill c.job.ctx Cause.poison.code (match w with | .thread n => n | _ => 0))
  | (s, b, h) =>
    let y := upd x
    let y : XchMember := match h with
      | some (.record cause a) => { y with faults := y.faults ++ [⟨cause, a⟩] }
      | _ => y
    let more := y.grants.zipIdx.any (fun g => g.1.dst == dst && !y.started.contains g.2) || !(y.dest dst).tail.isEmpty
    let msg : ExchangeMsg := ⟨gid, dst, rank, from_, b, short || decide (b.length < n), !more⟩
    let s : State := { s with outbox := s.outbox ++ [.bytes msg] }
    .next ((s.setXchAt w gid y).xchSettle y)

/-- A sheet whose TSTART has come is sent, when the engine has joined (R388, R391, R392). A disarmed engine
sends a 0-byte end flit (R388, R395). -/
def State.sendSheet (s : State) (w : Seat) (gid rank k : Nat) : Host.Outcome State Fault Refusal :=
  let s := s.joinExchange w gid
  let x := s.xchAt w gid
  match x.grants[k]? with
  | none => .next s
  | some g =>
    if g.dst = 0xFFFF ∨ x.started.contains k ∨ s.dtime < g.tstart then .next s
    else
      let upd (x : XchMember) : XchMember := { x with started := x.started ++ [k] }
      let off := g.soff - (x.dest g.dst).soff
      if x.disarmed then s.sendPair w gid rank g.dst 0 off true upd
      else if !x.joined ∨ (s.skewed ∧ !x.ready.contains (g.dst, some k)) then .next s
      else
        match x.trims.find? (·.1 == k) with
        | some t => s.sendPair w gid rank g.dst t.2 off true upd
        | none => s.sendPair w gid rank g.dst g.sbytes off false upd

/-- The next transfer of the loose tail, in ascending destination rank, after its ready flit (R390). -/
def State.sendTail (s : State) (w : Seat) (gid rank : Nat) : Host.Outcome State Fault Refusal :=
  let s := s.joinExchange w gid
  let x := s.xchAt w gid
  match x.dests.findIdx? (!·.tail.isEmpty) with
  | none => .next s
  | some j =>
    match (x.dest j).tail with
    | [] => .next s
    | p :: _ =>
      let upd (x : XchMember) : XchMember := { x with dests := x.dests.modify j fun d => { d with tail := d.tail.drop 1 } }
      if s.dtime < x.tend then .next s
      else if x.disarmed then s.sendPair w gid rank j 0 p.off true upd
      else if !x.joined ∨ !x.ready.contains (j, none) then .next s
      else s.sendPair w gid rank j p.n p.off p.short upd

/-- The next ready flit of a destination in the loose tail: to its first source that is not complete (R390). -/
def XchMember.tailReady (x : XchMember) (rank : Nat) : List OutMsg :=
  match x.sources.findIdx? (!·.complete) with
  | none => []
  | some j => [.ready ⟨x.gid, j, rank, none, x.gen⟩]

/-- The member of a group whose exchange is under way, with its rank. -/
def State.exchanging (s : State) (gid : Nat) : Option (Seat × Nat) :=
  match s.group? gid with
  | none => none
  | some g =>
    match s.exchangeSeat gid, g.rankOf s.dev with
    | some w, some r => some (w, r)
    | _, _ => none

/-- SHEET_START (R388, R392): at TSTART the destination lets its source send, and the source sends. -/
def execSheetStart (gid sheet : Nat) (s : State) : Host.Outcome State Fault Refusal :=
  match s.exchanging gid with
  | none => .next s
  | some (w, rank) =>
    let x := s.xchAt w gid
    match x.grants[sheet]? with
    | none => .next s
    | some g =>
      if s.dtime < g.tstart then .next s
      else
        let s : State := if g.src = 0xFFFF then s else { s with outbox := s.outbox ++ [.ready ⟨gid, g.src, rank, some sheet, x.gen⟩] }
        s.sendSheet w gid rank sheet

/-- LOOSE_TAIL_START (R390): at XTEND a destination lets its first source send, and a source sends what it may. -/
def execLooseTailStart (gid : Nat) (s : State) : Host.Outcome State Fault Refusal :=
  match s.exchanging gid with
  | none => .next s
  | some (w, rank) =>
    let x := s.xchAt w gid
    if !x.granted ∨ s.dtime < x.tend then .next s
    else
      let s : State := { s with outbox := s.outbox ++ x.tailReady rank }
      s.sendTail w gid rank

/-- READY_FLIT (R390, R392): a destination lets this device's member send a sheet or a pair of the tail. A flit of a
calendar that the member has still to accept is kept for it. -/
def execReadyFlit (m : ReadyMsg) (s : State) : Host.Outcome State Fault Refusal :=
  match s.exchanging m.gid with
  | none => .next s
  | some (w, rank) =>
    if m.src ≠ rank then .next s
    else
      let x := s.xchAt w m.gid
      if x.gen < m.gen then .next (s.setXchAt w m.gid { x with readyNext := x.readyNext ++ [m] })
      else if !x.granted ∨ m.gen < x.gen then .next s
      else
        let s := s.setXchAt w m.gid { x with ready := x.ready ++ [(m.dst, m.sheet)] }
        match m.sheet with
        | some k => s.sendSheet w m.gid rank k
        | none => s.sendTail w m.gid rank

/-! ## Receiving (R390) -/

/-- Write arriving bytes page by page, those below XRLEN only (R382, R390, R393): the keys written, and what stopped
the rest: a fault, which drops them, or a held access. -/
def State.landBytes (s : State) (who : Who) (rbuf : Word) : Nat → Nat → List Byte → State × List Nat × Option Halt
  | 0, _, _ => (s, [], none)
  | fuel + 1, at_, b =>
    match b with
    | [] => (s, [], none)
    | _ =>
      let va := rbuf + BitVec.ofNat 64 at_
      let here := min b.length (0x8000 - va.toNat % 0x8000)
      match State.xlateBytes tlb2 who .plain .write 2 s va here with
      | (s, .error e) => (s, [], some e.halt)
      | (s, .ok l) =>
        let s := s.write ((l.map (·.key)).zip (b.take here))
        let r := s.landBytes who rbuf fuel (at_ + here) (b.drop here)
        (r.1, l.map (·.key) ++ r.2.1, r.2.2)

/-- Bytes of a source that the swap engine holds (R101): later ones of it wait behind them. -/
def State.heldFrom (s : State) (gid src : Nat) : Bool :=
  s.heldRemote.any fun
    | .bytes m => m.gid == gid && m.src == src
    | _ => false

/-- Bytes of a source reach a member (R382, R390, R391): they land and are counted; the end flit may complete the
source. What the swap engine holds performs, and counts, once it has landed (R101); poison in a table entry kills the
context of the member (R440). -/
def State.takeBytes (s : State) (w : Seat) (rank : Nat) (m : ExchangeMsg) (y : XSource) : Host.Outcome State Fault Refusal :=
  let x := s.xchAt w m.gid
  let at_ := y.roff + m.off
  match s.landBytes (xchWho (s.seated w) x) x.rbuf (m.bytes.length / 0x8000 + 2) at_ (m.bytes.take (x.rlen.toNat - at_)) with
  | (_, _, some (.noPlace a)) => .fault (.noSuchPlace a)
  | (s, _, some .poison) => .next (s.kill (s.seated w).job.ctx Cause.poison.code (match w with | .thread n => n | _ => 0))
  | (s, ks, h) =>
    let waits := h == some .wait
    let n := ks.length
    let y : XSource := { y with arr := y.arr + n, complete := y.complete || (m.last && !waits), keys := y.keys ++ ks }
    let x : XchMember := { x with sources := x.sources.set m.src y }
    let x := if m.short then x.flag 0 else x
    let x : XchMember := match h with
      | some (.record cause a) => { x with faults := x.faults ++ [⟨cause, a⟩] }
      | _ => x
    let s := (s.putArea' x.area (0x40 + 8 * m.src) 8 y.arr).setXchAt w m.gid x
    if waits then .next { s with heldRemote := s.heldRemote ++ [.bytes { m with off := m.off + n, bytes := m.bytes.drop n }] }
    else
      let out := if m.last && decide (x.tend ≤ s.dtime) then x.tailReady rank else []
      .next (({ s with outbox := s.outbox ++ out } : State).xchSettle x)

/-- Bytes for this device's member before it has accepted the grants of their exchange are kept (R390, log entry 105). -/
def State.keepEarly (s : State) (m : ExchangeMsg) : State :=
  if ((s.group? m.gid).bind (·.rankOf s.dev)) = some m.dst then { s with early := s.early ++ [m] } else s

/-- EXCHANGE_BYTES (R390): bytes of a source arrive, with its end flit. -/
def execExchangeBytes (m : ExchangeMsg) (s : State) : Host.Outcome State Fault Refusal :=
  match s.exchanging m.gid with
  | none => .next (s.keepEarly m)
  | some (w, rank) =>
    let x := s.xchAt w m.gid
    if !x.granted || x.complete then .next (s.keepEarly m)
    else
    match x.sources[m.src]? with
    | none => .next s
    | some y =>
      if m.dst ≠ rank then .next s
      else if s.heldFrom m.gid m.src then .next { s with heldRemote := s.heldRemote ++ [.bytes m] }
      else s.takeBytes w rank m y

/-! ## Grants are accepted (R385, R387, R396) -/

/-- A calendar of a generation has come to this device, for its member or for one of a later launch (R397, log entry
104). -/
def State.noteGen (s : State) (gid gen : Nat) : State := { s with xgens := FMap.set s.xgens gid gen }

/-- A member accepts a calendar of a higher generation than it has seen in the group (R387, R396); an acceptance is
an event of the sequencer (R415). -/
def State.acceptGrants (s : State) (gid : Nat) (g : Group) (m : GrantsMsg) : State :=
  match s.memberSeat gid g, g.rankOf s.dev with
  | some w, some rank =>
    if m.gen ≤ s.genOf gid (s.xchAt w gid) then s
    else
      let x := s.xchAt w gid
      let r : State × Option XchMember := if x.active && !x.complete then (s, some x) else s.lateArea w gid g
      match r with
      | (s, none) => s
      | (s, some x) =>
        let y := x.withGrants g.n s.dtime (s.isDead g) m
        let s := ((((s.stamp.writeArea y rank m).setXchAt w gid y).putXgen w m.gen).noteGen gid m.gen).joinExchange w gid
        s.xchSettle (s.xchAt w gid)
  | none, some _ => s.noteGen gid (max m.gen ((FMap.get? s.xgens gid).getD 0))
  | _, none => s

/-- Bytes that came before the member accepted its grants land, in order (R390). -/
def landEarly : List ExchangeMsg → State → Host.Outcome State Fault Refusal
  | [], s => .next s
  | m :: l, s =>
    match execExchangeBytes m s with
    | .next t => landEarly l t
    | r => r

/-- A member accepts a calendar, and then takes what had come before it. -/
def State.takeGrants (s : State) (gid : Nat) (g : Group) (m : GrantsMsg) : Host.Outcome State Fault Refusal :=
  let s := s.acceptGrants gid g m
  landEarly (s.early.filter (·.gid == gid)) { s with early := s.early.filter (·.gid != gid) }

/-- GRANT_WRITE (R387): a fixed calendar is written to every member, or what another Imposer fixed reaches
this device's member. -/
def execGrantWrite (gid : Nat) (told : Option GrantsMsg) (s : State) : Host.Outcome State Fault Refusal :=
  match s.group? gid with
  | none => .next s
  | some g =>
    match told, s.imposer? gid with
    | some m, none => s.takeGrants gid g m
    | some m, some x =>
      let s := if x.leads ∨ m.gen ≤ x.gen then s else
        s.setImposer { s.fixNow g x with
          t0 := m.t0, gen := m.gen, written := true, firstGen := if x.layout.isEmpty then m.gen else x.firstGen }
      s.takeGrants gid g m
    | none, none => .next s
    | none, some x =>
      if x.fixedAt.isNone ∨ x.written ∨ !x.leads then .next s
      else
        let others := (List.range g.n).filter fun r => g.rankOf s.dev != some r
        let out := others.map fun r => OutMsg.grants gid r (x.grantsFor g.xrate g.n r)
        let s := { s.setImposer { x with written := true } with outbox := s.outbox ++ out }
        s.takeGrants gid g (x.grantsFor g.xrate g.n ((g.rankOf s.dev).getD 0))

/-! ## Deaths (R369, R385) -/

/-- A member's sources and destinations on a device that has died (R369, R390), of a group of n; before the grants DEAD
alone says so (R394). -/
def XchMember.lose (x : XchMember) (n : Nat) (hit : Nat → Bool) : XchMember :=
  if x.active && (List.range n).any hit then
    { x.flag 7 with
      sources := x.sources.zipIdx.map fun y => if hit y.2 then { y.1 with complete := true, dead := true } else y.1,
      dests := x.dests.zipIdx.map fun y => if hit y.2 then { y.1 with tail := [] } else y.1,
      started := x.started ++ ((x.grants.zipIdx.filter fun g => hit g.1.dst && !x.started.contains g.2).map (·.2)) }
  else x

/-- The ready flit that a destination owes in the loose tail once the source it had let send is complete (R390). -/
def XchMember.nextReady (x y : XchMember) (rank now : Nat) : List OutMsg :=
  let first (x : XchMember) : Option Nat := x.sources.findIdx? (!·.complete)
  if y.active && y.granted && decide (y.tend ≤ now) && first x != first y then y.tailReady rank else []

/-- Leave of every exchange that is complete is given back (R409). -/
def State.settleAll (s : State) (l : List LCore) : State :=
  l.foldl (fun s c => c.xchs.foldl (fun s p => s.xchSettle p.2) s) s

/-- An Imposition whose last rows outstanding were those of a dead member is fixed (R385). -/
def State.retest (s : State) (x : Imposition) : State :=
  match s.group? x.gid with
  | none => s
  | some g => if x.fixedAt.isNone && x.leads && s.allPosted g x then s.setImposer (s.fixNow g x) else s

/-- MEMBER_DEAD (R369): a device that misses the keepalive is dead for every round and exchange: no contribution waits
for its home, and the loose tail goes on to the next source (R390). -/
def execMemberDead (dev : Nat) (s : State) : Host.Outcome State Fault Refusal :=
  if dev = s.dev ∨ s.dead.contains dev then .next s
  else
    let hit (g : Group) (r : Nat) : Bool := (g.members.getD r (0, 0)).1 == dev
    let lose (c : LCore) : LCore :=
      { c with xchs := c.xchs.map fun p =>
          match s.group? p.1 with
          | none => p
          | some g => (p.1, p.2.lose g.n (hit g)) }
    let flits (c : LCore) : List OutMsg := c.xchs.flatMap fun p =>
      match s.group? p.1 with
      | none => []
      | some g => p.2.nextReady (p.2.lose g.n (hit g)) ((g.rankOf s.dev).getD 0) s.dtime
    let cores : List LCore := s.threads.map (·.2.lc) ++ s.saved.map (·.lc) ++ s.ghosts
    let gone (gid h : Nat) : Bool :=
      match s.group? gid with
      | none => false
      | some g => hit g h
    let t : State := { s with dead := s.dead ++ [dev], outbox := s.outbox ++ cores.flatMap flits,
                              pushes := s.pushes.map fun x => { x with left := x.left.filter (!gone x.report.gid ·) },
                              threads := s.threads.map fun t => (t.1, { t.2 with lc := lose t.2.lc }),
                              saved := s.saved.map fun i => { i with lc := lose i.lc },
                              ghosts := s.ghosts.map lose }
    let u := t.settleAll (t.threads.map (·.2.lc) ++ t.saved.map (·.lc) ++ t.ghosts)
    .next (u.imposers.foldl State.retest u).sendReports

/-! ## XGO, XTRIM, XWAIT, XSTAT (R388, R391, R393, R394) -/

/-- XGO (R388). -/
def execXgo (_f : VF) (s : State) : Host.Outcome State Fault Refusal :=
  onGroup s fun gid _ _ s =>
    let x := s.lc.xchIn gid
    if !x.active ∨ x.armed then .next (s.setLc s.lc.advance)
    else if x.granted && !x.fits then .next (s.xfail 6)
    else
      let s := s.setLc (s.lc.setXch gid { x with armed := true, after := s.owed none })
      let s := (s.askLeave (xgoLeave gid) 0 s.lc.job.prio).joinExchange (.thread s.cur) gid
      .next ((s.xchSettle (s.lc.xchIn gid)).setLc s.lc.advance)

/-- XTRIM (R391). -/
def execXtrim (f : VF) (s : State) : Host.Outcome State Fault Refusal :=
  scalar [f.s1, f.s2] s fun s =>
    onGroup s fun gid _ _ s =>
      let x := s.lc.xchIn gid
      let k := (s.lc.rd f.s1).toNat
      let n := (s.lc.rd f.s2).toNat
      let ok := match x.grants[k]? with
        | none => false
        | some g => x.active && g.dst != 0xFFFF && !x.started.contains k && decide (s.dtime < g.tstart)
            && decide (n < g.sbytes)
      let y : XchMember := if ok then { x with trims := (k, n) :: x.trims.filter (·.1 != k) } else x.flag 4
      .next (s.setLc (s.lc.setXch gid y).advance)

/-- What the engine recorded is delivered to XWAIT or XSTAT, one record to each, the oldest first (R388, R393). -/
def recorded (gid : Nat) (s : State) (k : State → Host.Outcome State Fault Refusal) : Host.Outcome State Fault Refusal :=
  let x := s.lc.xchIn gid
  if x.fail6 then .next ((s.setLc (s.lc.setXch gid { x with fail6 := false })).xfail 6)
  else
    match x.faults with
    | r :: l => .next ((s.setLc (s.lc.setXch gid { x with faults := l })).trap r.cause r.addr)
    | [] => k s

/-- XWAIT (R393). It waits for the grants, which give XEXP, whatever has died before them (log entry 119). -/
def execXwait (f : VF) (s : State) : Host.Outcome State Fault Refusal :=
  scalar [f.d, f.s1] s fun s =>
    onGroup s fun gid g _ s =>
      let v := s.lc.rd f.s1
      let all := v == BitVec.allOnes 64
      if !all && decide (g.n ≤ v.toNat) then .next (s.xfail 7)
      else
        recorded gid s fun s =>
          let x := s.lc.xchIn gid
          if !x.active then .next (s.put f.d 0)
          else
            let mine := if all then x.sources else (x.sources[v.toNat]?).toList
            if !x.granted || !mine.all (·.complete) then .next (s.waiting .other)
            else
              let n := (mine.map (·.arr)).foldl (· + ·) 0
              let s := (s.dropLines s.core (mine.flatMap (·.keys))).setLc (s.lc.wr f.d (BitVec.ofNat 64 n))
              if mine.any fun y => y.dead && decide (y.arr < y.exp) then .next (s.xfail 4) else .next (s.setLc s.lc.advance)

/-- The status that XSTAT writes (R394). Before the grants the sources complete are the dead ones (R390). -/
def State.xstat (s : State) (g : Group) (x : XchMember) : Word :=
  let off := wrap 16 (max (-32768) (min 32767 s.dtOffset))
  let done := if x.active && !x.granted then ((List.range g.n).filter (s.isDead g)).length
    else (x.sources.filter (·.complete)).length
  BitVec.ofNat 64 (off * 2 ^ 48 + done % 65536 * 2 ^ 32) ||| (x.flags.setWidth 64 &&& 0xFF)
    ||| (if x.active && x.complete then 0x100 else 0)

/-- XSTAT (R394). -/
def execXstat (f : VF) (s : State) : Host.Outcome State Fault Refusal :=
  serial [f.d] s fun s =>
    onGroup s fun gid g _ s =>
      recorded gid s fun s => .next (s.put f.d (s.xstat g (s.lc.xchIn gid)))

/-- DTIME_DISCIPLINE (R372, R392): DTIME never decreases; an offset above 125 ns sets SKEW of the members. -/
def execDtimeDiscipline (dtime : Nat) (offset : Int) (s : State) : Host.Outcome State Fault Refusal :=
  let t : State := { s with dtime := max s.dtime dtime, dtOffset := offset }
  let mark (c : LCore) : LCore := if t.skewed then c.mapXch fun x => if x.active then x.flag 2 else x else c
  .next { t with threads := t.threads.map fun x => (x.1, { x.2 with lc := mark x.2.lc }),
                 saved := t.saved.map fun i => { i with lc := mark i.lc } }

end Sys2Proof.Machine
end

