-- ==== Sys2Proof/Machine/Matrix.lean ====
section
/-! DEFINITION. The matrix unit and MGEMV (R349 to R366): attachment, displacement, operands, passes,
stores of tiles, and the rows that the base dies form. -/

namespace Sys2Proof.Machine

/-! ## Operand formats (R354) -/

/-- A B column or A row of 64 bytes, or 72 in E2M1B. -/
def rowBytes (fmt : BitVec 4) : Nat := if fmt = 13 then 72 else 64

/-- The bytes of a B buffer. -/
def bufBytes (fmt : BitVec 4) : Nat := 32 * rowBytes fmt

/-- The alignment of an MLDB address. -/
def bufAlign (fmt : BitVec 4) : Nat := if fmt = 13 then 2 else 64

/-- The element codes of some bytes at n bytes each. -/
def codesOf (n : Nat) (b : List Byte) : List Nat := (chunks n b.length b).map leNat

/-- The values of a row of operand elements in a format (R132, R354); format 0 is FP64, 1 is i8. -/
def rowVals (fmt : BitVec 4) (b : List Byte) : List FVal :=
  match fmt.toNat with
  | 0 => (codesOf 8 b).map Fmt.fp64.decode
  | 1 => (codesOf 1 b).map fun x => let i := signedOf 8 x; .fin (decide (i < 0)) i.natAbs 0
  | 9 => (codesOf 1 b).map Fmt.e4m3.decode
  | 10 => (codesOf 1 b).map Fmt.e5m2.decode
  | 13 => (chunks 18 b.length b).flatMap fun k => (List.range 32).map (blockVal k)
  | _ => (codesOf 2 b).map Fmt.bf16.decode

/-! ## Attachments (R349 to R352) -/

/-- The cluster of a thread. -/
def clusterOf (thr : Nat) : Nat := thr / 16

/-- The attachment of a thread that holds slots. -/
def State.holds (s : State) (n : Nat) : Option Attach :=
  let t := s.thr n
  if t.occupied then
    match t.lc.attach with
    | some a => if a.displaced then none else some a
    | none => none
  else none

/-- The threads of a cluster. -/
def clusterThreads (cl : Nat) : List Nat := (List.range 16).map (16 * cl + ·)

/-- The free row slots of a cluster's unit, ascending (R349). -/
def State.freeSlots (s : State) (cl : Nat) : List Nat :=
  let taken := (clusterThreads cl).flatMap fun n => ((s.holds n).map (·.slots)).getD []
  (List.range 32).filter fun i => !taken.contains i

/-- The leave of a thread's attachment. -/
def mattLeave (thr : Nat) : LeaveRef := ⟨.matt, thr, thr / 4, 0⟩

/-- ROWS of MGRANT. -/
def LCore.rowsHeld (c : LCore) : Nat := (c.attach.map (·.rows)).getD 0

/-- MGRANT (R350). -/
def LCore.mgrant (c : LCore) : Word :=
  match c.attach with
  | none => 0
  | some a => BitVec.ofNat 64 (a.rows + if a.displaced then 256 else 0)

/-- A tile of an attachment. -/
def Attach.tile (a : Attach) (t : Nat) : List (BitVec 1024) := a.tiles.getD t []

/-- The width bit of a tile's pair (R358). -/
def Attach.wide (a : Attach) (t : Nat) : Bool := if t < 2 then a.wide01 else a.wide23

/-- Set the width bit of a tile's pair. -/
def Attach.setWide (a : Attach) (t : Nat) (b : Bool) : Attach :=
  if t < 2 then { a with wide01 := b } else { a with wide23 := b }

/-- The element of a tile row. -/
def tileElem (row : BitVec 1024) (j : Nat) : Nat := field row (32 * j) 32

/-- A tile row from its elements. -/
def tileRow (l : List Nat) : BitVec 1024 :=
  BitVec.ofNat 1024 (l.zipIdx.foldl (fun a p => a + p.1 % 2 ^ 32 * 2 ^ (32 * p.2)) 0)

/-! ## Passes (R356 to R358) -/

/-- One pass on the rows of its tile or pair: the new rows, even then odd for a pair, and the flags raised. i8 codes are
integers, of which no product is −0 (R354). -/
def Pass.rowOut (p : Pass) (lo hi : BitVec 1024) (a : List Byte) : BitVec 1024 × BitVec 1024 × BitVec 5 :=
  let x := rowVals p.fmt a
  let col (j : Nat) : List FVal := rowVals p.fmt ((p.b.drop (j * rowBytes p.fmt)).take (rowBytes p.fmt))
  let r := (List.range 32).map fun j =>
    if p.fmt = 0 then sliceDot (tileElem lo j + tileElem hi j * 2 ^ 32) x (col j) p.slc
    else dotRound (p.fmt == 1) (tileElem lo j) x (col j)
  (tileRow (r.map (·.1)), tileRow (r.map fun y => y.1 / 2 ^ 32), (r.map (·.2)).foldl (· ||| ·) 0)

/-- A pass writes its tile rows and raises its flags (R356, R357). -/
def Pass.apply (p : Pass) (c : LCore) : LCore :=
  match c.attach with
  | none => c
  | some a =>
    let even := a.tile p.tile
    let odd := a.tile (p.tile + 1)
    let r := p.rows.zipIdx.map fun x => p.rowOut (even.getD x.2 0) (odd.getD x.2 0) x.1
    let tiles := a.tiles.set p.tile (r.map (·.1))
    let tiles := if p.fmt = 0 then tiles.set (p.tile + 1) (r.map (·.2.1)) else tiles
    ({ c with attach := some { a with tiles := tiles } } : LCore).raise ((r.map (·.2.2)).foldl (· ||| ·) 0)

/-- Complete every pass of a thread, in order (R352). -/
def State.finishPasses (s : State) (n : Nat) : State :=
  let mine := s.passes.filter (·.thr == n)
  if mine.isEmpty then s
  else ({ s with passes := s.passes.filter (·.thr != n) } : State).setLcOf n (mine.foldl (fun c p => p.apply c) (s.thr n).lc)

/-- A pass reads or writes a tile. -/
def Pass.touches (p : Pass) (t : Nat) : Bool := p.tile == t || (p.fmt == 0 && p.tile / 2 == t / 2)

/-- Earlier passes of the thread on a tile are under way. -/
def State.tileBusy (s : State) (t : Nat) : Bool := s.passes.any fun p => p.thr == s.cur && p.touches t

/-! ## Displacement (R352) -/

/-- The parts of a saved image that hold an attachment, as offsets and bytes (R429). -/
def Attach.image (a : Attach) : List (Nat × List Byte) :=
  (List.range 4).flatMap (fun t => (a.tile t).zipIdx.map fun r => (0x18000 + 4096 * t + 128 * r.2, leBytes 128 r.1.toNat))
    ++ a.bbufs.zipIdx.map fun b => (0x1C000 + 2304 * b.2, b.1.bytes)

/-- The low byte of SFLAGS with the width bits of an attachment; its other bits stay (R352, R430). -/
def Attach.flagsByte (a : Attach) (old : Byte) : Byte :=
  BitVec.ofNat 8 (old.toNat % 8 + bitsAt [(a.wide01, 3), (a.wide23, 4)] + old.toNat / 32 * 32)

/-- Displace the attachment of a thread: its passes complete, its state, the width bits among it, goes to its
thread's save slot, its slots fall free, its leave is given back (R352, R409). A slot that holds the image of another logical core
keeps it, and the state is kept with its holder (log entry 20). -/
def State.displace (s : State) (n : Nat) : State :=
  let s := s.finishPasses n
  match (s.thr n).lc.attach with
  | none => s
  | some a =>
    if a.displaced then s
    else
      let key := slotKey (n / 4) (n % 4)
      let parts := a.image ++ [(6, [a.flagsByte (Memory.get s.mem (key + 6))])]
      let s := if s.imageFree (.slot (n / 4) (n % 4)) then s.putParts key parts else s
      let s := s.dropLeave (mattLeave n)
      s.setLcOf n { (s.thr n).lc with attach := some { a with slots := [], displaced := true, waits := none } }

/-- Release the attachment of a thread, as MDET (R353): passes complete, slots fall free, leave is given back. -/
def State.detach (s : State) (n : Nat) : State :=
  let s := (s.finishPasses n).dropLeave (mattLeave n)
  s.setLcOf n { (s.thr n).lc with attach := none }

/-! ## MATT, MDET, MZERO (R351, R353) -/

/-- The holders of a cluster whose priority is below a priority: lowest first, newest first (R351). -/
def State.victims (s : State) (cl prio : Nat) : List Nat :=
  let hs := (clusterThreads cl).filter fun n => (s.holds n).isSome && decide (s.prioOf n < prio)
  let key (n : Nat) : Nat × Nat := (s.prioOf n, ((s.holds n).map (·.since)).getD 0)
  sortBy (fun a b => decide ((key a).1 < (key b).1 ∨ ((key a).1 = (key b).1 ∧ (key b).2 ≤ (key a).2))) hs

/-- Displace holders of lower priority until q slots are free, or none is left (R351). -/
def State.makeRoom (cl q : Nat) : List Nat → State → State
  | [], s => s
  | n :: l, s => if (s.freeSlots cl).length < q then State.makeRoom cl q l (s.displace n) else s

/-- An attachment as granted: tiles of 0 bits, B buffers without format (R351). -/
def Attach.fresh (slots : List Nat) (since : Nat) : Attach :=
  { rows := slots.length, slots := slots, displaced := false,
    tiles := List.replicate 4 (List.replicate slots.length 0), bbufs := List.replicate 2 ⟨none, []⟩,
    wide01 := false, wide23 := false, since := since, waits := none }

/-- The slots that a MATT of q rows takes (R351, steps 4 to 6): free ones, lowest first, then of those that
displacing freed. Ascending, as the holder sees them (R349). -/
def slotsTaken (q : Nat) (free freed : List Nat) : List Nat :=
  let first := free.take q
  let more := (freed.filter (!first.contains ·)).take (q - first.length)
  (List.range 32).filter fun i => first.contains i || more.contains i

/-- MATT with leave granted: slots are taken (R351). -/
def State.grantRows (s : State) (d : Reg) (q : Nat) : State :=
  let cl := clusterOf s.cur
  let free := s.freeSlots cl
  let s := State.makeRoom cl q (s.victims cl s.lc.job.prio) s
  let slots := slotsTaken q free (s.freeSlots cl)
  let since := s.gov.order
  let s : State := { s with gov := { s.gov with order := since + 1 } }
  let s := if slots.isEmpty then s.dropLeave (mattLeave s.cur) else s
  let a := if slots.isEmpty then none else some (Attach.fresh slots since)
  s.setLc (({ s.lc with attach := a } : LCore).wr d (BitVec.ofNat 64 slots.length)).advance

/-- MATT (R351). -/
def execMatt (f : VF) (s : State) : Host.Outcome State Fault Refusal :=
  scalar [f.d, f.s1] s fun s =>
    let q := min (s.lc.rd f.s1).toNat 32
    if s.lc.attach.isSome && s.passes.any (·.thr == s.cur) then .next (s.waiting .other)
    else
      let s := if s.lc.attach.isSome then s.detach s.cur else s
      if q = 0 then .next (s.setLc (s.lc.wr f.d 0).advance)
      else if !s.hasLeave (mattLeave s.cur) then .next ((s.askLeave (mattLeave s.cur) q s.lc.job.prio).waiting .other)
      else .next (s.grantRows f.d q)

/-- MDET (R353). -/
def execMdet (_f : VF) (s : State) : Host.Outcome State Fault Refusal :=
  if s.passes.any (·.thr == s.cur) then .next (s.waiting .other)
  else
    let t := if s.lc.attach.isSome then s.detach s.cur else s
    .next (t.setLc t.lc.advance)

/-- The attachment checks of R360: NOATTACH, or the wait of a displaced holder. -/
def attached (word : IWord) (s : State) (k : Attach → State → Host.Outcome State Fault Refusal) :
    Host.Outcome State Fault Refusal :=
  match s.lc.attach with
  | none => .next (s.trap .noattach (word.setWidth 64))
  | some a =>
    if a.displaced then
      let n := s.gov.order
      let s : State := if a.waits.isSome then s else
        ({ s with gov := { s.gov with order := n + 1 } } : State).setLc { s.lc with attach := some { a with waits := some n } }
      .next (s.waiting .tiles)
    else k a s

/-- MZERO (R353). -/
def execMzero (f : VF) (s : State) : Host.Outcome State Fault Refusal :=
  attached (encode (.mzero f)) s fun a s =>
    let t := f.d.toNat
    if s.tileBusy t then .next (s.waiting .other)
    else
      let b : Attach := { a.setWide t false with tiles := a.tiles.set t (List.replicate a.rows 0) }
      .next (s.setLc { s.lc with attach := some b }.advance)

/-- ATTACHMENT_REACQUIRE (R352): the first waiting holder in order of priority and arrival takes its slots
again, once enough are free and leave is granted. -/
def execAttachmentReacquire (thr : Nat) (s : State) : Host.Outcome State Fault Refusal :=
  let waiter (n : Nat) : Option Nat :=
    let t := s.thr n
    if t.occupied && t.lc.waitFor == .tiles then t.lc.attach.bind (·.waits) else none
  match waiter thr, (s.thr thr).lc.attach with
  | some w, some a =>
    let cl := clusterOf thr
    let ahead (n : Nat) : Bool :=
      match waiter n with
      | none => false
      | some v => decide (s.prioOf thr < s.prioOf n) || (s.prioOf n == s.prioOf thr && decide (v < w))
    if (clusterThreads cl).any ahead then .next s
    else if (s.freeSlots cl).length < a.rows then .next s
    else if !s.hasLeave (mattLeave thr) then .next (s.askLeave (mattLeave thr) a.rows (s.prioOf thr))
    else
      let b : Attach := { a with slots := (s.freeSlots cl).take a.rows, displaced := false, waits := none, since := s.gov.order }
      let s : State := { s with gov := { s.gov with order := s.gov.order + 1 } }
      .next (s.setLcOf thr { (s.thr thr).lc with attach := some b, waitFor := .none })
  | _, _ => .next s

/-! ## MLDB, MMA (R355, R356) -/

/-- The checks 4 and 5 of R78 for a tile instruction, then the scoreboard (R360). -/
def tileChecked (word : IWord) (ill misplaced : Bool) (gs : List Reg) (s : State)
    (k : State → Host.Outcome State Fault Refusal) : Host.Outcome State Fault Refusal :=
  if ill then .next (s.trap .vtypeIll (word.setWidth 64))
  else if misplaced then .next (s.trap .groupAlign (word.setWidth 64))
  else scalar gs s k

/-- VTYPE that a format refuses: VILL, or format 0 with SLC = 0 (R53, R73). -/
def LCore.notTile (c : LCore) (fmt : BitVec 4) : Bool := Vtype.vill c.vtype || (fmt == 0 && Vtype.slc c.vtype == 0)

/-- MLDB (R355). -/
def execMldb (f : TF) (s : State) : Host.Outcome State Fault Refusal :=
  let word := encode (.mldb f)
  tileChecked word (s.lc.notTile f.fmt) false [f.s1] s fun s =>
    attached word s fun a s =>
      let addr := s.lc.rd f.s1
      if addr.toNat / 2 ^ 51 ≠ 0 then .next (s.trap .bounds addr)
      else if addr.toNat % bufAlign f.fmt ≠ 0 then .next (s.trap .misalign addr)
      else
        match s.span .plain .read addr (bufBytes f.fmt) with
        | (s, .error e) => s.stopped e 0 s.lc.vstart
        | (s, .ok l) =>
          match s.load l with
          | (s, .error e) => s.stopped e 0 s.lc.vstart
          | (s, .ok b) =>
            let s := s.dropLines s.core (l.map (·.key))
            let a : Attach := { a with bbufs := a.bbufs.set f.d.toNat ⟨some f.fmt, b⟩ }
            .next (s.setLc { s.lc with attach := some a }.advance)

/-- MMA (R356, R360): A is read, and a pass waits for the unit; until it starts, the thread's turn issues nothing
more (R357, `State.turn`). -/
def execMma (f : TF) (s : State) : Host.Outcome State Fault Refusal :=
  let word := encode (.mma f)
  tileChecked word (s.lc.notTile f.fmt) (f.fmt == 0 && f.d.toNat % 2 == 1) [f.s1] s fun s =>
    attached word s fun a s =>
      let addr := s.lc.rd f.s1
      match a.bbufs[f.s2.toNat]? with
      | none => .next (s.trap .vtypeIll (word.setWidth 64))
      | some b =>
        if b.fmt ≠ some f.fmt then .next (s.trap .vtypeIll (word.setWidth 64))
        else if addr.toNat % 256 ≠ 0 then .next (s.trap .misalign addr)
        else
          match s.span .ownVault .read addr (a.rows * rowBytes f.fmt) with
          | (s, .error e) => s.stopped e 0 s.lc.vstart
          | (s, .ok l) =>
            match s.load l with
            | (s, .error e) => s.stopped e 0 s.lc.vstart
            | (s, .ok bytes) =>
              let p : Pass :=
                { thr := s.cur, prio := s.lc.job.prio, tile := f.d.toNat, fmt := f.fmt, slc := Vtype.slc s.lc.vtype,
                  rows := chunks (rowBytes f.fmt) a.rows bytes, b := b.bytes, started := false }
              let s : State := { s.dropLines s.core (l.map (·.key)) with passes := s.passes ++ [p] }
              .next (s.setLc { s.lc with attach := some (a.setWide f.d.toNat (f.fmt == 0)) }.advance)

/-- MATRIX_PASS (R357): a pass starts on a cluster's unit with the ready MMA of up to four holders, in order
of priority, then in turn: a thread has at most one that waits (`State.passWaits`), and they stand in order of arrival. -/
def execMatrixPass (cluster : Nat) (s : State) : Host.Outcome State Fault Refusal :=
  let ready := (clusterThreads cluster).filterMap fun n =>
    (s.passes.findIdx? fun p => p.thr == n && !p.started).map fun i => (i, ((s.passes[i]?).map (·.prio)).getD 0)
  let order := sortBy (fun a b => decide (b.2 < a.2 ∨ (a.2 = b.2 ∧ a.1 ≤ b.1))) ready
  let start := (order.take 4).map (·.1)
  .next { s with passes := s.passes.zipIdx.map fun p => if start.contains p.2 then { p.1 with started := true } else p.1 }

/-- TILE_WRITE (R357): the oldest pass under way on a cluster's unit writes its tile rows. -/
def execTileWrite (cluster : Nat) (s : State) : Host.Outcome State Fault Refusal :=
  match s.passes.findIdx? fun p => clusterOf p.thr == cluster && p.started with
  | none => .next s
  | some i =>
    match s.passes[i]? with
    | none => .next s
    | some p =>
      .next (({ s with passes := s.passes.eraseIdx i } : State).setLcOf p.thr (p.apply (s.thr p.thr).lc))

/-! ## MST (R359) -/

/-- One element of a tile row in the format of a store: its code, flags and mark. -/
def tileStore (fmt : MemFmt) (v : FVal) : Narrowed :=
  match fmt.int?, fmt.float? with
  | some sg, _ => v.toInt sg (fmt.width 0) rne
  | _, some g => g.narrow v rne
  | _, _ => ⟨0, 0, false⟩

/-- Pack codes of w bits into bytes (R134). -/
def packBits (w : Nat) (l : List Nat) : List Byte :=
  leBytes (l.length * w / 8) (l.zipIdx.foldl (fun a p => a + p.1 % 2 ^ w * 2 ^ (w * p.2)) 0)

/-- A row of a store: its bytes, and the flags and marks of its elements. `w` is the width of a value in the
tile, 64 for a pair. -/
def tileRowOut (fmt : BitVec 4) (w : Nat) (codes : List Nat) : List Byte × List (BitVec 5) × List Bool :=
  let g := if w = 64 then Fmt.fp64 else Fmt.fp32
  if fmt = 0 then (packBits w codes, codes.map fun _ => 0, codes.map fun _ => false)
  else if fmt = 13 then
    let b := encodeBlock (codes.map fun x => some (g.decode x)) rne
    (b.bytes, b.flags, b.marks)
  else
    let r := codes.map fun x => tileStore (.ofCode fmt) (g.decode x)
    (packBits ((MemFmt.ofCode fmt).width 0) (r.map (·.code)), r.map (·.flags), r.map (·.mark))

/-- The alignment of a row start (R136, R359). -/
def tileAlign (fmt : BitVec 4) (w : Nat) : Nat := if fmt = 0 then w / 8 else (MemFmt.ofCode fmt).align 0

/-- Check and translate the rows of a store, in ascending order (R96, R359). -/
def State.placeRows (s : State) (align n : Nat) : List Word → State × Except Stop (List (List ByteAt))
  | [] => (s, .ok [])
  | a :: l =>
    if a.toNat / 2 ^ 51 != 0 then (s, .error (.trap .bounds a))
    else if a.toNat % align != 0 then (s, .error (.trap .misalign a))
    else
      match s.span .plain .write a n with
      | (s, .error e) => (s, .error e)
      | (s, .ok p) =>
        match State.placeRows s align n l with
        | (s, .error e) => (s, .error e)
        | (s, .ok q) => (s, .ok (p :: q))

/-- MST (R359, R360). -/
def execMst (f : TF) (s : State) : Host.Outcome State Fault Refusal :=
  let word := encode (.mst f)
  let t := f.d.toNat
  let wide := (s.lc.attach.map (·.wide t)).getD false
  tileChecked word (s.lc.notTile f.fmt) (f.fmt == 0 && t % 2 == 1 && wide) [f.s1, f.s2] s fun s =>
    attached word s fun a s =>
      if s.tileBusy t || (wide && s.tileBusy (t / 2 * 2)) then .next (s.waiting .other)
      else
        let w := if wide then 64 else 32
        let codes (i : Nat) : List Nat := (List.range 32).map fun j =>
          if wide then
            tileElem ((a.tile (t / 2 * 2)).getD i 0) j + tileElem ((a.tile (t / 2 * 2 + 1)).getD i 0) j * 2 ^ 32
          else tileElem ((a.tile t).getD i 0) j
        let rows := (List.range a.rows).map fun i => tileRowOut f.fmt w (codes i)
        let addrs := (List.range a.rows).map fun i => s.lc.rd f.s1 + BitVec.ofNat 64 i * s.lc.rd f.s2
        match s.placeRows (tileAlign f.fmt w) ((rows.map (·.1.length)).headD 0) addrs with
        | (s, .error e) => s.stopped e 0 s.lc.vstart
        | (s, .ok l) =>
          let s := (l.zip rows).foldl (fun s p => s.store s.core p.1 p.2.1) s
          let c := rows.zipIdx.foldl (fun c r =>
            (r.1.2.1.zip r.1.2.2).zipIdx.foldl (fun (c : LCore) x =>
              (c.raise x.1.1).markIf x.1.2 (32 * r.2 + x.2)) c) s.lc
          .next (s.setLc c.advance)

/-! ## MGEMV (R362 to R365) -/

/-- The fields of a B descriptor (R362): BADDR, BROWS, BSTRIDE, and whether its reserved fields are 0. -/
structure BDesc where
  addr : Word
  rows : Nat
  stride : Word
  clean : Bool
  deriving DecidableEq, Repr

/-- Read a B descriptor from its bytes. -/
def BDesc.ofBytes (b : List Byte) : BDesc :=
  let n (off len : Nat) : Nat := leNat ((b.drop off).take len)
  ⟨BitVec.ofNat 64 (n 0 8), n 8 4, BitVec.ofNat 64 (n 0x10 8), n 0x0C 4 == 0 && n 0x18 40 == 0⟩

/-- The bytes of a row of K elements (R362). -/
def gemvBytes (fmt : BitVec 4) (k : Nat) : Nat := if fmt = 13 then 18 * k / 32 else if fmt = 14 then 2 * k else k

/-- The address of a row. -/
def BDesc.row (b : BDesc) (i : Nat) : Word := b.addr + BitVec.ofNat 64 i * b.stride

/-- A row crosses a 32 KiB boundary. -/
def crosses (a : Word) (n : Nat) : Bool := decide (0x8000 < a.toNat % 0x8000 + n)

/-- The descriptor is refused (R363). -/
def BDesc.bad (b : BDesc) (fmt : BitVec 4) (vl : Nat) : Bool :=
  let n := gemvBytes fmt vl
  !b.clean || b.rows == 0 || decide (65535 < b.rows) || b.stride == 0 || b.stride.toNat % 64 != 0
    || b.addr.toNat % bufAlign fmt != 0 || (fmt == 13 && vl % 32 != 0)
    || crosses (b.row 0) n || crosses (b.row (b.rows - 1)) n

/-- The MGEMV commands of the thread on all ports. -/
def State.gemvs (s : State) : List MgemvJob := (List.range 16).flatMap fun p => (s.myCmds p).filterMap (·.mgemv)

/-- The command that MGEMV appends (R363, R365). Its staging area is 0 unless that is in use (log entry 115). -/
def gemvCmd (s : State) (b : BDesc) (fmt : BitVec 4) (x : List Nat) : Cmd :=
  let used := s.gemvs.map (·.area)
  let vt : Word := (s.lc.vtype.extractLsb' 0 4).setWidth 64
  let sh : Shape := ⟨b.addr, 1 ||| (fmt.setWidth 64 <<< 8), [BitVec.ofNat 64 b.rows, 0, 0, 0, 0],
    [b.stride, BitVec.ofNat 64 x.length, vt, 0, 0], List.replicate 5 0⟩
  { owner := s.cur, shape := sh, vtype := 0x000C, exp := b.rows, mem := 0, reg := 0, token := 0, tokenPending := false,
    started := false, done := false, suspended := false, paused := false, stopAsked := false, fault := none, hold := false,
    satk := s.lc.satk, buf := [], wrote := [], xlat := none, after := [],
    mgemv := some ⟨if used.contains 0 then 1 else 0, fmt, [b.addr, BitVec.ofNat 64 b.rows, b.stride], x, x.length, []⟩ }

/-- VTYPE is neither e16f nor e32f (R362). -/
def LCore.notGemv (c : LCore) : Bool := Vtype.vill c.vtype || !Vtype.flt c.vtype

/-- MGEMV (R363). -/
def execMgemv (f : TF) (s : State) : Host.Outcome State Fault Refusal :=
  let m : Member := { Member.base (encode (.mgemv f)) false with
    ill := s.lc.notGemv, vr := [s.lc.grp f.s2], gr := [f.s1] }
  checked m s fun s =>
    let vl := s.lc.vl
    if vl = 0 then .next (s.setLc s.lc.advance)
    else
      match s.scalarAccess .plain .read (s.lc.rd f.s1) 64 with
      | (s, .error e) => s.stopped e 0 s.lc.vstart
      | (s, .ok l) =>
        match s.load l with
        | (s, .error e) => s.stopped e 0 s.lc.vstart
        | (s, .ok bytes) =>
          let b := BDesc.ofBytes bytes
          if b.bad f.fmt vl then .next (s.trap .stream (s.lc.rd f.s1))
          else
            let x := (List.range vl).map fun e => s.lc.val f.s2.toNat s.lc.sew e
            match s.push f.d.toNat (decide (2 ≤ s.gemvs.length)) (gemvCmd s b f.fmt x) with
            | .error t => .next t
            | .ok t =>
              let t := t.dropLines t.core (l.map (·.key))
              .next (t.setLc t.lc.advance)

/-- Translate the bytes of a row for a base die: as its stream's owner, kinds of R89. -/
def State.gemvRowBytes (s : State) (core : Nat) (who : Who) (b : BDesc) (fmt : BitVec 4) (k row : Nat) :
    State × Except Stop (List Byte) :=
  if (b.row row).toNat / 2 ^ 51 != 0 then (s, .error (.trap .bounds (b.row row)))
  else
    match State.xlateBytes tlb2 { who with core := some core } .gemvB .read 4 s (b.row row) (gemvBytes fmt k) with
    | (s, .error e) => (s, .error e)
    | (s, .ok l) => s.load l

/-- A landed row enters the buffer with every row that follows it (R364). -/
def Cmd.advanceRows : Nat → Cmd → Cmd
  | 0, x => x
  | fuel + 1, x =>
    match x.mgemv with
    | none => x
    | some j =>
      match j.rowsDone.find? (·.1 == x.mem) with
      | none => x
      | some r =>
        Cmd.advanceRows fuel
          { x with mem := x.mem + 1, buf := x.buf ++ [⟨some r.2.1, r.2.2⟩],
                   mgemv := some { j with rowsDone := j.rowsDone.filter (·.1 != x.mem) } }

/-- MGEMV_ROW (R364): the base dies form one element of y, once the command has leave. -/
def execMgemvRow (core port row : Nat) (s : State) : Host.Outcome State Fault Refusal :=
  let cmds := (s.port core port).cmds
  match memHead cmds with
  | none => .next s
  | some x =>
    match x.mgemv with
    | none => .next s
    | some j =>
      let ref := portLeave .mgemv x.owner core port
      if x.suspended || x.stopAsked || x.fault.isSome || x.hold || x.done || !x.after.isEmpty then .next s
      else if !s.hasLeave ref then .next (s.askLeave ref 0 (s.prioOf x.owner))
      else if row < x.mem ∨ x.exp ≤ row ∨ x.mem + freeElems cmds x ≤ row ∨ j.rowsDone.any (·.1 == row) then .next s
      else
        let b : BDesc := ⟨j.desc.getD 0 0, x.exp, j.desc.getD 2 0, true⟩
        match s.gemvRowBytes core (s.streamWho core x) b j.fmt j.xElems row with
        | (s, .error (.trap c a)) =>
          if row = x.mem then .next (s.updMemHead core port fun x => { x with started := true, fault := some ⟨c, a⟩ })
          else .next s
        | (s, .error .held) => .next s
        | (s, .error .poison) => .next (s.kill (s.thr x.owner).lc.job.ctx Cause.poison.code x.owner)
        | (_, .error (.noPlace a)) => .fault (.noSuchPlace a)
        | (s, .ok bytes) =>
          let xf := Vtype.fmt (x.shape.stride' 2)
          let y := dotP false (rowVals j.fmt bytes) (j.x.map xf.decode)
          let x : Cmd := { x with started := true, mgemv := some { j with rowsDone := (row, y.1, y.2) :: j.rowsDone } }
          .next (s.updMemHead core port fun _ => x.advanceRows (j.rowsDone.length + 1))

end Sys2Proof.Machine
end

