-- ==== Sys2Proof/Machine/Csr.lean ====
section
/-! DEFINITION. The CSR map and the CSR instructions (R263 to R267), TRAP, TRET, WFE and PAUSE (R268 to R272). -/

namespace Sys2Proof.Machine

/-! ## The map (R265) -/

/-- TSTATE (R267). -/
def LCore.tstate (c : LCore) : Word :=
  BitVec.ofNat 64 (c.wphase.toNat * 2 ^ 32 + c.bwp.toNat * 16 + c.evf.toNat * 8 + c.pprv.toNat * 2 + c.tact.toNat)

/-- Set the fields of TSTATE (R267). -/
def LCore.setTstate (c : LCore) (x : Word) : LCore :=
  { c with wphase := x.extractLsb' 32 32, bwp := x.getLsbD 4, evf := x.getLsbD 3, pprv := x.getLsbD 1, tact := x.getLsbD 0 }

/-- A CSR that the logical core holds (R265); 0 for any other address. -/
def LCore.csr (c : LCore) (a : Nat) : Word :=
  match a with
  | 0x000 => BitVec.ofNat 64 c.vl
  | 0x001 => c.vtype
  | 0x002 => c.vstart.setWidth 64
  | 0x003 => c.satk.setWidth 64
  | 0x004 => c.frm.setWidth 64
  | 0x005 => c.fflags.setWidth 64
  | 0x00B => BitVec.ofNat 64 c.folio
  | 0x00C => BitVec.ofNat 64 c.job.lcore
  | 0x00D => BitVec.ofNat 64 c.job.nlcore
  | 0x00E => BitVec.ofNat 64 c.job.dlvl
  | 0x010 => c.cgrp
  | 0x011 => c.cop.setWidth 64
  | 0x012 => c.cstr.setWidth 64
  | 0x013 => c.cdl.setWidth 64
  | 0x014 => c.cmapb
  | 0x015 => c.ccnt
  | 0x020 => c.hvw
  | 0x021 => c.caseb
  | 0x022 => c.casen
  | 0x023 => c.hvcap
  | 0x024 => c.hvn
  | 0x025 => c.hvdist
  | 0x026 => c.hvnext
  | 0x027 => c.hvout
  | 0x028 => c.hvmth
  | 0x029 => c.hvitl
  | 0x02A => c.hvseed
  | 0x02B => c.hvpart
  | 0x02C => c.hvfth
  | 0x02D => c.hvstw
  | 0x030 => c.skcfg
  | 0x031 => c.sktol
  | 0x032 => c.skflr
  | 0x033 => c.skwin
  | 0x034 => c.skcnt.setWidth 64
  | 0x038 => c.mgrant
  | 0x040 => c.tvec
  | 0x041 => c.tcause.setWidth 64
  | 0x042 => c.tval
  | 0x043 => c.tpc
  | 0x044 => c.tstate
  | 0x050 => c.xbase
  | 0x051 => c.xgen.setWidth 64
  | _ => 0

/-- Give a CSR that the logical core holds a value; MGRANT follows the attachment (R350). -/
def LCore.setCsr (c : LCore) (a : Nat) (x : Word) : LCore :=
  match a with
  | 0x000 => { c with vl := x.toNat }
  | 0x001 => { c with vtype := x }
  | 0x002 => { c with vstart := x.setWidth 13 }
  | 0x003 => { c with satk := x.setWidth 4 }
  | 0x004 => { c with frm := x.setWidth 2 }
  | 0x005 => { c with fflags := x.setWidth 5 }
  | 0x00B => { c with folio := x.toNat }
  | 0x00C => { c with job := { c.job with lcore := x.toNat } }
  | 0x00D => { c with job := { c.job with nlcore := x.toNat } }
  | 0x00E => { c with job := { c.job with dlvl := x.toNat } }
  | 0x010 => { c with cgrp := x }
  | 0x011 => { c with cop := x.setWidth 3 }
  | 0x012 => { c with cstr := x.setWidth 31 }
  | 0x013 => { c with cdl := x.setWidth 32 }
  | 0x014 => { c with cmapb := x }
  | 0x015 => { c with ccnt := x }
  | 0x020 => { c with hvw := x }
  | 0x021 => { c with caseb := x }
  | 0x022 => { c with casen := x }
  | 0x023 => { c with hvcap := x }
  | 0x024 => { c with hvn := x }
  | 0x025 => { c with hvdist := x }
  | 0x026 => { c with hvnext := x }
  | 0x027 => { c with hvout := x }
  | 0x028 => { c with hvmth := x }
  | 0x029 => { c with hvitl := x }
  | 0x02A => { c with hvseed := x }
  | 0x02B => { c with hvpart := x }
  | 0x02C => { c with hvfth := x }
  | 0x02D => { c with hvstw := x }
  | 0x030 => { c with skcfg := x }
  | 0x031 => { c with sktol := x }
  | 0x032 => { c with skflr := x }
  | 0x033 => { c with skwin := x }
  | 0x034 => { c with skcnt := x.setWidth 48 }
  | 0x040 => { c with tvec := x }
  | 0x041 => { c with tcause := x.setWidth 10 }
  | 0x042 => { c with tval := x }
  | 0x043 => { c with tpc := x }
  | 0x044 => c.setTstate x
  | 0x050 => { c with xbase := x }
  | 0x051 => { c with xgen := x.setWidth 32 }
  | _ => c

/-- The bits that a CSR instruction may write at a level (R265, and the layouts of R139, R141, R142, R241, R266,
R267, R313, R333, R371, R418, R424); SSCR and TFWD have none at U. -/
def csrMask (lvl : Level) (a : Nat) : Word :=
  match a with
  | 0x002 => 0x1FFF
  | 0x003 => 0xF
  | 0x004 => 0x3
  | 0x005 => 0x1F
  | 0x013 | 0x023 | 0x031 | 0x032 => 0xFFFFFFFF
  | 0x014 => 0x0007FFFFFFFFFFF8
  | 0x021 => 0x0007FFFFFFFFFF00
  | 0x022 => 0x1FFF
  | 0x024 | 0x02A | 0x042 => BitVec.allOnes 64
  | 0x028 | 0x02C => 0x3FFFF
  | 0x029 => 0xFFFF
  | 0x02B => 0x00031FFF1FFF1FFF
  | 0x02D | 0x033 => 0xFF
  | 0x040 | 0x043 => 0x0007FFFFFFFFFFFC
  | 0x041 => 0x3FF
  | 0x044 => if lvl == .s then 0x12 else 0x10
  | 0x045 => if lvl == .s then BitVec.allOnes 64 else 0
  | 0x046 => if lvl == .s then 0x3FF else 0
  | 0x050 => 0x0007FFFFFFFFF000
  | _ => 0

/-- SSCR and TFWD, which any access at U makes raise PRIV (R265). -/
def csrPriv (a : Nat) : Bool := a == 0x045 || a == 0x046

/-- A CSR as an instruction of the thread whose turn it is reads it (R265); TFWD reads 0. -/
def State.csrRead (s : State) (a : Nat) : Word :=
  match a with
  | 0x008 => BitVec.ofNat 64 (s.cur % 4)
  | 0x009 => BitVec.ofNat 64 s.core
  | 0x00A => BitVec.ofNat 64 s.dev
  | 0x00F => BitVec.ofNat 64 s.dtime
  | 0x045 => (s.thr s.cur).sscr
  | a => s.lc.csr a

/-- A CSR takes a value; fields of access R keep theirs (R263). -/
def State.csrWrite (s : State) (a : Nat) (x : Word) : State :=
  let m := csrMask s.lc.level a
  let v := (s.csrRead a &&& ~~~m) ||| (x &&& m)
  if a = 0x045 then s.setThr s.cur { s.thr s.cur with sscr := v } else s.setLc (s.lc.setCsr a v)

/-! ## The instructions (R263 to R265) -/

/-- The shared form: `new`, where the instruction writes, gives the value from the old one and g[a]. -/
def csrOp (i : Instr) (f : CF) (new : Option (Word → Word → Word)) (s : State) : Host.Outcome State Fault Refusal :=
  let a := f.csr.toNat
  let word : Word := (encode i).setWidth 64
  if s.notDrained then .next (s.waiting .other)
  else if s.lc.level == .u && csrPriv a then .next (s.trap .priv word)
  else if new.isSome && csrMask s.lc.level a = 0 then .next (s.trap .illegal word)
  else
    scalar [f.d, f.a] s fun s =>
      let old := s.csrRead a
      match new with
      | none => .next (s.put f.d old)
      | some op =>
        let x := op old (s.lc.rd f.a)
        if a = 0x046 then .next ((s.put f.d old).forward (x.extractLsb' 0 10).toNat)
        else .next ((s.csrWrite a x).put f.d old)

/-- CSRRD (R263). -/
def execCsrrd (f : CF) (s : State) : Host.Outcome State Fault Refusal := csrOp (.csrrd f) f none s

/-- CSRWR (R263). -/
def execCsrwr (f : CF) (s : State) : Host.Outcome State Fault Refusal := csrOp (.csrwr f) f (some fun _ x => x) s

/-- CSRSET (R263): with a = 0 it only reads. -/
def execCsrset (f : CF) (s : State) : Host.Outcome State Fault Refusal :=
  csrOp (.csrset f) f (if f.a = 0 then none else some fun old x => old ||| x) s

/-- CSRCLR (R263): with a = 0 it only reads. -/
def execCsrclr (f : CF) (s : State) : Host.Outcome State Fault Refusal :=
  csrOp (.csrclr f) f (if f.a = 0 then none else some fun old x => old &&& ~~~x) s

/-! ## TRAP, TRET, WFE, PAUSE -/

/-- TRAP (R268): SOFT with TVAL n and TPC P + 4. -/
def execTrap (f : CF) (s : State) : Host.Outcome State Fault Refusal :=
  .next (s.deliver ⟨.soft, f.csr.setWidth 64, 0, s.lc.pc + 4, s.lc.vstart⟩)

/-- TRET (R269). -/
def execTret (f : CF) (s : State) : Host.Outcome State Fault Refusal :=
  if s.lc.tact then .next (s.setLc s.lc.tret) else .next (s.trap .illegal ((encode (.tret f)).setWidth 64))

/-- WFE (R270): it waits for the event flag, and clears it. -/
def execWfe (_f : CF) (s : State) : Host.Outcome State Fault Refusal :=
  if s.lc.evf then .next (s.setLc { s.lc with evf := false }.advance) else .next (s.waiting .other)

/-- PAUSE (R272): only time passes. -/
def execPause (_f : CF) (s : State) : Host.Outcome State Fault Refusal := .next (s.setLc s.lc.advance)

end Sys2Proof.Machine
end

