-- ==== Sys2Proof/Machine/Image.lean ====
section
/-! DEFINITION. Saved images (R122, R219, R220, R429 to R433): where an image lies, what it holds, writing it
when a logical core is saved, reading it back when it is restored. -/

namespace Sys2Proof.Machine

/-! ## Where an image lies (R122, R423, R429) -/

/-- The blocks of the pool from 1,536 upward, ascending (R423). -/
def State.wholeBlocks (s : State) : List ImageAt := (List.range (s.poolBlocks - 1536)).map fun i => .pool (1536 + i)

/-- The slots of the hardware threads (R122). -/
def threadSlots : List ImageAt := threadNumbers.map fun n => .slot (n / 4) (n % 4)

/-- The save slot of a hardware thread (R122). -/
def threadSlot (thr : Nat) : ImageAt := .slot (thr / 4) (thr % 4)

/-- Where an image goes that must leave a thread's slot for another: a pool block, else the slot of some thread
(log entry 20). -/
def State.sparePlace (s : State) : Option ImageAt := (s.wholeBlocks ++ threadSlots).find? s.imageFree

/-- Where the image of a parked logical core goes (R249, R433). -/
def State.parkPlace (s : State) (core : Nat) : Option ImageAt :=
  ([4, 5, 6, 7].map (ImageAt.slot core) ++ s.wholeBlocks).find? s.imageFree

/-- Where the image of a logical core that SAVECTX saves goes (R434). -/
def State.poolPlace (s : State) : Option ImageAt := s.wholeBlocks.find? s.imageFree

/-! ## The parts of an image (R219, R336, R365, R429, R430) -/

/-- A Stick record in H entries (R336). -/
def StickRec.bytes (r : StickRec) (h : Nat) : List Byte :=
  let st := r.nh + r.cc * 2 ^ 4 + r.sc * 2 ^ 6 + r.fbc * 2 ^ 18
    + bitsAt [(r.ready, 14), (r.converged, 15), (r.stagnant, 16), (r.fallback, 17)]
  leBytes 4 r.est.toNat ++ leBytes 4 r.best.toNat ++ leBytes 4 st
    ++ (List.range h).flatMap fun i => leBytes 4 ((r.hist[i]?).getD 0).toNat

/-- The Stick record of some bytes. -/
def StickRec.ofBytes (b : List Byte) : StickRec :=
  let st := leNat ((b.drop 8).take 4)
  let nh := st % 16
  { est := BitVec.ofNat 32 (leNat (b.take 4)), best := BitVec.ofNat 32 (leNat ((b.drop 4).take 4)), nh := nh,
    cc := st / 2 ^ 4 % 4, sc := st / 2 ^ 6 % 256, ready := st.testBit 14, converged := st.testBit 15,
    stagnant := st.testBit 16, fallback := st.testBit 17, fbc := st / 2 ^ 18,
    hist := (List.range nh).map fun i => BitVec.ofNat 32 (leNat ((b.drop (12 + 4 * i)).take 4)) }

/-- The bytes of one Stick record. -/
def LCore.stickSize (c : LCore) : Nat := 4 * (c.skcfg.toNat % 16 + 3)

/-- The Stick is dirty (R347). -/
def LCore.stickDirty (c : LCore) : Bool := c.stick.any (· != StickRec.empty)

/-- The records that a save writes (R347). -/
def LCore.stickSaved (c : LCore) : List StickRec := if c.stickDirty then c.stick else []

/-- Every cause. -/
def Cause.all : List Cause :=
  [.illegal, .priv, .misalign, .overlap, .convoy, .vtypeIll, .groupAlign, .pageNp, .pageProt, .pageKind, .bounds,
    .poison, .stream, .bunreach, .deadlock, .noattach, .case, .stick, .xfail, .clate, .soft]

/-- A command with the fields of its cursor. CSTATE 2 stands for SSUSP as well as for leave withdrawn (R411): a stream that
the governor has paused, and no SSUSP, is not suspended as it comes back (R220). -/
def Cmd.ofCursor (x : Cmd) (b : List Byte) : Cmd :=
  let n (off len : Nat) : Nat := leNat ((b.drop off).take len)
  let st := n 0x0F 1
  let cause := Cause.all.find? fun c => c.code.toNat == n 0x70 1
  { x with
    shape := ⟨BitVec.ofNat 64 (n 0 8), BitVec.ofNat 64 (n 8 4), (List.range 5).map fun k => BitVec.ofNat 64 (n (0x10 + 4 * k) 4),
      (List.range 5).map fun k => BitVec.ofNat 64 (n (0x38 + 8 * k) 8),
      (List.range 5).map fun k => (BitVec.ofNat 32 (n (0x24 + 4 * k) 4)).signExtend 64⟩
    vtype := BitVec.ofNat 16 (n 0x0C 2), token := BitVec.ofNat 5 (n 0x0E 1), suspended := st % 4 == 2 && (x.suspended || !x.paused),
    tokenPending := st.testBit 2, exp := n 0x60 2, mem := n 0x62 2, reg := n 0x64 2,
    fault := if st.testBit 3 then cause.map fun c => ⟨c, BitVec.ofNat 64 (n 0x68 8)⟩ else none }

/-- The bytes of an x element of MGEMV in its staging area (R363, R429). -/
def MgemvJob.xBytes (x : Cmd) : Nat := Vtype.sew (x.shape.stride' 2) / 8

/-- The staging areas in use. -/
def LCore.staging (c : LCore) : List (Cmd × MgemvJob) := c.displaced.filterMap fun x => x.cmd.mgemv.map fun j => (x.cmd, j)

/-- SFLAGS (R430). -/
def LCore.saveFlags (c : LCore) : Nat :=
  bitsAt ([(c.level == .s, 0), (c.stickDirty, 1), (c.attach.isSome, 2), ((c.attach.map (·.wide01)).getD false, 3),
    ((c.attach.map (·.wide23)).getD false, 4)] ++ c.staging.map fun j => (true, 5 + j.2.area))

/-- The header (R430). -/
def LCore.header (c : LCore) : List Byte :=
  leBytes 4 0x53564C4F ++ leBytes 2 1 ++ leBytes 2 c.saveFlags ++ leBytes 8 c.pc.toNat ++ leBytes 4 c.job.lcore
    ++ leBytes 2 c.job.ctx ++ leBytes 1 c.job.prio ++ leBytes 1 c.displaced.length ++ leBytes 2 c.stickSaved.length
    ++ leBytes 1 c.rowsHeld ++ [0] ++ leBytes 4 c.job.launch ++ c.vext.toList.map (BitVec.ofNat 8 ·)
    ++ c.kext.toList.map (BitVec.ofNat 8 ·) ++ List.replicate 183 0

/-- The CSR addresses whose entries are written as 0 and not restored (R429). -/
def csrNotSaved (a : Nat) : Bool := [0x008, 0x009, 0x00A, 0x00F, 0x045, 0x046].contains a

/-- The parts that a save writes: the fixed part, slices below the extents, cursors, the Stick, the attachment,
the staging areas (R429 to R431). -/
def LCore.imageParts (c : LCore) : List (Nat × List Byte) :=
  [(0, c.header),
   (0x100, 0#8 :: List.replicate 7 0 ++ (c.g.toList.drop 1).flatMap fun x => leBytes 8 x.toNat),
   (0x200, (List.range 96).flatMap fun a => leBytes 8 (c.csr a).toNat),
   (0x3F00, List.replicate 256 0), (0x1D200, List.replicate 11776 0)]
  ++ (List.range 9).map (fun i => (0x500 + 512 * i, leBytes (16 * c.kext.toList.getD i 0) (c.kreg i).toNat))
  ++ c.cursorParts
  ++ (List.range 32).map (fun i => (0x4000 + 2048 * i, leBytes (16 * c.vext.toList.getD i 0) (c.vreg i).toNat))
  ++ [(0x14000, c.stickSaved.flatMap fun r => r.bytes (c.skcfg.toNat % 16))]
  ++ (c.attach.map Attach.image).getD []
  ++ c.staging.map fun j => (0x20000 + 16384 * j.2.area, j.2.x.flatMap (leBytes (MgemvJob.xBytes j.1)))

/-- The parts with their keys, at a place. -/
def State.partKeys (s : State) (i : ImageAt) (l : List (Nat × List Byte)) : List (Nat × Byte) :=
  l.flatMap fun p => p.2.zipIdx.map fun b => (s.imageOff i (p.1 + b.2), b.1)

/-- Whether the pool blocks that an image uses lie in GLOBAL (R423). -/
def State.poolReaches (s : State) (i : ImageAt) (staging : Bool) : Bool :=
  match i with
  | .slot _ _ => !staging || inGlobal (s.poolBase + 0x28000 * (i.block + 1) - 1)
  | .pool b => inGlobal (s.poolBase + 0x28000 * (b + 1) - 1)

/-! ## Saving (R220, R352, R426, R431) -/

/-- The engines leave a stopped thread: old values are written, a BARW keeps its arrival (R278), passes complete, the attachment is displaced,
streams quiesce into cursors, the factoring buffer and the leave are given up. Where poison stops a write stream the
context is killed, and the thread holds nothing (R440). -/
def State.quiesce (s : State) (n : Nat) : State :=
  let s := s.setLcOf n (s.thr n).lc.takeOldVals.stopBarw
  let s := s.displace n
  let r := (List.range 16).foldl (fun (a : State × List SavedCmd) p =>
    let mine := (a.1.thr n).lc.displaced.filter (·.port == p)
    let q := a.1.port (n / 4) p
    if q.owner = some n ∧ (a.1.thr n).occupied then
      let t := a.1.takeCmds (n / 4) p
      let done := unwritten q.cmds - unwritten (t.2.map (·.cmd))
      (t.1, (a.2 ++ mine ++ t.2).map fun x => { x with cmd := x.cmd.lessOwed p done })
    else (a.1, a.2 ++ mine)) (s, [])
  if !(r.1.thr n).occupied then r.1 else
  let s := r.1.giveBack n [.matt, .hvfact, .mgemv, .strm]
  let s : State := { s with factHolder := s.factHolder.filter (·.2.thr != n) }
  s.setLcOf n { (s.thr n).lc with displaced := r.2 }

/-- A number of an order of arrivals. -/
def State.nextOrder (s : State) : State × Nat :=
  ({ s with gov := { s.gov with order := s.gov.order + 1 } }, s.gov.order)

/-- Save the logical core of a stopped thread at a place (R426, R431): the engines leave it, its image is
written, its thread falls free; of a context that poison has killed nothing is saved (R440). -/
def State.saveAt (s : State) (n : Nat) (i : ImageAt) (ready parked : Bool) : Host.Outcome State Fault Refusal :=
  let s := s.quiesce n
  let c := (s.thr n).lc
  if !(s.thr n).occupied then .next s
  else if !s.poolReaches i (!c.staging.isEmpty) then .fault (.noSuchPlace (s.imageOff i 0x20000))
  else
    let r := (s.write (s.partKeys i c.imageParts)).nextOrder
    let x : SavedLc :=
      ⟨i, { c with waitFor := if parked then c.waitFor else .none, unreachMark := false }, ready, parked, r.2, n, none⟩
    let inc := (s.thr n).incoming
    let s := ({ r.1 with saved := r.1.saved ++ [x] } : State).vacate n
    .next (s.setThr n { s.thr n with incoming := inc })

/-! ## Copying an image (R428, R434) -/

/-- Copy n bytes from each source to its destination, all at once, with their poison: reads meet the errors
present in the sources. -/
def State.transfer (s : State) (n : Nat) (moves : List (Nat × Nat)) : State :=
  let s := moves.foldl (fun s m =>
    (List.range (n / wordBytes m.1)).foldl (fun s i => s.meet (m.1 + wordBytes m.1 * i)) s) s
  let into (a : Nat) : Bool := moves.any fun m => decide (m.2 ≤ a) && decide (a < m.2 + n)
  let cells := moves.flatMap fun m =>
    (s.mem.filter fun c => decide (m.1 ≤ c.1) && decide (c.1 < m.1 + n)).map fun c => (c.1 - m.1 + m.2, c.2)
  let words := moves.flatMap fun m =>
    ((List.range (n / 16)).map (16 * ·)).filterMap fun o => if s.poisoned (m.1 + o) then some (wordOf (m.2 + o)) else none
  { s with
    mem := Memory.putAll (s.mem.filter fun c => !into c.1) cells
    poison := s.poison.filter (!into ·) ++ words.eraseDups
    latent := s.latent.filter fun l => !into l.word }

/-- Copy the image of a saved logical core to another place (R428, R434). An image that lies there takes the place
that it leaves (log entry 20). -/
def State.moveImage (s : State) (k : Nat) (i : ImageAt) : State :=
  match s.saved[k]? with
  | none => s
  | some x =>
    let both (a b : Nat) : List (Nat × Nat) := if s.imageFree i then [(a, b)] else [(a, b), (b, a)]
    if x.at_ = i then s
    else
      let s1 := s.transfer 0x20000 (both (s.imageKey x.at_) (s.imageKey i))
      let s2 := s1.transfer 0x8000 (both (s.imageOff x.at_ 0x20000) (s.imageOff i 0x20000))
      let at_ (j : ImageAt) : ImageAt := if j = x.at_ then i else if j = i then x.at_ else j
      { s2 with saved := s2.saved.map fun y => { y with at_ := at_ y.at_ } }

/-- The save slot of a thread is free for its logical core: an image that lies there goes to a spare place; none when
there is none (R109, log entry 20). -/
def State.clearSlot (s : State) (thr : Nat) : Option State :=
  match s.saved.findIdx? (·.at_ == threadSlot thr) with
  | none => some s
  | some k => s.sparePlace.map (s.moveImage k ·)

/-! ## Restoring (R430 to R432) -/

/-- Read regions of an image, as offsets and lengths; none when one holds poison (R440). -/
def State.readRegions (i : ImageAt) : List (Nat × Nat) → State → State × Option (List (List Byte))
  | [], s => (s, some [])
  | r :: l, s =>
    match s.read ((List.range r.2).map fun o => s.imageOff i (r.1 + o)) with
    | (s, none) => (s, none)
    | (s, some b) =>
      match State.readRegions i l s with
      | (s, none) => (s, none)
      | (s, some m) => (s, some (b :: m))

/-- The registers of the fixed part (R429, R430): header, g registers and CSRs, of code addresses their bits (R266). -/
def LCore.withFixed (c : LCore) (b : List Byte) : LCore :=
  let n (off len : Nat) : Nat := leNat ((b.drop off).take len)
  let c : LCore := (List.range 96).foldl (fun c a =>
    if csrNotSaved a then c else c.setCsr a (BitVec.ofNat 64 (n (0x200 + 8 * a) 8))) c
  { c with
    level := if (n 6 2).testBit 0 then .s else .u
    pc := BitVec.ofNat 64 (n 8 8)
    tvec := codeAddress c.tvec
    tpc := codeAddress c.tpc
    g := Vector.ofFn fun k => BitVec.ofNat 64 (n (0x100 + 8 * k.val) 8)
    vext := Vector.ofFn fun k => n (0x20 + k.val) 1
    kext := Vector.ofFn fun k => n (0x40 + k.val) 1 }

/-- The variable parts of an image, for a logical core whose fixed part is read, with its flags, NE and rows: masks,
vector registers, Stick, tiles, B buffers, cursors, staging (R429). -/
def LCore.regions (c : LCore) (ne rows : Nat) : List (Nat × Nat) :=
  (List.range 9).map (fun i => (0x500 + 512 * i, 16 * c.kext.toList.getD i 0))
  ++ (List.range 32).map (fun i => (0x4000 + 2048 * i, 16 * c.vext.toList.getD i 0))
  ++ [(0x14000, ne * c.stickSize)]
  ++ (List.range 4).map (fun t => (0x18000 + 4096 * t, 128 * rows))
  ++ (List.range 2).map (fun i => (0x1C000 + 2304 * i, (((c.attach.bind (·.bbufs[i]?)).map (·.bytes.length)).getD 0)))
  ++ [(0x1700, 128 * c.displaced.length)]
  ++ c.staging.map fun j => (0x20000 + 16384 * j.2.area, MgemvJob.xBytes j.1 * j.2.xElems)

/-- The attachment from its regions (R352). -/
def Attach.restored (a : Attach) (flags rows : Nat) (tiles bufs : List (List Byte)) : Attach :=
  { a with
    rows := rows, displaced := true, slots := [], waits := none, wide01 := flags.testBit 3, wide23 := flags.testBit 4
    tiles := tiles.map fun t => (chunks 128 rows t).map fun r => BitVec.ofNat 1024 (leNat r)
    bbufs := (a.bbufs.zip bufs).map fun p => { p.1 with bytes := p.2 } }

/-- The commands from their cursors and staging areas (R219, R365). -/
def LCore.withCursors (c : LCore) (cur : List Byte) (staging : List (List Byte)) : LCore :=
  let mine := (c.cursors.map (·.1)).zip (chunks 128 80 cur)
  let areas := c.staging.map (·.2.area)
  let l := mine.map fun p =>
    let x := p.1.cmd.ofCursor p.2
    let j := p.1.cmd.mgemv.map fun j =>
      match (areas.zip staging).find? (·.1 == j.area) with
      | none => j
      | some a => { j with x := codesOf (MgemvJob.xBytes x) a.2, desc := [x.shape.e0, x.shape.ext.getD 0 0, x.shape.stride' 0] }
    (⟨p.1.port, { x with mgemv := j }⟩ : SavedCmd)
  { c with displaced := l }

/-- The logical core rebuilt from its regions (R432): slices at and above the extents read 0. -/
def LCore.rebuilt (c : LCore) (flags ne rows : Nat) (l : List (List Byte)) : LCore :=
  let reg (w k : Nat) : BitVec w := BitVec.ofNat w (leNat (l.getD k []))
  let c1 : LCore := { c with
    k := Vector.ofFn fun i => reg 4096 i.val
    ksm := reg 4096 8
    v := Vector.ofFn fun i => reg 16384 (9 + i.val)
    stick := (chunks c.stickSize ne (l.getD 41 [])).map StickRec.ofBytes
    attach := c.attach.map fun a => a.restored flags rows ((l.drop 42).take 4) ((l.drop 46).take 2)
    evf := true, waitFor := .none }
  c1.withCursors (l.getD 48 []) (l.drop 49)

/-- Read an image back: none when it holds poison. -/
def State.readImage (s : State) (i : ImageAt) (c : LCore) : State × Option LCore :=
  match State.readRegions i [(0, 0x500)] s with
  | (s, some [b]) =>
    let n (off len : Nat) : Nat := leNat ((b.drop off).take len)
    let c := c.withFixed b
    match State.readRegions i (c.regions (n 0x18 2) (n 0x1A 1)) s with
    | (s, none) => (s, none)
    | (s, some l) => (s, some (c.rebuilt (n 6 2) (n 0x18 2) (n 0x1A 1) l))
  | (s, _) => (s, none)

/-- Cursors are reinstated on their ports: at once where the port is free, or owned by a thread of lower
priority, whose commands are displaced; else they stay displaced (R200, R220). -/
def State.reinstate (s : State) (n : Nat) : State :=
  let u := (List.range 16).foldl (fun (s : State) p =>
    if ((s.thr n).lc.displacedAt p).isEmpty then s
    else
      match (s.port (n / 4) p).owner with
      | none => (({ s with cur := n } : State).claim p).getD s
      | some o =>
        if s.prioOf o < s.prioOf n then
          let t := s.displacePort (n / 4) p o
          if (t.thr n).occupied then (({ t with cur := n } : State).claim p).getD t else t
        else s) s
  { u with cur := s.cur }

end Sys2Proof.Machine
end

