-- ==== Sys2Proof/Machine/Launch.lean ====
section
/-! DEFINITION. Launches and their logical cores (R226 to R231, R249, R250, R401, R404 to R407): counters of
queues, folios, the order of ready logical cores, placing them on threads, stalls and parking, completion. -/

namespace Sys2Proof.Machine

/-! ## Counters of a queue (R401) -/

/-- A queue slot; one never written is not enabled. -/
def State.queue (s : State) (slot : Nat) : Queue := (FMap.get? s.queues slot).getD ⟨false, false, 0, 0, 0, 0, 0, [], []⟩

/-- Replace a queue slot. -/
def State.setQueue (s : State) (slot : Nat) (q : Queue) : State := { s with queues := FMap.set s.queues slot q }

/-- The keys that a counter access of a queue names (R401): as an S-level scalar atomic of the context that no
core makes. -/
def State.counterKeys (s : State) (ctx : Nat) (acc : Acc) (va : Word) (n : Nat) : State × Except Stop (List Nat) :=
  if va.toNat / 2 ^ 51 != 0 then (s, .error (.trap .bounds va))
  else if va.toNat % n != 0 then (s, .error (.trap .misalign va))
  else
    match s.xlate tlb2 ⟨none, ctx, .s⟩ .scalarAtomic acc va with
    | (s, .error e) => (s, .error e)
    | (s, .ok p) => (s, .ok ((List.range n).map p.at_))

/-- A counter access of a queue has faulted (R401): CFLT. -/
def State.counterFault (s : State) (slot : Nat) : State := s.setQueue slot { s.queue slot with cflt := true }

/-- Read an 8-byte counter for a queue (R401): none when it faults; poison kills the context (R440). -/
def State.counterRead (s : State) (slot ctx : Nat) (va : Word) : State × Option Nat :=
  match s.counterKeys ctx .read va 8 with
  | (s, .error .poison) => (s.kill ctx Cause.poison.code 0, none)
  | (s, .error _) => (s.counterFault slot, none)
  | (s, .ok ks) =>
    match s.read ((s.redirectAll false ks).getD ks) with
    | (s, none) => (s.kill ctx Cause.poison.code 0, none)
    | (s, some b) => (s, some (leNat b))

/-- Add to an 8-byte counter for a queue, modulo 2^64 (R401); a faulting addition is not performed, and one that the
swap engine holds is performed once its sub-block has landed (R101). -/
def State.counterAdd (s : State) (slot ctx : Nat) (va x : Word) : State :=
  match s.counterKeys ctx .rmw va 8 with
  | (s, .error .poison) => s.kill ctx Cause.poison.code 0
  | (s, .error _) => s.counterFault slot
  | (s, .ok ks) =>
    match s.redirectAll true ks with
    | none => { s with heldRemote := s.heldRemote ++ [.atomic ⟨.add, 8, ks.headD 0, x, 0⟩] }
    | some ks =>
      match s.read ks with
      | (s, none) => s.kill ctx Cause.poison.code 0
      | (s, some b) => s.writeBack (ks.zip (leBytes 8 (leNat b + x.toNat)))

/-! ## Folios (R227 to R231) -/

namespace Launch

/-- The first folio of logical core c (R228). -/
def first (l : Launch) (c : Nat) : Nat := c * l.folios / l.nlc

/-- Logical core c has a folio. -/
def owns (l : Launch) (c : Nat) : Bool := decide (l.first c < l.first (c + 1))

/-- The lowest logical core from c upward that has a folio, when there is one. -/
def nextOwner (l : Launch) (c : Nat) : Option Nat :=
  if l.folios = 0 ∨ l.nlc ≤ c then none
  else
    let d := if l.owns c then c else ((l.first c + 1) * l.nlc + l.folios - 1) / l.folios - 1
    if d < l.nlc then some d else none

/-- The lowest logical core from c upward that has not been dispatched and meets a test, with fuel (R230). -/
def pick (l : Launch) (ok : Nat → Bool) : Nat → Nat → Option Nat
  | 0, _ => none
  | fuel + 1, c =>
    match l.nextOwner c with
    | none => none
    | some d => if !l.ahead.contains d && ok d then some d else pick l ok fuel (d + 1)

/-- The lowest logical core not dispatched that meets a test. -/
def fresh (l : Launch) (ok : Nat → Bool) : Option Nat := l.pick ok l.nlc l.nextLc

/-- Logical core c has been dispatched. -/
def dispatched (l : Launch) (c : Nat) : Launch :=
  let m : Launch := { l with ahead := c :: l.ahead }
  let n := (m.fresh fun _ => true).getD m.nlc
  { m with nextLc := n, ahead := m.ahead.filter fun d => decide (n < d) }

/-- The logical cores that have a folio (R228). -/
def size (l : Launch) : Nat := min l.nlc l.folios

end Launch

/-- The launch of a sequence number. -/
def State.launch? (s : State) (seq : Nat) : Option Launch := s.launches.find? (·.seq == seq)

/-- Change a launch. -/
def State.updLaunch (s : State) (seq : Nat) (f : Launch → Launch) : State :=
  { s with launches := s.launches.map fun l => if l.seq == seq then f l else l }

/-- The kernel loaded at an index for a context (R459). -/
def State.kernel? (s : State) (kidx ctx : Nat) : Option Kernel := s.kernels.find? fun k => k.kidx == kidx && k.ctx == ctx

/-- The kernel has a D level (R230). -/
def Kernel.decked (k : Kernel) : Bool := k.loops.any (·.kind == 3)

/-- The start of a folio (R231): its registers, and the entry point; one that is not a multiple of 4 is taken as it
stands, without a trap (R41, log entry 78). -/
def LCore.startFolio (c : LCore) (f : Nat) : LCore :=
  let n := min ((f + 1) * c.job.folen) c.job.points - f * c.job.folen
  let w (x : Nat) : Word := BitVec.ofNat 64 x
  let c1 := ((c.wr 1 c.job.args).wr 2 (w (f * c.job.folen))).wr 3 (w n)
  let c2 := (List.range 4).foldl (fun (c : LCore) i => c.wr (BitVec.ofNat 5 (4 + i)) (w (c.job.counts.getD i 0))) c1
  { c2 with folio := f, pc := c2.job.entry }

/-- A logical core as it is dispatched for the first time (R228, R231). -/
def Launch.core (l : Launch) (k : Kernel) (priv : Bool) (c : Nat) : LCore :=
  let j : Job :=
    { ctx := l.ctx, priv := priv, launch := l.seq, kidx := l.kidx, prio := l.prio, lcore := c, nlcore := l.nlc,
      dlvl := l.dlvl, args := l.args, counts := l.counts, folen := k.folen, points := l.points, entry := k.entry,
      vregs := k.vregs, skdepth := k.skdepth, casesorts := k.casesorts, deck := if k.decked then some (c % 2) else none }
  ({ LCore.start j with folioEnd := l.first (c + 1) } : LCore).startFolio (l.first c)

/-! ## Ready logical cores (R405, R406) -/

/-- A ready logical core: its launch and LCORE, priority, the place of its image, none when it has not been
dispatched, its place in the order of its group, and what R406 asks of a thread. -/
structure Ready where
  launch : Nat
  lcore : Nat
  prio : Nat
  image : Option Nat
  order : Nat
  deck : Option Nat
  kidx : Nat
  ctx : Nat
  vaultb : Nat
  deriving DecidableEq, Repr

/-- A ready logical core that has an image. -/
def State.readyImage (s : State) (k : Nat) (x : SavedLc) : Ready :=
  let j := x.lc.job
  ⟨j.launch, j.lcore, j.prio, some k, x.order, j.deck, j.kidx, j.ctx, ((s.kernel? j.kidx j.ctx).map (·.vaultb)).getD 0⟩

/-- A ready logical core that has not been dispatched. -/
def Launch.ready (l : Launch) (k : Kernel) (c : Nat) : Ready :=
  ⟨l.seq, c, l.prio, none, l.seq, if k.decked then some (c % 2) else none, l.kidx, l.ctx, k.vaultb⟩

/-- The next logical cores of a launch to dispatch, but for some: the first, or the first of each deck (R230). -/
def State.freshOf (s : State) (but : Nat → Nat → Bool) (l : Launch) : List Ready :=
  match s.kernel? l.kidx l.ctx with
  | none => []
  | some k =>
    if !s.contexts.contains l.ctx then []
    else
      let one (p : Nat → Bool) : List Ready := ((l.fresh fun c => p c && !but l.seq c).map (l.ready k)).toList
      if k.decked then one (fun c => c % 2 == 0) ++ one (fun c => c % 2 == 1) else one fun _ => true

/-- One ready logical core is taken before another (R405). -/
def Ready.before (a b : Ready) : Bool :=
  if a.prio ≠ b.prio then decide (b.prio < a.prio)
  else if a.image.isSome ≠ b.image.isSome then a.image.isSome
  else if a.order ≠ b.order then decide (a.order < b.order)
  else decide (a.lcore ≤ b.lcore)

/-- The ready logical cores that may be taken next, in the order of R405, but for some. -/
def State.readyList (s : State) (but : Nat → Nat → Bool) : List Ready :=
  let images := (s.saved.zipIdx.filter fun x => x.1.ready && s.contexts.contains x.1.lc.job.ctx).map fun x => s.readyImage x.2 x.1
  let fresh := s.launches.flatMap (s.freshOf but)
  sortBy Ready.before ((images.filter fun r => !but r.launch r.lcore) ++ fresh)

/-- A logical core when it is ready. -/
def State.readyOne (s : State) (k : Nat × Nat) : Option Ready :=
  s.readyList (fun l c => (l, c) != k) |>.find? fun r => (r.launch, r.lcore) == k

/-- A ready logical core may run on a thread (R230, R406). -/
def State.mayRun (s : State) (r : Ready) (n : Nat) : Bool :=
  r.deck.all (· == deckOf (n / 4))
    && (r.vaultb == 0 || (FMap.get? s.vaultOwner (n / 4)).all fun o => o.kidx == r.kidx && o.ctx == r.ctx)

/-- A thread holds no logical core. -/
def State.idle (s : State) (n : Nat) : Bool := !(s.thr n).occupied

/-- The thread that a ready logical core takes (R230, R407, R428): the one freed for it; its former one; the
lowest that is free and not freed for another that is still ready. -/
def State.threadFor (s : State) (r : Ready) : Option Nat :=
  let own := (r.launch, r.lcore)
  let kept (n : Nat) : Bool :=
    match (s.thr n).incoming with
    | none => false
    | some k => k != own && (s.readyOne k).isSome
  let free := threadNumbers.filter fun n => s.idle n && s.mayRun r n && !kept n
  let former := r.image.bind fun k => (s.saved[k]?).map (·.thr)
  match free.find? fun n => (s.thr n).incoming == some own with
  | some n => some n
  | none =>
    match former with
    | some n => if free.contains n then some n else free.head?
    | none => free.head?

/-- The next ready logical core to place, with its thread: one that a thread was freed for, else the first in
the order of R405 that may run on a free thread (R407). -/
def State.nextPlace (s : State) : Option (Ready × Nat) :=
  let freed := threadNumbers.findSome? fun n =>
    if s.idle n then
      match (s.thr n).incoming.bind s.readyOne with
      | some r => if s.mayRun r n then some (r, n) else none
      | none => none
    else none
  freed <|> (s.readyList fun _ _ => false).findSome? fun r => (s.threadFor r).map fun n => (r, n)

/-! ## Placing a logical core (R35, R197, R406, R407) -/

/-- Copy a kernel's .vault image to the start of a core's visible vault (R35): nothing where its address does
not translate (log entry 22); poison kills the context. A VAULTB above 3 MiB, which afas does not write (R36), is
copied whole, past the visible vault (log entry 70). -/
def State.copyVault (s : State) (core : Nat) (k : Kernel) : State :=
  if k.vaultSize = 0 then s
  else
    match s.placeOf k.ctx .s .plain .read k.vaultVa k.vaultSize with
    | (s, .error .poison) => s.kill k.ctx Cause.poison.code 0
    | (s, .error _) => s
    | (s, .ok l) =>
      match s.read (l.map (·.key)) with
      | (s, none) => s.kill k.ctx Cause.poison.code 0
      | (s, some b) => s.write ((keysFrom (vaultKey core 0) b.length).zip b)

/-- A logical core of a kernel starts on a core: its launch shares the vault image, which the kernel takes when
it does not own it (R35, R406). -/
def State.takeVault (s : State) (core launch : Nat) (k : Kernel) : State :=
  if k.vaultb = 0 then s
  else
    match FMap.get? s.vaultOwner core with
    | some o =>
      let l := if o.launches.contains launch then o.launches else o.launches ++ [launch]
      { s with vaultOwner := FMap.set s.vaultOwner core { o with launches := l } }
    | none =>
      let s := s.copyVault core k
      if s.launches.any (·.seq == launch) then
        { s with vaultOwner := FMap.set s.vaultOwner core ⟨k.kidx, k.ctx, [launch]⟩ }
      else s

/-- A logical core takes a thread (R407): stamped, its placement noted, the core's data cache invalidated
(R185, R196), the stall of its launch over. -/
def State.seatOn (s : State) (n : Nat) (c : LCore) : State :=
  let s := (s.stamp.dropCache (n / 4)).updLaunch c.job.launch fun l => { l with parkedThisStall := false }
  let c : LCore := { c with placed := s.eventNo, placedAt := s.dtime }
  s.setThr n { s.thr n with occupied := true, stopAsked := none, stopped := false, incoming := none, lc := c }

/-- Dispatch a logical core that has not run on a thread (R230, R231); its vault image is there first. -/
def State.dispatchOn (s : State) (n seq c : Nat) : State :=
  match s.launch? seq with
  | none => s
  | some l =>
    match s.kernel? l.kidx l.ctx with
    | none => s
    | some k =>
      let s := s.takeVault (n / 4) seq k
      match s.descriptor l.ctx with
      | (s, none) => s.kill l.ctx Cause.poison.code 0
      | (s, some d) =>
        if s.launches.any (·.seq == seq) then
          (s.updLaunch seq fun l => l.dispatched c).seatOn n (l.core k (d.2.getLsbD 0) c)
        else s

/-! ## Completion (R273, R401) -/

/-- A launch completes: stamped; its share in vault images ends; with SIG = 1 its counter then rises (R401). -/
def State.launchDone (s : State) (l : Launch) : State :=
  let s := s.stamp.endLaunch l.seq
  match l.sig with
  | none => s
  | some va => s.counterAdd l.slot l.ctx va 1

/-- One more logical core of a launch has ended. -/
def State.coreDone (s : State) (seq : Nat) : State :=
  let s := s.updLaunch seq fun l => { l with ended := l.ended + 1 }
  match s.launch? seq with
  | none => s
  | some l => if l.size ≤ l.ended then s.launchDone l else s

/-! ## Stalls, parking, DEADLOCK (R249, R250) -/

/-- The condition that a wait is for holds (R250). -/
def State.waitOver (s : State) : WaitFor → Bool
  | .waitc home val => decide (val.toNat ≤ s.num home 8)
  | .bwait home ph | .barw home ph => s.barPhase home != ph
  | _ => false

/-- A logical core is waiting in WAITC, BWAIT or BARW, and neither what it waits for nor BUNREACH has come. -/
def State.isWaiting (s : State) (c : LCore) : Bool :=
  match c.waitFor with
  | .waitc _ _ | .bwait _ _ | .barw _ _ => !s.waitOver c.waitFor && !c.unreachMark
  | _ => false

/-- The threads that hold logical cores of a launch. -/
def State.threadsOf (s : State) (seq : Nat) : List Nat :=
  (s.threads.filter fun t => t.2.occupied && t.2.lc.job.launch == seq).map (·.1)

/-- The parked logical cores of a launch. -/
def State.parkedOf (s : State) (seq : Nat) : Nat := (s.saved.filter fun x => x.parked && x.lc.job.launch == seq).length

/-- A launch is stalled (R249): every dispatched logical core, but for those parked and complete, waits. -/
def State.stalled (s : State) (seq : Nat) : Bool :=
  let ts := s.threadsOf seq
  let is := s.saved.filter fun x => x.lc.job.launch == seq
  !(ts.isEmpty && is.isEmpty) && ts.all (fun n => s.isWaiting (s.thr n).lc && (s.thr n).stopAsked.isNone)
    && is.all fun x => x.parked && s.isWaiting x.lc

/-- Of some threads, the one whose logical core has the highest, or lowest, LCORE. -/
def State.byLcore (s : State) (high : Bool) (ts : List Nat) : Option Nat :=
  let key (n : Nat) : Nat := (s.thr n).lc.job.lcore
  (sortBy (fun a b => if high then decide (key b ≤ key a) else decide (key a ≤ key b)) ts).head?

/-- Park the waiting logical core of a thread and dispatch, on the thread it frees, the first of some others that
may run there (R249). -/
def State.park (s : State) (n seq : Nat) (i : ImageAt) (rs : List Ready) : Host.Outcome State Fault Refusal :=
  match (s.updLaunch seq fun l => { l with parkedThisStall := true }).saveAt n i false true with
  | .next t =>
    .next (match rs.find? fun r => t.launches.any (·.seq == r.launch) && t.mayRun r n with
      | some r => t.dispatchOn n r.launch r.lcore
      | none => t)
  | x => x

/-- A logical core is at a wait instruction, on which DEADLOCK with a count of parked ones falls. -/
def State.deadlockAt (s : State) (n parked : Nat) : State :=
  let c := (s.thr n).lc
  s.deliverTo n ⟨.deadlock, BitVec.ofNat 64 parked, 0, c.pc, c.vstart⟩

/-- The waiting logical cores of a launch, on threads and parked. -/
def State.waitingSeats (s : State) (seq : Nat) : List Seat :=
  (s.threadsOf seq).map .thread
    ++ (s.saved.zipIdx.filter fun x => x.1.parked && x.1.lc.job.launch == seq).map fun x => .image x.2

/-- DEADLOCK is delivered to the waiting logical core with the lowest LCORE; a parked one becomes ready, and receives
it when it is restored (R250). -/
def State.deadlock (s : State) (seq : Nat) : State :=
  let n := s.parkedOf seq
  match (sortBy (fun a b => decide ((s.seated a).job.lcore ≤ (s.seated b).job.lcore)) (s.waitingSeats seq)).head? with
  | none | some (.ghost _) => s
  | some (.thread t) => s.deadlockAt t n
  | some (.image k) =>
    let r := s.nextOrder
    { r.1 with saved := r.1.saved.modify k fun x => { x with parked := false, ready := true, order := r.2, owed := some n } }

/-- What the scheduler does for a launch when it is stalled (R249, R250). -/
def State.stallCheck (s : State) (seq : Nat) : Host.Outcome State Fault Refusal :=
  match s.launch? seq with
  | none => .next s
  | some l =>
    if !s.stalled seq then .next s
    else
      let budget := ((s.kernel? l.kidx l.ctx).map (·.parkb)).getD 0
      let rs := sortBy (fun a b => decide (a.lcore ≤ b.lcore)) (s.freshOf (fun _ _ => false) l)
      if rs.isEmpty then .next (s.deadlock seq)
      else if rs.any (fun r => (s.threadFor r).isSome) then .next s
      else if budget ≤ s.parkedOf seq then .next (s.deadlock seq)
      else if l.parkedThisStall then .next s
      else
        match s.byLcore true (s.threadsOf seq) with
        | none => .next s
        | some n =>
          match s.parkPlace (n / 4) with
          | some i => s.park n seq i rs
          | none => .next (s.deadlock seq)

/-- The thread whose turn it is waits in WAITC, BWAIT or BARW, and its launch may be stalled (R249). -/
def State.waitIn (s : State) (w : WaitFor) : Host.Outcome State Fault Refusal := (s.waiting w).stallCheck s.lc.job.launch

/-- A wait ends: so does the stall of its launch. -/
def State.waitDone (s : State) : State := s.updLaunch s.lc.job.launch fun l => { l with parkedThisStall := false }

/-! ## The scheduler's steps -/

/-- DISPATCH (R230, R407): the next ready logical core, when it has not run before, takes its thread. -/
def execDispatch (s : State) : Host.Outcome State Fault Refusal :=
  match s.nextPlace with
  | some (r, n) => if r.image.isNone then .next (s.dispatchOn n r.launch r.lcore) else .next s
  | none => .next s

/-- Restore a saved logical core on a thread (R428, R432): its image is first copied into the thread's slot;
poison kills its context (R440). A wait of its is executed again whole (R278); DEADLOCK that it is owed falls on that
instruction (R250). -/
def State.restoreOn (s : State) (k n : Nat) : State :=
  let s := s.moveImage k (threadSlot n)
  match s.saved[k]? with
  | none => s
  | some x =>
    match s.readImage x.at_ x.lc with
    | (s, none) => s.kill x.lc.job.ctx Cause.poison.code n
    | (s, some c) =>
      let s : State := { s with saved := s.saved.eraseIdx k }
      let s := match s.kernel? c.job.kidx c.job.ctx with
        | none => s
        | some kn => s.takeVault (n / 4) c.job.launch kn
      let s := (s.seatOn n c).reinstate n
      match x.owed with
      | none => s
      | some parked => if (s.thr n).occupied then s.deadlockAt n parked else s

/-- RESTORE (R405, R407, R432): the next ready logical core, when it has been saved, is restored on its thread. -/
def execRestore (s : State) : Host.Outcome State Fault Refusal :=
  match s.nextPlace with
  | some (r, n) =>
    match r.image with
    | some k => .next (s.restoreOn k n)
    | none => .next s
  | none => .next s

/-- A pre-emption for a ready logical core is in flight (R407). -/
def State.inFlight (s : State) (launch lcore : Nat) : Bool :=
  s.threads.any fun t => t.2.occupied && t.2.stopAsked.isSome && t.2.incoming == some (launch, lcore)

/-- The stop request goes to the victim (R407, R426): it is freed for the waiting logical core. -/
def State.stopFor (s : State) (n groups : Nat) (r : Ready) : State :=
  let s := s.stamp
  s.setThr n { s.thr n with stopAsked := some groups, incoming := some (r.launch, r.lcore) }

/-- The threads that a pre-emption may take for a ready logical core: those it may run on that hold one and are
not stopping already. -/
def State.takeable (s : State) (r : Ready) : List Nat :=
  (s.threads.filter fun t => t.2.occupied && t.2.stopAsked.isNone && s.mayRun r t.1).map (·.1)

/-- The victim of R407: of priority below, the lowest, and of these the one placed most recently. -/
def State.victim (s : State) (r : Ready) : Option Nat :=
  let key (n : Nat) : Nat × Nat := (s.prioOf n, (s.thr n).lc.placed)
  let below := (s.takeable r).filter fun n => decide (s.prioOf n < r.prio)
  (sortBy (fun a b => decide ((key a).1 < (key b).1 ∨ ((key a).1 = (key b).1 ∧ (key b).2 ≤ (key a).2))) below).head?

/-- PREEMPT (R407): for the first ready logical core that finds no free thread and has no pre-emption in flight,
a thread of lower priority is asked to stop after `groups` element groups. -/
def execPreempt (groups : Nat) (s : State) : Host.Outcome State Fault Refusal :=
  let r := (s.readyList s.inFlight).findSome? fun r =>
    if (s.threadFor r).isSome then none else (s.victim r).map fun n => (r, n)
  match r with
  | some (r, n) => .next (s.stopFor n groups r)
  | none => .next s

/-- QUANTUM_EXPIRY (R408): for the first ready logical core that finds neither a free thread nor one of lower
priority, the thread of its priority whose logical core was placed earliest, and at least 20 µs ago, stops. -/
def execQuantumExpiry (groups : Nat) (s : State) : Host.Outcome State Fault Refusal :=
  let due (r : Ready) : Option Nat :=
    let l := (s.takeable r).filter fun n => s.prioOf n == r.prio && decide ((s.thr n).lc.placedAt + 20000 ≤ s.dtime)
    (sortBy (fun a b => decide ((s.thr a).lc.placed ≤ (s.thr b).lc.placed)) l).head?
  let r := (s.readyList s.inFlight).findSome? fun r =>
    if (s.threadFor r).isSome || (s.victim r).isSome then none else (due r).map fun n => (r, n)
  match r with
  | some (r, n) => .next (s.stopFor n groups r)
  | none => .next s

/-- PREEMPT_SAVE (R122, R426, R431, R434): the logical core of a stopped thread is saved in its thread's slot, and is
ready; of a context that SAVECTX saves, its image is then copied to the pool. -/
def execPreemptSave (thr : Nat) (s : State) : Host.Outcome State Fault Refusal :=
  let t := s.thr thr
  if t.occupied && t.stopped then
    match s.clearSlot thr with
    | none => .next s
    | some u =>
      if u.contexts.contains t.lc.job.ctx then u.saveAt thr (threadSlot thr) true false
      else
        match u.poolPlace with
        | none => .next s
        | some i =>
          if !u.poolReaches i true then .fault (.noSuchPlace (u.imageOff i 0x27FFF))
          else
            match u.saveAt thr (threadSlot thr) false false with
            | .next v => .next (match v.saved.findIdx? (·.at_ == threadSlot thr) with
                | some k => v.moveImage k i
                | none => v)
            | x => x
  else .next s

/-- UNPARK (R250): a parked logical core whose condition holds becomes ready; with none, a stalled launch is
looked after. -/
def execUnpark (s : State) : Host.Outcome State Fault Refusal :=
  match s.saved.findIdx? fun x => x.parked && !s.isWaiting x.lc with
  | some k =>
    let r := s.nextOrder
    .next { r.1 with saved := r.1.saved.modify k fun x => { x with parked := false, ready := true, order := r.2 } }
  | none =>
    match s.launches.find? fun l => s.stalled l.seq with
    | some l => s.stallCheck l.seq
    | none => .next s

end Sys2Proof.Machine
end

