-- ==== Sys2Proof/Machine/Sync.lean ====
section
/-! DEFINITION. SEV, the end of a folio, barriers and WAITC (R229, R245 to R248, R271 to R279). -/

namespace Sys2Proof.Machine

/-! ## SEV (R271) -/

/-- Set the event flag of the logical cores of a launch that meet a test, on threads and saved (R270). -/
def State.setEvents (s : State) (p : LCore → Bool) : State :=
  let set (c : LCore) : LCore := if p c then { c with evf := true } else c
  { s with threads := s.threads.map fun t => (t.1, if t.2.occupied then { t.2 with lc := set t.2.lc } else t.2),
           saved := s.saved.map fun x => { x with lc := set x.lc } }

/-- SEV (R271). -/
def execSev (f : CF) (s : State) : Host.Outcome State Fault Refusal :=
  scalar [f.a] s fun s =>
    let v := s.lc.rd f.a
    let seq := s.lc.job.launch
    let t := s.setEvents fun c => c.job.launch == seq && (v == BitVec.allOnes 64 || c.job.lcore == v.toNat)
    .next (t.setLc t.lc.advance)

/-! ## TEND (R229, R231, R273) -/

/-- The largest range of folios not started of another logical core of the launch, the lowest LCORE among
equals: its seat and its length (R229). -/
def State.dealer (s : State) : Option (Seat × Nat) :=
  let seq := s.lc.job.launch
  let left (c : LCore) : Nat := c.folioEnd - c.folio - 1
  let threads := ((s.threadsOf seq).filter (· != s.cur)).map fun n => (Seat.thread n, (s.thr n).lc)
  let images := (s.saved.zipIdx.filter fun x => x.1.lc.job.launch == seq).map fun x => (Seat.image x.2, x.1.lc)
  let l := sortBy (fun a b => decide (left b.2 < left a.2 ∨ (left a.2 = left b.2 ∧ a.2.job.lcore ≤ b.2.job.lcore)))
    (threads ++ images)
  l.head?.map fun x => (x.1, left x.2)

/-- At DLVL 0 the upper half of that range moves to the logical core whose turn it is; none when nothing does. -/
def State.deal (s : State) : Option State :=
  match s.dealer with
  | none => none
  | some (w, k) =>
    if k / 2 = 0 then none
    else
      let o := s.seated w
      let t := s.reseat w { o with folioEnd := o.folioEnd - k / 2 }
      some (t.setLc (({ t.lc with folioEnd := o.folioEnd } : LCore).startFolio (o.folioEnd - k / 2)))

/-- The end of the last folio (R273): engine commands first; then ports, attachment and barriers are given up,
and the logical core completes. The leave of an exchange stays until every source is complete (R409). -/
def State.endCore (s : State) : Host.Outcome State Fault Refusal :=
  if s.notDrained || s.enginesBusy true true then .next (s.waiting .other)
  else
    let n := s.cur
    let seq := s.lc.job.launch
    let r := ((s.detach n).dropPorts n).barLeaveAll s.lc
    let s := r.1
    let c := s.lc
    if r.2 then .next ((s.setLc { c with barriers := [] }).kill c.job.ctx Cause.poison.code n) else
    let s := s.giveBack n LeaveKind.all
    let s := { s with ghosts := s.ghosts ++ c.ghost id }
    match ((s.vacate n).coreDone seq).stallCheck seq with
    | .next t => .next t
    | x => x

/-- TEND (R273). The next folio's g1 to g7 are written at once (R231); a stream token still to come for one of them
overwrites it (log entry 101). -/
def execTend (f : CF) (s : State) : Host.Outcome State Fault Refusal :=
  let c := s.lc
  if c.tact then .next (s.trap .illegal ((packC f.csr 5 f.a f.d 0x71).setWidth 64))
  else if c.folio + 1 < c.folioEnd then .next (s.setLc (c.startFolio (c.folio + 1)))
  else
    match if c.job.dlvl = 0 then s.deal else none with
    | some t => .next t
    | none => s.endCore

/-! ## Barriers (R245 to R248, R274 to R278) -/

/-- A barrier's reserved bits are not 0 (R274). -/
def State.barBad (s : State) (b : Nat) : Bool :=
  s.num (b + 16) 4 / 2 != 0 || s.num (b + 0x34) 12 != 0

/-- An access to the barrier in g[a] (R274, R275): its checks, its bytes, its reserved state, tested at
every use (log entry 102); then its home. -/
def onBarrier (acc : Acc) (addr : Word) (s : State) (k : Nat → State → Host.Outcome State Fault Refusal) :
    Host.Outcome State Fault Refusal :=
  match s.scalarAccess .vectorAtomic acc addr 64 with
  | (s, .error e) => s.stopped e 0 s.lc.vstart
  | (s, .ok l) =>
    match s.load l with
    | (s, .error e) => s.stopped e 0 s.lc.vstart
    | (s, .ok _) =>
      let b := ((l.map (·.key)).head?).getD 0
      if s.barBad b then .next (s.trap .pageKind addr) else k b (s.dropLines s.core (l.map (·.key)))

/-- The membership of a logical core in the barrier at a home. -/
def LCore.member? (c : LCore) (b : Nat) : Option Membership := c.barriers.find? (·.home == b)

/-- BJOIN (R276): with ar order (R191). -/
def execBjoin (f : SF) (s : State) : Host.Outcome State Fault Refusal :=
  scalar [f.a] s (afterPushes true fun s =>
    let addr := s.lc.rd f.a
    onBarrier .rmw addr s fun b s =>
      if (s.lc.member? b).isSome then .next ((s.dropCache s.core).setLc s.lc.advance)
      else
        match (List.range 128).find? fun i => !(s.barSlots b).getLsbD i with
        | none => .next (s.trap .bounds addr)
        | some slot =>
          if 8 ≤ s.lc.barriers.length then .next (s.trap .bounds addr)
          else
            let s1 := s.putBack (b + 8) 4 (s.barReg b + 1)
            let s2 := if s.barExplicit b then s1 else s1.putBack b 4 (s.barExp b + 1)
            let s3 := ((s2.putBack (b + 0x14) 16 ((s.barSlots b).toNat + 2 ^ slot)).barComplete b).barSettle b
            .next ((s3.dropCache s3.core).setLc { s.lc with barriers := s.lc.barriers ++ [(⟨addr, b, slot⟩ : Membership)] }.advance))

/-- BLEAVE (R246, R276): with ar order (R191). -/
def execBleave (f : SF) (s : State) : Host.Outcome State Fault Refusal :=
  scalar [f.a] s (afterPushes true fun s =>
    onBarrier .rmw (s.lc.rd f.a) s fun b s =>
      let s := s.dropCache s.core
      match s.lc.member? b with
      | none => .next (s.setLc s.lc.advance)
      | some m =>
        let t := s.barLeave m
        .next (t.setLc { t.lc with barriers := t.lc.barriers.filter (·.home != b) }.advance))

/-- An arrival at a barrier (R246, R247): counted; that of a member is noted; the completion test, and the test
of R247 when it was the last of the registered members to arrive. -/
def State.arrive (s : State) (b : Nat) (slot : Option Nat) : State :=
  let new := slot.any fun i => (s.barSlots b).getLsbD i && !(s.barArrived b).getLsbD i
  let s1 := s.putBack (b + 4) 4 (s.barArr b + 1)
  let s2 := if new then s1.putBack (b + 0x24) 16 ((s.barArrived b).toNat + 2 ^ slot.getD 0) else s1
  let done := decide (1 ≤ s2.barExp b) && decide (s2.barExp b ≤ s2.barArr b)
  if done then s2.barComplete b
  else if new && s2.barMissing b == 0 then s2.barUnreach b else s2.barSettle b

/-- BARR (R277): a release and an acquire (R185). -/
def execBarr (f : SF) (s : State) : Host.Outcome State Fault Refusal :=
  scalar [f.d, f.a] s (afterPushes true fun s =>
    onBarrier .rmw (s.lc.rd f.a) s fun b s =>
      let ph := s.barPhase b
      let t := s.arrive b ((s.lc.member? b).map (·.slot))
      .next ((t.dropCache t.core).put f.d (ph.setWidth 64)))

/-- A wait for a phase to pass (R247, R248, R277): BUNREACH that it has received while it waited, over, or it goes on.
The test of R247 is made as it issues, not again while it waits (R246): BUNREACH at once where the phase was found
unable to complete, while that holds. -/
def phaseWait (addr : Word) (b : Nat) (ph : BitVec 32) (w : WaitFor) (s : State) (k : State → State) :
    Host.Outcome State Fault Refusal :=
  if s.lc.unreachMark then .next (s.trap .bunreach addr)
  else if s.barPhase b ≠ ph then .next (k ((s.dropCache s.core).waiting .none).waitDone)
  else if !s.lc.waitFor.onBarrier b ph && s.unreach.contains (b, ph) && s.barStuck b then .next (s.trap .bunreach addr)
  else s.waitIn w

/-- BARW (R277, R278): its arrival is a release (R185); after it it waits for the phase that the arrival read; d takes that phase, at
the arrival where d is not a, and when the wait ends (log entry 23). -/
def execBarw (f : SF) (s : State) : Host.Outcome State Fault Refusal :=
  scalar [f.d, f.a] s fun s =>
    let addr := s.lc.rd f.a
    let wait (b : Nat) (ph : BitVec 32) (s : State) : Host.Outcome State Fault Refusal :=
      phaseWait addr b ph (.barw b ph) s fun s => (s.setLc { s.lc with bwp := false, barw := none }).put f.d (ph.setWidth 64)
    match (if s.lc.bwp then some s.lc.wphase else s.lc.barw) with
    | some ph => onBarrier .rmw addr s fun b s => wait b ph s
    | none =>
      s |> afterPushes true fun s => onBarrier .rmw addr s fun b s =>
        let ph := s.barPhase b
        let t := s.arrive b ((s.lc.member? b).map (·.slot))
        let t := t.dropCache t.core
        let c : LCore := { t.lc with barw := some ph }
        wait b ph (t.setLc (if f.d = f.a then c else c.wr f.d (ph.setWidth 64)))

/-- BWAIT (R277). -/
def execBwait (f : SF) (s : State) : Host.Outcome State Fault Refusal :=
  scalar [f.a, f.b] s fun s =>
    let addr := s.lc.rd f.a
    let ph : BitVec 32 := (s.lc.rd f.b).setWidth 32
    onBarrier .read addr s fun b s => phaseWait addr b ph (.bwait b ph) s fun s => s.setLc s.lc.advance

/-- BTEST (R248, R277). -/
def execBtest (f : SF) (s : State) : Host.Outcome State Fault Refusal :=
  scalar [f.d, f.a, f.b] s fun s =>
    onBarrier .read (s.lc.rd f.a) s fun b s =>
      let x := ofBool ((s.barPhase b).getLsbD 0 != (s.lc.rd f.b).getLsbD 0)
      .next ((s.dropCache s.core).put f.d x)

/-- WAITC (R279): each read is an acquire, which invalidates the data cache (R152, R196). -/
def execWaitc (f : SF) (s : State) : Host.Outcome State Fault Refusal :=
  scalar [f.a, f.b] s fun s =>
    match s.scalarAccess .vectorAtomic .read (s.lc.rd f.a) 8 with
    | (s, .error e) => s.stopped e 0 s.lc.vstart
    | (s, .ok l) =>
      match s.load l with
      | (s, .error e) => s.stopped e 0 s.lc.vstart
      | (s, .ok x) =>
        let v := s.lc.rd f.b
        if v.toNat ≤ leNat x then
          let t := (s.dropCache s.core).waitDone
          .next (t.setLc t.lc.advance)
        else (s.dropCache s.core).waitIn (.waitc (((l.map (·.key)).head?).getD 0) v)

end Sys2Proof.Machine
end

