-- ==== Sys2Proof/Machine/Queues.lean ====
section
/-! DEFINITION. Queues (R280 to R282, R399 to R403): the checks of a launch packet, QPOST, the launch ports,
QDESC, and how a packet at the head of its queue starts. -/

namespace Sys2Proof.Machine

/-! ## Launch packets (R281, R282) -/

namespace Packet

/-- A field of a packet, by offset and size (R281). -/
def fld (p : BitVec 512) (off n : Nat) : Nat := p.toNat / 2 ^ (8 * off) % 2 ^ (8 * n)
/-- PTYPE. -/
def ptype (p : BitVec 512) : Nat := fld p 0x00 1
/-- NW. -/
def nw (p : BitVec 512) : Nat := fld p 0x01 1 % 4
/-- SIG. -/
def sig (p : BitVec 512) : Bool := (fld p 0x01 1).testBit 2
/-- KIDX. -/
def kidx (p : BitVec 512) : Nat := fld p 0x02 2
/-- NLC. -/
def nlc (p : BitVec 512) : Nat := fld p 0x04 4
/-- ARGS. -/
def args (p : BitVec 512) : Word := BitVec.ofNat 64 (fld p 0x08 8)
/-- LCNT of a loop level. -/
def lcnt (p : BitVec 512) (i : Nat) : Nat := fld p (0x10 + 4 * i) 4
/-- The address and the value of counter 0 or 1. -/
def counter (p : BitVec 512) (i : Nat) : Word × Nat := (BitVec.ofNat 64 (fld p (0x20 + 8 * i) 8), fld p (0x38 + 4 * i) 4)
/-- The counters waited on. -/
def counters (p : BitVec 512) : List (Word × Nat) := (List.range (nw p)).map (counter p)
/-- SADDR. -/
def saddr (p : BitVec 512) : Word := BitVec.ofNat 64 (fld p 0x30 8)

/-- The fields, offset and size, that a type does not use (R281). -/
def unused : Nat → List (Nat × Nat)
  | 1 => []
  | 2 => [(0x02, 2), (0x04, 4), (0x08, 8), (0x10, 16), (0x28, 8), (0x30, 8), (0x3C, 4)]
  | 3 => [(0x02, 2), (0x04, 4), (0x10, 16), (0x20, 8), (0x28, 8), (0x38, 4), (0x3C, 4)]
  | 4 => [(0x02, 2), (0x08, 8), (0x10, 16), (0x20, 8), (0x28, 8), (0x30, 8), (0x38, 4), (0x3C, 4)]
  | 5 => [(0x02, 2), (0x04, 4), (0x08, 8), (0x10, 16), (0x20, 8), (0x28, 8), (0x30, 8), (0x38, 4), (0x3C, 4)]
  | _ => [(0x02, 2), (0x04, 4), (0x10, 16), (0x20, 8), (0x28, 8), (0x38, 4), (0x3C, 4)]

/-- NW and SIG are not those that a type other than LAUNCH requires (R282). -/
def wrongFlags (p : BitVec 512) : Nat → Bool
  | 1 => false
  | 2 => nw p != 1 || sig p
  | 3 => nw p != 0 || !sig p
  | _ => nw p != 0 || sig p

/-- A used address that is not aligned, or has bits [63:51] (R282). -/
def badAddr (a : Word) (align : Nat) : Bool := a.toNat % align != 0 || a.toNat / 2 ^ 51 != 0

/-- The packet is BADPKT (R282, R400); `known` tells the kernels loaded for the context. ARGS of a LAUNCH is none of its
used addresses (log entry 110). -/
def bad (known : Nat → Bool) (p : BitVec 512) : Bool :=
  let t := ptype p
  (t == 0 || decide (6 < t)) || nw p == 3 || fld p 0x01 1 / 8 != 0
    || (t == 1 && (!known (kidx p) || nlc p == 0 || decide (0x100000 < nlc p)))
    || (t == 4 && decide (2 < nlc p))
    || (unused t).any (fun f => fld p f.1 f.2 != 0) || wrongFlags p t
    || (counters p).any (fun c => badAddr c.1 8)
    || ((sig p || t == 6) && badAddr (saddr p) (if t = 6 then 16 else 8))

end Packet

/-- A kernel index that a packet of a context may name: loaded for it, and not being loaded (R282, R459). -/
def State.kernelKnown (s : State) (ctx kidx : Nat) : Bool :=
  (s.kernel? kidx ctx).isSome && !s.host.loading.any (·.kidx == kidx)

/-- The configuration space accepts every access (R452): BOOTST.STATE reads READY. -/
def State.hostReady (s : State) : Bool := s.host.bootState == 3

/-! ## Posting (R280, R400) -/

/-- The queue of a context: its enabled slot of that number (R399). -/
def State.queueOf (s : State) (ctx q : Nat) : Option (Nat × Queue) :=
  s.queues.find? fun x => x.2.en && x.2.ctx == ctx && x.2.qnum == q

/-- The packets that a queue holds at most (R400). -/
def fifoDepth : Nat := 256

/-- QPOST of a packet to queue q of a context: the status, in the order of R280, and the packet posted. -/
def State.post (s : State) (ctx q : Nat) (p : BitVec 512) : State × Word :=
  match if q ≤ 63 then s.queueOf ctx q else none with
  | none => (s, 2)
  | some (slot, x) =>
    if Packet.bad (s.kernelKnown ctx) p then (s, 3)
    else if fifoDepth ≤ x.fifo.length then (s, 1)
    else (s.stamp.setQueue slot { x with fifo := x.fifo ++ [p] }, 0)

/-- QPOST (R280): a release (R185). -/
def execQpost (f : SF) (s : State) : Host.Outcome State Fault Refusal :=
  scalar [f.d, f.a, f.b] s (afterPushes true fun s =>
    match s.scalarAccess .plain .read (s.lc.rd f.a) 64 with
    | (s, .error e) => s.stopped e 0 s.lc.vstart
    | (s, .ok l) =>
      match s.load l with
      | (s, .error e) => s.stopped e 0 s.lc.vstart
      | (s, .ok b) =>
        let r := (s.dropLines s.core (l.map (·.key))).post s.lc.job.ctx (s.lc.rd f.b).toNat (BitVec.ofNat 512 (leNat b))
        .next (r.1.put f.d r.2))

/-- LAUNCH_PORT_WRITE (R400): a write of 64 bytes aligned to the port of an enabled slot delivers a packet;
BADPKT is counted in NBAD; while the FIFO is full the write is held. Before READY nothing is accepted (R452). -/
def execLaunchPortWrite (off size : Nat) (data : BitVec 512) (s : State) : Host.Outcome State Fault Refusal :=
  let slot := off / 64
  let q := s.queue slot
  if !s.hostReady || size != 64 || off % 64 != 0 || decide (4096 ≤ slot) || !q.en then .next s
  else
    let s := s.stamp
    if Packet.bad (s.kernelKnown q.ctx) data then
      .next (s.setQueue slot { q with nbad := min (q.nbad + 1) 65535 })
    else if fifoDepth ≤ q.fifo.length then .next (s.setQueue slot { q with held := q.held ++ [data] })
    else .next (s.setQueue slot { q with fifo := q.fifo ++ [data] })

/-! ## QDESC (R399, R403) -/

/-- Launches started from a slot are under way. -/
def State.slotRuns (s : State) (slot : Nat) : Bool := s.launches.any (·.slot == slot)

/-- A write of 1 to EN of a slot, with the CTX and QNUM it then has, is ignored (R399, R403). -/
def State.enableIgnored (s : State) (slot ctx qnum : Nat) : Bool :=
  let mine := s.queues.filter fun x => x.1 != slot && x.2.en && x.2.ctx == ctx
  mine.any (·.2.qnum == qnum) || decide (64 ≤ mine.length) || s.slotRuns slot

/-- The CTX, QNUM and PRIO that a write gives a slot whose EN is 0 (R399). -/
def Queue.written (q : Queue) (v : Word) : Queue :=
  { q with qnum := (v.extractLsb' 32 6).toNat, ctx := (v.extractLsb' 12 12).toNat, prio := (v.extractLsb' 0 7).toNat }

/-- QDESC_ENABLE (R399, R403): a write of QDESC with EN = 1, an event of the
sequencer (R415). -/
def execQdescEnable (slot : Nat) (v : Word) (s : State) : Host.Outcome State Fault Refusal :=
  let q := s.queue slot
  if !s.hostReady || decide (4096 ≤ slot) then .next s
  else if q.en then .next (s.stamp.setQueue slot { q with cflt := false })
  else
    let w := q.written v
    if s.enableIgnored slot w.ctx w.qnum then .next (s.stamp.setQueue slot w)
    else .next (s.stamp.setQueue slot { w with en := true, cflt := false, qdlvl := 0 })

/-- QDESC_DISABLE (R403): a write of QDESC with EN = 0: packets not started and held writes are discarded. -/
def execQdescDisable (slot : Nat) (v : Word) (s : State) : Host.Outcome State Fault Refusal :=
  let q := s.queue slot
  if !s.hostReady || decide (4096 ≤ slot) then .next s
  else if q.en then .next (s.stamp.setQueue slot { q with en := false, fifo := [], held := [] })
  else .next (s.stamp.setQueue slot (q.written v))

/-! ## Packets start (R226 to R228, R401) -/

/-- The head of a slot's queue, when it may start but for its own condition: enabled, its context resident. -/
def State.headPacket (s : State) (slot : Nat) : Option (BitVec 512) :=
  let q := s.queue slot
  if q.en && s.contexts.contains q.ctx then q.fifo.head? else none

/-- The head starts: stamped, it leaves the FIFO, and a held write takes the place that frees (R400, R401). -/
def State.startPacket (s : State) (slot : Nat) : State :=
  let q := s.queue slot
  s.stamp.setQueue slot { q with fifo := q.fifo.drop 1 ++ q.held.take 1, held := q.held.drop 1 }

/-- Read counters for a slot (R401): whether each is at least its value. A context that dies stops it. -/
def State.countersReach (slot ctx : Nat) : List (Word × Nat) → State → State × Bool
  | [], s => (s, true)
  | c :: l, s =>
    match s.counterRead slot ctx c.1 with
    | (s, v) =>
      if !s.contexts.contains ctx then (s, false)
      else
        let r := State.countersReach slot ctx l s
        (r.1, r.2 && v.any fun x => decide (c.2 ≤ x))

/-- The launch of a packet of a slot (R226 to R228, R233, R404). -/
def Packet.toLaunch (p : BitVec 512) (q : Queue) (slot seq : Nat) (k : Kernel) : Launch :=
  let count (x : LoopLevel × Nat) : Nat := x.1.count.getD (Packet.lcnt p x.2)
  let levels := k.loops.zipIdx
  let points := ((levels.filter fun x => x.1.kind == 2 || x.1.kind == 3).map count).foldl (· * ·) 1
  let counts := (List.range 4).map fun i => ((levels.find? (·.2 == i)).map count).getD 0
  { seq := seq, slot := slot, ctx := q.ctx, kidx := Packet.kidx p, prio := q.prio, dlvl := q.qdlvl,
    nlc := Packet.nlc p, args := Packet.args p, counts := counts,
    sig := if Packet.sig p then some (Packet.saddr p) else none,
    folios := (points + k.folen - 1) / k.folen, points := points, nextLc := 0, ahead := [], ended := 0,
    parkedThisStall := false }

/-- A LAUNCH starts (R227, R401): its logical cores become ready; with no folios it completes at once. -/
def State.startLaunch (s : State) (slot : Nat) (p : BitVec 512) : State :=
  let q := s.queue slot
  let s := s.startPacket slot
  match s.kernel? (Packet.kidx p) q.ctx with
  | none => s
  | some k =>
    let l := Packet.toLaunch p q slot s.eventNo k
    let s : State := { s with launches := s.launches ++ [l] }
    if l.folios = 0 then s.launchDone l else s

/-- A waiting LAUNCH or WAITC at the head of a slot reads its counters, and starts when they allow (R401). -/
def State.tryWaiting (s : State) (slot : Nat) (p : BitVec 512) : State :=
  let r := State.countersReach slot (s.queue slot).ctx (Packet.counters p) s
  if !r.2 then r.1
  else if Packet.ptype p = 1 then r.1.startLaunch slot p
  else r.1.startPacket slot

/-- Do a head of some type what its step does; another head waits for its own step. -/
def onHead (slot t : Nat) (s : State) (k : BitVec 512 → State) : Host.Outcome State Fault Refusal :=
  match s.headPacket slot with
  | some p => if Packet.ptype p = t then .next (k p) else .next s
  | none => .next s

/-- LAUNCH_PACKET (R401). -/
def execLaunchPacket (slot : Nat) (s : State) : Host.Outcome State Fault Refusal :=
  onHead slot 1 s fun p => s.tryWaiting slot p

/-- WAITC_PACKET (R401). -/
def execWaitcPacket (slot : Nat) (s : State) : Host.Outcome State Fault Refusal :=
  onHead slot 2 s fun p => s.tryWaiting slot p

/-- SIGNAL_PACKET (R401). -/
def execSignalPacket (slot : Nat) (s : State) : Host.Outcome State Fault Refusal :=
  onHead slot 3 s fun p => (s.startPacket slot).counterAdd slot (s.queue slot).ctx (Packet.saddr p) (Packet.args p)

/-- SETDET_PACKET (R401): once every earlier packet of the queue has completed. -/
def execSetdetPacket (slot : Nat) (s : State) : Host.Outcome State Fault Refusal :=
  onHead slot 4 s fun p =>
    if s.slotRuns slot then s
    else
      let s := s.startPacket slot
      s.setQueue slot { s.queue slot with qdlvl := Packet.nlc p }

/-- DRAIN_PACKET (R401): once every earlier packet of the queue has completed. -/
def execDrainPacket (slot : Nat) (s : State) : Host.Outcome State Fault Refusal :=
  onHead slot 5 s fun _ => if s.slotRuns slot then s else s.startPacket slot

/-- A MARK writes the sequence number of its start and its tag; a faulting write is not performed (R401, R416), and
one that the swap engine holds is performed once its sub-block has landed (R101). -/
def State.mark (s : State) (slot ctx : Nat) (va tag : Word) : State :=
  let b := leBytes 8 s.eventNo ++ leBytes 8 tag.toNat
  match s.counterKeys ctx .rmw va 16 with
  | (s, .error .poison) => s.kill ctx Cause.poison.code 0
  | (s, .error _) => s.counterFault slot
  | (s, .ok ks) =>
    match s.redirectAll true ks with
    | none => { s with heldRemote := s.heldRemote ++ [.access ⟨true, ks.headD 0, 16, leNat b⟩] }
    | some ks => s.write (ks.zip b)

/-- MARK_PACKET (R401). -/
def execMarkPacket (slot : Nat) (s : State) : Host.Outcome State Fault Refusal :=
  onHead slot 6 s fun p => (s.startPacket slot).mark slot (s.queue slot).ctx (Packet.saddr p) (Packet.args p)

/-- COUNTER_REREAD (R401): the queue whose head waits on counters translates and reads them again, and starts
the packet when they allow. -/
def execCounterReread (slot : Nat) (s : State) : Host.Outcome State Fault Refusal :=
  match s.headPacket slot with
  | some p => if Packet.nw p = 0 then .next s else .next (s.tryWaiting slot p)
  | none => .next s

end Sys2Proof.Machine
end

