-- ==== Sys2Proof/Machine/Paging.lean ====
section
/-! DEFINITION. TLBINV, the swap engine, atomics and accesses that arrive from outside, the packets of
cluster-span accesses, old values of VAMOSWP (R84, R98 to R104, R117, R118, R124, R125, R172). -/

namespace Sys2Proof.Machine

/-- The word of an instruction of PRIV (R77). -/
def privWord (fn : BitVec 10) (f : SF) : Word := (packS fn f.b f.a f.d 0x73).setWidth 64

/-! ## TLBINV (R98, R99) -/

/-- Whether TLBINV with an address and a selector removes an entry (R98). -/
def invalidated (va sel : Word) (e : TlbEntry) : Bool :=
  sel.getLsbD 13 || (e.ctx == (sel.extractLsb' 0 12).toNat
    && (sel.getLsbD 12 || va.toNat % 2 ^ 51 / 2 ^ e.shift == e.vpn))

/-- Remove entries of the TLBs. -/
def State.dropTlbs (s : State) (p : TlbEntry → Bool) : State := { s with tlb := s.tlb.filter fun e => !p e }

/-- A command drops the translation in its cursor. -/
def Cmd.dropXlat (p : TlbEntry → Bool) (x : Cmd) : Cmd := if x.xlat.any p then { x with xlat := none } else x

/-- Streams whose cursors hold some entries drop them (R99, R102). -/
def State.dropCursors (s : State) (p : TlbEntry → Bool) : State :=
  { s with ports := s.ports.map fun q => (q.1, { q.2 with cmds := q.2.cmds.map (Cmd.dropXlat p) }) }

/-- TLBINV (R98): the entries are removed; the thread waits until it retires. -/
def execTlbinv (f : SF) (s : State) : Host.Outcome State Fault Refusal :=
  if s.lc.level == .u then .next (s.trap .priv (privWord 1 f))
  else
    scalar [f.a, f.b] s fun s =>
      let va := s.lc.rd f.a
      let sel := s.lc.rd f.b
      .next ((s.dropTlbs (invalidated va sel)).waiting (.tlbinv va sel))

/-- The first thread whose TLBINV has not retired, with what it removed. -/
def State.invalidating (s : State) : Option (Nat × Word × Word) :=
  s.threads.findSome? fun t =>
    match t.2.lc.waitFor with
    | .tlbinv va sel => if t.2.occupied then some (t.1, va, sel) else none
    | _ => none

/-- Packets of a context whose translations TLBINV may have removed are still under way (R99). -/
def State.spansOf (s : State) (sel : Word) : Bool :=
  s.spans.any fun x => sel.getLsbD 13 || (s.thr x.thr).lc.job.ctx == (sel.extractLsb' 0 12).toNat

/-- TLBINV_RETIRE (R99): the accesses have performed, streams drop the translations, and TLBINV retires. -/
def execTlbinvRetire (s : State) : Host.Outcome State Fault Refusal :=
  match s.invalidating with
  | none => .next s
  | some (n, va, sel) =>
    if s.spansOf sel then .next s
    else
      let t := (s.dropTlbs (invalidated va sel)).dropCursors (invalidated va sel)
      .next (t.setLcOf n { (t.thr n).lc.advance with waitFor := .none })

/-! ## SWAPPG (R100) -/

/-- An operand of SWAPPG has a reserved bit set. -/
def swapReserved (x : Word) : Bool := x.extractLsb' 51 13 != 0 || x.extractLsb' 12 3 != 0

/-- The page that an operand of SWAPPG names (R100). -/
def swapVa (x : Word) : Word := x &&& 0x7FFFFFFFF8000

/-- The entry that an operand of SWAPPG reaches (R100). The walk asks no right and sets neither A nor D (log entry 67). -/
def State.swapLeaf (s : State) (x : Word) : State × Except Stop Leaf := s.walk (x.extractLsb' 0 12).toNat (swapVa x)

/-- The frame that an operand reaches through its leaf: where its page begins; where R83 or R84 gives no place, the
kind, the device and the physical address that name it. -/
def State.swapFrame (s : State) (x : Word) (l : Leaf) : Except (MemKind × Nat × Nat) Nat :=
  match leafPlace s.who s.dev l.pte (l.pa (swapVa x)) (swapVa x) with
  | .ok p => .ok p.base
  | .error _ => .error (Pte.kind l.pte, Pte.devid l.pte, l.pa (swapVa x))

/-- A leaf that cannot be swapped: not at level 2, neither GLOBAL nor per-core VAULT, or striped (R100). A frame outside
the range that R83 gives a kind is not of that kind: no swap reaches a save area (log entry 93). -/
def Leaf.unswappable (l : Leaf) : Bool :=
  let k := Pte.kind l.pte
  let f := Pte.frame l.pte
  l.shift != 15 || !((k == .global && inGlobal f) || (k == .vault && inVault f)) || Pte.striped l.pte

/-- Bit SWLK. -/
def swlk : Word := 0x400

/-- The status of SWAPPG, the highest code that holds (R100), on what its two walks found, and the two leaves
where it is 0. A walk that faults reaches no entry: two that fault at one entry give BADPTE (log entry 94). -/
def State.swapStatus (s : State) (a b : Word) (x y : Except Stop Leaf) : Except Word (Leaf × Leaf) :=
  match x, y with
  | .ok l, .ok m =>
    if l.key = m.key ∨ s.swapFrame a l = s.swapFrame b m then .error 3
    else if swapReserved a || swapReserved b || l.unswappable || m.unswappable then .error 2
    else if Pte.swlk l.pte || Pte.swlk m.pte || decide (4 ≤ s.swaps.length) then .error 1
    else .ok (l, m)
  | _, _ => .error 2

/-- A swap begins: both entries hold SWLK = 1. -/
def State.beginSwap (s : State) (l m : Leaf) : State :=
  let id := (s.swaps.map (·.id)).foldl max 0 + 1
  let s := (s.putBack l.key 8 (l.pte ||| swlk).toNat).putBack m.key 8 (m.pte ||| swlk).toNat
  let w : Swap := ⟨id, l.key, m.key, Pte.frame l.pte, Pte.frame m.pte, Pte.kind l.pte, Pte.kind m.pte, List.replicate 8 .waiting⟩
  { s with swaps := s.swaps ++ [w] }

/-- SWAPPG (R100). -/
def execSwappg (f : SF) (s : State) : Host.Outcome State Fault Refusal :=
  if s.lc.level == .u then .next (s.trap .priv (privWord 0 f))
  else
    scalar [f.d, f.a, f.b] s fun s =>
      let p := s.swapLeaf (s.lc.rd f.a)
      let q := p.1.swapLeaf (s.lc.rd f.b)
      if p.2 = .error .poison ∨ q.2 = .error .poison then q.1.stopped .poison 0 s.lc.vstart
      else
        match q.1.swapStatus (s.lc.rd f.a) (s.lc.rd f.b) p.2 q.2 with
        | .error x => .next (q.1.put f.d x)
        | .ok (l, m) => .next ((q.1.beginSwap l m).put f.d 0)

/-! ## The swap engine (R101, R102) -/

/-- Where a key lies once sub-blocks at fa and fb have changed places. -/
def movedKey (fa fb a : Nat) : Nat :=
  if fa ≤ a ∧ a < fa + 4096 then a - fa + fb else if fb ≤ a ∧ a < fb + 4096 then a - fb + fa else a

/-- The keys that a logical core holds, moved: memberships and waits. The exchange control area keeps the frames
of DPOST (R382). -/
def LCore.rekey (k : Nat → Nat) (c : LCore) : LCore :=
  let w := match c.waitFor with
    | .waitc h v => .waitc (k h) v
    | .bwait h p => .bwait (k h) p
    | .barw h p => .barw (k h) p
    | w => w
  { c with
    waitFor := w, barriers := c.barriers.map fun m => { m with home := k m.home } }

/-- The caches of every core lose the bytes of two sub-blocks (R101). -/
def State.dropBlocks (s : State) (fa fb : Nat) : State :=
  let out (c : Host.Cell) : Bool :=
    let a := c.1 % 2 ^ 64
    !(decide (fa ≤ a) && decide (a < fa + 4096)) && !(decide (fb ≤ a) && decide (a < fb + 4096))
  { s with dcache := s.dcache.filter out, icache := s.icache.filter out }

/-- Two sub-blocks land (R101): their data, with its poison, has changed places; what names them follows. -/
def State.landBlocks (s : State) (fa fb : Nat) : State :=
  let s := (s.transfer 4096 [(fa, fb), (fb, fa)]).dropBlocks fa fb
  let k := movedKey fa fb
  { s with
    threads := s.threads.map fun t => (t.1, { t.2 with lc := t.2.lc.rekey k })
    saved := s.saved.map fun x => { x with lc := x.lc.rekey k }
    unreach := s.unreach.map fun u => (k u.1, u.2) }

/-- Replace a swap in flight. -/
def State.setSwap (s : State) (w : Swap) : State :=
  { s with swaps := s.swaps.map fun x => if x.id == w.id then w else x }

/-- An entry with a FRAME and its KIND, SWLK and DEVID 0; the other fields as they are (R102, R103). -/
def Pte.withFrame (pte : Word) (kind : MemKind) (frame : Nat) : Word :=
  let keep : Word := 0x7C0000000000027F &&& pte
  keep ||| kind.code.setWidth 64 <<< 7 ||| BitVec.ofNat 64 frame

/-- A packet under way reaches a frame. -/
def State.packetIn (s : State) (frame : Nat) : Bool :=
  s.packets.any fun x => !x.response && x.elems.any fun e =>
    let a := vaultKey x.owner e.2
    decide (frame ≤ a) && decide (a < frame + 0x8000)

/-- SWAP_COMPLETE (R102): every sub-block has landed, and no access under way holds either old address: the
entries exchange FRAME and KIND, the translations leave the TLBs and cursors, SWLK clears. -/
def execSwapComplete (swap : Nat) (s : State) : Host.Outcome State Fault Refusal :=
  match s.swaps.find? (·.id == swap) with
  | none => .next s
  | some w =>
    if w.blocks.any (· != .landed) || s.packetIn w.frameA || s.packetIn w.frameB then .next s
    else
      let entry (s : State) (k : Nat) (kind : MemKind) (f : Nat) : State :=
        let s := s.meets (keysFrom k 8)
        s.putBack k 8 (Pte.withFrame (BitVec.ofNat 64 (s.num k 8)) kind f).toNat
      let mine (e : TlbEntry) : Bool := e.leaf == w.entryA || e.leaf == w.entryB
      let t := entry (entry s w.entryA w.kindB w.frameB) w.entryB w.kindA w.frameA
      let t := (t.dropTlbs mine).dropCursors mine
      .next { t with swaps := t.swaps.filter (·.id != swap) }

/-! ## From outside the device (R84, R124, R125, R440) -/

/-- The keys of an access that arrives from another device, at its physical address: none where R84 refuses it. -/
def remoteKeys (a n : Nat) : Option (List Nat) :=
  let l := keysFrom a n
  if l.all inGlobal || l.all inVault then some l else none

/-- What a read of the outside, or an atomic, is answered: its data, or poison (R440). -/
def State.answered (s : State) (addr : Nat) (data : Option (List Byte)) : State :=
  { s with outbox := s.outbox ++ [.answer addr data] }

/-- Perform an atomic on its cell (R124, R125); the floating ones only in GLOBAL (R89). LDACQ and an AMOCAS that fails
write nothing (R151): an error that they met and had corrected stays in its cell (log entry 95). -/
def State.atomicAt (s : State) (r : RemoteAtomic) (l : List Nat) : State :=
  match s.read l with
  | (s, none) => s.answered r.addr none
  | (s, some b) =>
    let w := 8 * r.width
    let expect := r.expect.toNat % 2 ^ w
    let new := atomApply r.op w (leNat b) (r.operand.toNat % 2 ^ w) expect
    let quiet := r.op == .ldacq || (r.op == .cas && leNat b != expect)
    (if quiet then s else s.writeBack (l.zip (leBytes r.width new))).answered r.addr (some b)

/-- The cell that an atomic which arrives acts on: 8 bytes, or in GLOBAL also the 4 bytes and the floating
operations of vector atomics (R89, R125, R150, R169). -/
def remoteCell (r : RemoteAtomic) : Option (List Nat) :=
  let vector := r.width == 4 || r.op == .fadd || r.op == .fmin || r.op == .fmax
  if (r.width == 8 || r.width == 4) && r.addr % r.width == 0 && !(vector && !inGlobal r.addr) then remoteKeys r.addr r.width
  else none

/-- An access that arrives is served at its physical address, refused (R84), or held by the swap engine (R101). What
is refused is answered with nothing: the requester raises PAGE_KIND itself (log entry 96). -/
def State.serveRemote (s : State) (x : RemoteOp) : State :=
  let hold (s : State) : State := { s with heldRemote := s.heldRemote ++ [x] }
  match x with
  | .atomic r =>
    match remoteCell r with
    | none => s
    | some l =>
      match s.redirectAll true l with
      | none => hold s
      | some l => s.atomicAt r l
  | .access r =>
    match remoteKeys r.addr r.bytes with
    | none => s
    | some l =>
      match s.redirectAll r.write l with
      | none => hold s
      | some l => if r.write then s.write (l.zip (leBytes r.bytes r.data)) else let u := s.read l; u.1.answered r.addr u.2
  | .bytes m =>
    match execExchangeBytes m s with
    | .next t => t
    | _ => s

/-- HOME_ATOMIC (R124, R125): an atomic that arrives performs on its cell. -/
def execHomeAtomic (r : RemoteAtomic) (s : State) : Host.Outcome State Fault Refusal := .next (s.serveRemote (.atomic r))

/-- REMOTE_DOMAIN_ACCESS (R84): a load or store that arrives is served at its physical address, or refused. -/
def execRemoteDomainAccess (r : RemoteAccess) (s : State) : Host.Outcome State Fault Refusal :=
  .next (s.serveRemote (.access r))

/-- What the swap engine held of other devices' accesses is served again, in order, after a landing. -/
def State.serveHeld (s : State) : State := s.heldRemote.foldl State.serveRemote { s with heldRemote := [] }

/-- SWAP_SUBBLOCK_MOVE (R101): the first sub-block that has not landed begins to move, or lands. -/
def execSwapSubblockMove (swap : Nat) (s : State) : Host.Outcome State Fault Refusal :=
  match s.swaps.find? (·.id == swap) with
  | none => .next s
  | some w =>
    match w.blocks.findIdx? (· != .landed) with
    | none => .next s
    | some j =>
      if w.blocks[j]? = some .moving then
        .next ((s.landBlocks (w.frameA + 4096 * j) (w.frameB + 4096 * j)).setSwap { w with blocks := w.blocks.set j .landed }).serveHeld
      else .next (s.setSwap { w with blocks := w.blocks.set j .moving })

/-! ## Packets of cluster-span accesses (R117, R118) -/

/-- Change what a thread keeps of its cluster-span access. -/
def State.updSpan (s : State) (thr : Nat) (f : SpanOp → SpanOp) : State :=
  { s with spans := s.spans.map fun x => if x.thr == thr then f x else x }

/-- The keys of a packet's elements, by element (R117). -/
def SpanPacket.keyed (x : SpanPacket) (ks : List (List Nat)) : List (Nat × List Nat) := (x.elems.map (·.1)).zip ks

/-- The elements of an element group of a packet's thread (R240). -/
def State.spanGroup (s : State) (x : SpanPacket) : Nat := Vtype.groupOf (Vtype.c (s.thr x.thr).lc.vtype)

/-- An owner applies a scatter packet in ascending element order (R118), the writes of one group merged (R120). -/
def State.applyScatter (s : State) (x : SpanPacket) (ks : List (List Nat)) : State :=
  let g := s.spanGroup x
  let s := (ks.zip x.data).foldl (fun (s : State) p => (s.poke (p.1.zip p.2)).dropLines (x.thr / 4) p.1) s
  let s := (groupKeys g (x.keyed ks)).foldl State.overwritten s
  let s : State := { s with packets := s.packets.filter (·.id != x.id) }
  s.updSpan x.thr fun o => { o with left := o.left - 1 }

/-- CLUSTER_SPAN_PACKET (R117): the owner serves a gather request, or applies a scatter packet; poison kills the
context that asked (R440). -/
def execClusterSpanPacket (n : Nat) (s : State) : Host.Outcome State Fault Refusal :=
  match s.packets.find? fun x => x.id == n && !x.response && !s.behind x with
  | none => .next s
  | some x =>
    match s.packetKeys x with
    | none => .next s
    | some ks =>
      if x.scatter then .next (s.applyScatter x ks)
      else
        match readAll (s.spanGroup x) (x.keyed ks) s with
        | (s, none) => .next (s.kill (s.thr x.thr).lc.job.ctx Cause.poison.code x.thr)
        | (s, some d) =>
          let r : SpanPacket := { x with response := true, data := d.map (·.2) }
          .next { s with packets := s.packets.map fun y => if y.id == n then r else y }

/-- GATHER_RESPONSE (R117): a response is unpacked into the element positions. -/
def execGatherResponse (n : Nat) (s : State) : Host.Outcome State Fault Refusal :=
  match s.packets.find? fun x => x.id == n && x.response with
  | none => .next s
  | some x =>
    let s : State := { s with packets := s.packets.filter (·.id != n) }
    .next (s.updSpan x.thr fun o => { o with vals := o.vals ++ (x.elems.map (·.1)).zip x.data, left := o.left - 1 })

/-- VAMOSWP_OLD_VALUE (R172): the first old value on its way to a thread is written into its element of d. -/
def execVamoswpOldValue (thr : Nat) (s : State) : Host.Outcome State Fault Refusal :=
  let c := (s.thr thr).lc
  match c.oldVals with
  | [] => .next s
  | o :: l => .next (s.setLcOf thr { c.setVal o.reg o.sew o.elem o.val with oldVals := l })

end Sys2Proof.Machine
end

