-- ==== Sys2Proof/Machine/Context.lean ====
section
/-! DEFINITION. Contexts (R82, R420, R423, R434, R435): SAVECTX, CTXCTL, TFWD and CKILL. -/

namespace Sys2Proof.Machine

/-! ## SAVECTX (R434) -/

/-- The threads that hold logical cores of a context. -/
def State.threadsIn (s : State) (ctx : Nat) : List Nat :=
  (s.threads.filter fun t => t.2.occupied && t.2.lc.job.ctx == ctx).map (·.1)

/-- The images of a context, those still to be written included. -/
def State.imagesOf (s : State) (ctx : Nat) : Nat :=
  (s.threadsIn ctx).length + (s.saved.filter (·.lc.job.ctx == ctx)).length

/-- The status of SAVECTX. -/
def State.saveStatus (s : State) (x : Word) : Word :=
  if x.toNat / 2 ^ 12 != 0 || !s.contexts.contains x.toNat then 1
  else if (s.wholeBlocks.filter s.imageFree).length < s.imagesOf x.toNat then 2
  else 0

/-- A running logical core of the context is pre-empted with no incoming; one that is already being pre-empted
serves (R425, R434). -/
def State.stopForSave (s : State) (n : Nat) : State :=
  if (s.thr n).stopAsked.isSome then s
  else
    let s := s.stamp
    s.setThr n { s.thr n with stopAsked := some 0, incoming := none }

/-- An image lies in a vault slot. -/
def ImageAt.inSlot : ImageAt → Bool
  | .slot _ _ => true
  | .pool _ => false

/-- Copy the images of a context from vault slots to free pool blocks, which frees the slots; with fuel. -/
def State.toPool (ctx : Nat) : Nat → State → Host.Outcome State Fault Refusal
  | 0, s => .next s
  | fuel + 1, s =>
    match s.saved.findIdx? fun x => x.lc.job.ctx == ctx && x.at_.inSlot with
    | none => .next s
    | some k =>
      match s.poolPlace with
      | none => .next s
      | some i =>
        if s.poolReaches i true then State.toPool ctx fuel (s.moveImage k i)
        else .fault (.noSuchPlace (s.imageOff i 0x27FFF))

/-- The thread that issues SAVECTX for its own context (R434): saved as if it had executed TRET, or at the
next instruction. -/
def State.saveSelf (s : State) : State :=
  let c := if s.lc.tact then s.lc.tret else s.lc.advance
  s.setThr s.cur { s.thr s.cur with stopAsked := some 0, stopped := true, lc := c }

/-- A context is saved (R434): not resident, its running logical cores stop, its images go to the pool and wait
until it is resident again; SAVECTX then waits for the copies of those that stop. -/
def State.saveContext (s : State) (ctx : Nat) (d : Reg) : Host.Outcome State Fault Refusal :=
  let s : State := { s with contexts := s.contexts.filter (· != ctx) }
  let s := (s.threadsIn ctx).foldl State.stopForSave s
  match State.toPool ctx s.saved.length s with
  | .next s =>
    let held (x : SavedLc) : SavedLc := if x.lc.job.ctx == ctx then { x with ready := false, parked := false } else x
    let s : State := { s with saved := s.saved.map held }
    if s.lc.job.ctx = ctx then .next s.saveSelf
    else .next ((s.waiting (.savectx ctx d)).saveRetire ctx d)
  | x => x

/-- SAVECTX (R434). -/
def execSavectx (f : SF) (s : State) : Host.Outcome State Fault Refusal :=
  if s.lc.level == .u then .next (s.trap .priv (privWord 2 f))
  else
    scalar [f.d, f.a] s fun s =>
      let x := s.lc.rd f.a
      let st := s.saveStatus x
      if st ≠ 0 then .next (s.put f.d st) else s.saveContext x.toNat f.d

/-! ## CTXCTL, TFWD and CKILL (R82, R423, R435) -/

/-- The scheduler refuses to make a context with this CROOT and CFLAGS resident (R82, R423). -/
def State.refusesContext (s : State) (ctx : Nat) (croot cflags : Word) : Bool :=
  !croot.getLsbD 0 || croot &&& ~~~(0xFFFFFFFF8001 : Word) != 0 || cflags.toNat / 2 != 0
    || decide (s.poolBlocks < 1536) || (!s.contexts.contains ctx && decide (64 ≤ s.contexts.length))

/-- The saved logical cores of a context become ready, in the order in which they were saved (R405, R434). -/
def State.readyAll (s : State) (ctx : Nat) : State :=
  (List.range s.saved.length).foldl (fun s k =>
    match s.saved[k]? with
    | none => s
    | some x =>
      if x.lc.job.ctx = ctx ∧ !x.ready ∧ !x.parked then
        let r := s.nextOrder
        { r.1 with saved := r.1.saved.set k { x with ready := true, order := r.2 } }
      else s) s

/-- The fields of CTXCTL after an operation. -/
def State.setCtxctl (s : State) (ctx : Nat) (err : Bool) : State :=
  { s with host := { s.host with ctxctlCtx := BitVec.ofNat 12 ctx, ctxctlErr := err } }

/-- CTXCTL_MAKE_RESIDENT (R81, R423): a write of CTXCTL with OP = 1. -/
def execCtxctlMakeResident (v : Word) (s : State) : Host.Outcome State Fault Refusal :=
  let ctx := (v.extractLsb' 0 12).toNat
  if !s.hostReady then .next s
  else if !s.host.ctxtb.getLsbD 0 then .next (s.stamp.setCtxctl ctx true)
  else
    match s.stamp.descriptor ctx with
    | (s, none) => .next ((s.kill ctx Cause.poison.code 0).setCtxctl ctx true)
    | (s, some d) =>
      if s.refusesContext ctx d.1 d.2 then .next (s.setCtxctl ctx true)
      else
        let s := s.setCtxctl ctx false
        let s : State := if s.contexts.contains ctx then s else { s with contexts := s.contexts ++ [ctx] }
        .next (s.readyAll ctx)

/-- CTXCTL_KILL (R423, R435): a write of CTXCTL with OP = 2. -/
def execCtxctlKill (v : Word) (s : State) : Host.Outcome State Fault Refusal :=
  let ctx := (v.extractLsb' 0 12).toNat
  if !s.hostReady then .next s else .next ((s.stamp.kill ctx 0 0).setCtxctl ctx false)

/-- TFWD (R420, R423): a write through the configuration space. -/
def execTfwd (v : Word) (s : State) : Host.Outcome State Fault Refusal :=
  if !s.hostReady then .next s else .next (s.forward (v.extractLsb' 0 10).toNat)

/-- CKILL_READ (R423): a read clears V. -/
def execCkillRead (s : State) : Host.Outcome State Fault Refusal :=
  if !s.hostReady then .next s
  else .next { s with host := { s.host with ckill := s.host.ckill &&& 0x7FFFFFFFFFFFFFFF } }

end Sys2Proof.Machine
end

