-- ==== Sys2Proof/Machine/Power.lean ====
section
/-! DEFINITION. The power governor (R410 to R413, R445): grants of leave, withdrawals, renewals, and the
balance of the decks. -/

namespace Sys2Proof.Machine

/-- The latency band (R404). -/
def inBand (prio : Nat) : Bool := decide (112 ≤ prio)

/-! ## Deck imbalance (R413) -/

/-- The heavier deck: 0 for deck A, 1 for deck B. -/
def Governor.heavier (g : Governor) : Nat := if g.ib ≤ g.ia then 0 else 1

/-- The difference of the currents is above some thousandths of their sum. -/
def Governor.over' (g : Governor) (thousandths : Nat) : Bool :=
  decide (thousandths * (g.ia + g.ib) < 1000 * (max g.ia g.ib - min g.ia g.ib))

/-- The difference of the currents is below some thousandths of their sum, or both are 0. -/
def Governor.below (g : Governor) (thousandths : Nat) : Bool :=
  decide (1000 * (max g.ia g.ib - min g.ia g.ib) < thousandths * (g.ia + g.ib)) || (g.ia == 0 && g.ib == 0)

/-- The ballast of a deck. -/
def Governor.ballast (g : Governor) (deck : Nat) : Nat := if deck = 0 then g.ballastA else g.ballastB

/-- A request waits while others pass it: charged to the heavier deck, below the band, when ballast no longer
suffices (R413), or when MC_DECK withholds leave of its kind (R445). -/
def Governor.defers (g : Governor) (r : LeaveReq) : Bool :=
  !inBand r.prio
    && ((r.deck == some g.heavier && g.ballast (1 - g.heavier) == 60 && g.over' 40)
      || (g.deckHold.isSome && r.deck == g.deckHold))

/-! ## Withdrawal (R411) -/

/-- A stream whose leave is withdrawn is suspended, and goes on once leave is granted again (R411). -/
def State.pauseStream (s : State) (r : LeaveRef) (b : Bool) : State :=
  if (s.port r.core r.port).owner = some r.thr then s.updMemHead r.core r.port fun x => { x with paused := b } else s

/-- A withdrawal, at the moment of decision (R411): stamped; the attachment is displaced, an HVFACT stops at its
next boundary, a matrix-vector command pauses and a stream suspends, each asking again. -/
def State.withdraw (s : State) (h : LeaveHeld) : State :=
  let s := s.stamp
  match h.ref.kind with
  | .matt => (s.displace h.ref.thr).dropLeave h.ref
  | .hvfact => s.dropLeave h.ref
  | .mgemv => (s.dropLeave h.ref).askLeave h.ref 0 h.prio
  | .strm => ((s.dropLeave h.ref).askLeave h.ref 0 h.prio).pauseStream h.ref true
  | .xgo => s

/-- Holders below the band, but for exchanges: the lowest priority first, and of these the newest (R411). -/
def Governor.holders (g : Governor) (ok : LeaveHeld → Bool) : List LeaveHeld :=
  sortBy (fun a b => decide (a.prio < b.prio ∨ (a.prio = b.prio ∧ b.order ≤ a.order)))
    (g.grants.filter fun h => !inBand h.prio && h.ref.kind != .xgo && ok h)

/-- G, the charges granted, but for that of the holder that asks to renew. -/
def Governor.granted (g : Governor) (r : LeaveRef) : Nat :=
  ((g.grants.filter (·.ref != r)).map (·.charge)).foldl (· + ·) 0

/-- The charge of a request fits (R410). -/
def Governor.fits (g : Governor) (r : LeaveReq) : Bool :=
  decide (g.pm + g.granted r.ref + r.charge ≤ if inBand r.prio then 2400000 else 2250000)

/-- Withdraw until a request fits. -/
def State.makeFit (r : LeaveReq) : List LeaveHeld → State → State
  | [], s => s
  | h :: l, s => if s.gov.fits r then s else State.makeFit r l (s.withdraw h)

/-! ## Grants (R410 to R412) -/

/-- Requests in their order: priority, renewals first, then arrival (R410, R412). -/
def Governor.queue (g : Governor) : List LeaveReq :=
  sortBy (fun a b =>
    decide (b.prio < a.prio) || (a.prio == b.prio && (if a.renewal == b.renewal then decide (a.order ≤ b.order) else a.renewal))) g.reqs

/-- The engine of a member whose exchange has leave joins it (R388). -/
def State.xgoGranted (s : State) (gid : Nat) : State :=
  match s.group? gid with
  | none => s
  | some g =>
    match s.memberSeat gid g with
    | none => s
    | some w => (s.joinExchange w gid).xchSettle ((s.joinExchange w gid).xchAt w gid)

/-- Leave is granted to a request (R410, R412): stamped; a renewal takes the place of the grant that expired. -/
def State.grant (s : State) (r : LeaveReq) : State :=
  let s := (s.stamp).dropLeave r.ref
  let h : LeaveHeld := ⟨r.ref, r.charge, r.deck, r.prio, s.gov.order, s.dtime⟩
  let s : State := { s with gov := { s.gov with grants := s.gov.grants ++ [h], order := s.gov.order + 1 } }
  match r.ref.kind with
  | .xgo => s.xgoGranted r.ref.port
  | .strm => s.pauseStream r.ref false
  | _ => s

/-- LEAVE_GRANT (R410 to R413): the first request that is not deferred is granted when its charge fits; for one
of the band, leave below it is withdrawn until it does. -/
def execLeaveGrant (s : State) : Host.Outcome State Fault Refusal :=
  match s.gov.queue.find? fun r => !s.gov.defers r with
  | none => .next s
  | some r =>
    let s := if inBand r.prio then State.makeFit r (s.gov.holders fun _ => true) s else s
    if s.gov.fits r then .next (s.grant r) else .next s

/-- LEAVE_EXPIRY (R412): a grant 20 µs old expires: a renewal is queued, once; that of an exchange is granted. -/
def execLeaveExpiry (n : Nat) (s : State) : Host.Outcome State Fault Refusal :=
  match s.gov.grants[n]? with
  | none => .next s
  | some h =>
    let r : LeaveReq := ⟨h.ref, h.charge, h.deck, h.prio, s.gov.order, true, s.dtime⟩
    if s.dtime < h.at_ + 20000 ∨ s.gov.reqs.any (·.ref == h.ref) then .next s
    else if h.ref.kind = .xgo then .next (s.grant r)
    else .next { s with gov := { s.gov with reqs := s.gov.reqs ++ [r], order := s.gov.order + 1 } }

/-- RENEWAL_TIMEOUT (R412): a renewal that has waited 2 µs makes its holder pause as a withdrawal does, until it is
granted: it stays queued, in its place. -/
def execRenewalTimeout (n : Nat) (s : State) : Host.Outcome State Fault Refusal :=
  match s.gov.reqs[n]? with
  | none => .next s
  | some r =>
    if !r.renewal ∨ s.dtime < r.asked + 2000 then .next s
    else
      match s.gov.grants.find? (·.ref == r.ref) with
      | none => .next s
      | some h =>
        let t := s.withdraw h
        .next { t with gov := { t.gov with reqs := t.gov.reqs.filter (·.ref != r.ref) ++ [r] } }

/-! ## Currents (R413, R445) -/

/-- The ballast after a sample (R413): up by 5 A in the lighter deck above 4%, down below 2%. -/
def Governor.balance (g : Governor) : Governor :=
  if g.over' 40 then
    if g.heavier = 0 then { g with ballastB := min 60 (g.ballastB + 5) } else { g with ballastA := min 60 (g.ballastA + 5) }
  else if g.below 20 then { g with ballastA := g.ballastA - 5, ballastB := g.ballastB - 5 }
  else g

/-- MC_DECK (R444, R445): the machine check, and every leave below the band charged to the heavier deck is
withdrawn and withheld. -/
def State.deckCheck (s : State) : State :=
  let g := s.gov
  let d := g.heavier
  let info := (max g.ia g.ib - min g.ia g.ib) * 10000 / (g.ia + g.ib) % 2 ^ 16 + d * 2 ^ 16
  let s := s.machineCheck 0x63 (BitVec.ofNat 48 info)
  let s := (g.holders fun h => h.deck == some d).foldl State.withdraw s
  { s with gov := { s.gov with deckHold := some d, deckAt := s.dtime + 2000 } }

/-- DECK_CURRENT_SAMPLE (R413, R445): the currents of the last 2 µs, in milliamperes. -/
def execDeckCurrentSample (ia ib : Nat) (s : State) : Host.Outcome State Fault Refusal :=
  let g : Governor := { s.gov with ia := ia, ib := ib }.balance
  let g : Governor := if g.below 40 then { g with deckHold := none } else g
  let s : State := { s with gov := g }
  let s := if g.over' 55 then
      match g.holders fun h => h.deck == some g.heavier with
      | h :: _ => s.withdraw h
      | [] => s
    else s
  if g.over' 60 && decide (g.deckAt ≤ s.dtime) then .next s.deckCheck else .next s

end Sys2Proof.Machine
end

