-- ==== Sys2Proof/Machine/Repair.lean ====
section
/-! DEFINITION. Errors and repair (R436 to R449): scrubs, retries and lane tests, bond lanes, remap tables and
what a lost range kills, and the clearing of records and counters. -/

namespace Sys2Proof.Machine

/-! ## Lost ranges and channels (R442 to R444) -/

/-- INFO of MC_REMAP for a range (R444). -/
def Retired.info : Retired → Nat
  | .range v unit chan bank group =>
    (if v then 2 ^ 47 else 0) + unit % 256 + (if v then 0 else chan % 32 * 2 ^ 8) + bank % 16 * 2 ^ 13 + group % 4096 * 2 ^ 17
  | .channel stack chan => stack % 8 + chan % 32 * 2 ^ 3

/-- A range or channel is retired (R443): it reads as poisoned, the machine check is raised, a walk is due. -/
def State.retire (s : State) (r : Retired) (code : BitVec 8) (info : Nat) : State :=
  let s : State := { s with retired := s.retired ++ [r], remapWalks := s.remapWalks ++ [r] }
  s.machineCheck code (BitVec.ofNat 48 info)

/-- A scrub pass reads the three copies of the remap entries that serve a word (R442): a differing copy is
rewritten and counted; where all disagree the range is lost. -/
def State.checkRemaps (s : State) (word : Nat) : State :=
  let mine := s.remapErrors.filter (·.range.holds word)
  let s : State := { s with remapErrors := s.remapErrors.filter fun e => !e.range.holds word }
  mine.foldl (fun (s : State) e => if e.all then (s.count 8).retire e.range 0x62 e.range.info else s.count 7) s

/-- A scrub reads a word, corrects it, and writes back what it corrected (R436, R439). -/
def State.scrub (s : State) (word : Nat) : State :=
  let s := s.meet word
  ({ s with latent := s.latent.filter (·.word != wordOf word) } : State).checkRemaps word

/-- HBM_PATROL_SCRUB (R436). -/
def execHbmPatrolScrub (addr : Nat) (s : State) : Host.Outcome State Fault Refusal :=
  if inGlobal addr then .next (s.scrub addr) else .next s

/-- VAULT_PATROL_SCRUB (R439): the save area included. -/
def execVaultPatrolScrub (addr : Nat) (s : State) : Host.Outcome State Fault Refusal :=
  if vaultBase ≤ addr ∧ addr < vaultKey 192 0 then .next (s.scrub addr) else .next s

/-! ## Channels (R437, R438, R448) -/

/-- The spare lanes left on a channel's vertical bus (R437). -/
def State.tsvLeft (s : State) (stack chan : Nat) : Nat := (FMap.get? s.tsvSpares (32 * stack + chan)).getD 4

/-- A LINK log record, or its overflow (R448). -/
def State.linkLog (s : State) (stack chan : Nat) (write fail swap : Bool) (lane retries : Nat) : State :=
  if s.host.llog0.getLsbD 63 then { s with host := { s.host with llog0 := s.host.llog0 ||| 0x4000000000000000 } }
  else
    let v := 2 ^ 63 + bitsAt [(fail, 61), (swap, 60), (write, 51)] + stack % 8 * 2 ^ 57 + chan % 32 * 2 ^ 52
      + lane % 128 * 2 ^ 44 + s.tsvLeft stack chan * 2 ^ 41 + retries % 4 * 2 ^ 39
    { s with host := { s.host with llog0 := BitVec.ofNat 64 v } }

/-- Count several in a soft-error counter. -/
def State.countN (s : State) (i n : Nat) : State := (List.range n).foldl (fun s _ => State.count s i) s

/-- TSV_PARITY_RETRY (R437): a transfer that failed parity passes at its first, second or third retry. -/
def execTsvParityRetry (stack chan : Nat) (write : Bool) (retries : Nat) (s : State) : Host.Outcome State Fault Refusal :=
  if 8 ≤ stack ∨ 32 ≤ chan ∨ retries = 0 ∨ 3 < retries then .next s
  else .next ((s.countN 2 retries).linkLog stack chan write false false 127 retries)

/-- LANE_TEST (R438): after three failed retries a spare takes the place of the failing lane and the transfer is
sent once more; with no spare, or when that fails, MC_LINK: the data is poisoned and the channel retired. -/
def execLaneTest (stack chan : Nat) (write : Bool) (lane addr : Nat) (passed : Bool) (s : State) :
    Host.Outcome State Fault Refusal :=
  if 8 ≤ stack ∨ 32 ≤ chan ∨ 66 ≤ lane then .next s
  else
    let s := s.countN 2 3
    let left := s.tsvLeft stack chan
    let swap := decide (0 < left)
    let s : State := if swap then
        ({ s with tsvSpares := FMap.set s.tsvSpares (32 * stack + chan) (left - 1) } : State).count 3
      else s
    if swap && passed then .next (s.linkLog stack chan write false true lane 3)
    else
      let s := s.linkLog stack chan write true swap lane 3
      let s : State := if inGlobal addr then { s with poison := wordOf addr :: s.poison } else s
      .next (s.retire (.channel stack chan) 0x61 (stack + chan * 2 ^ 3 + lane * 2 ^ 8))

/-! ## Bond lanes (R439) -/

/-- Three corrections at one bit position of a port within 1 ms. -/
def BondCount.due (x : BondCount) : Bool :=
  match x.times with
  | [a, _, c] => decide (a ≤ c + 1000000)
  | _ => false

/-- BOND_LANE_SWAP (R439): the lane is swapped for a spare; with none left MC_SPARE is raised, and the bank is
served through its lateral port from then on. -/
def execBondLaneSwap (core bank lane : Nat) (s : State) : Host.Outcome State Fault Refusal :=
  let is (x : BondCount) : Bool := x.core == core && x.bank == bank && x.lane == lane
  let key := 16 * core + bank
  if !(s.bondCounts.any fun x => is x && x.due) || s.lateralBanks.contains key then .next s
  else
    let s : State := { s with bondCounts := s.bondCounts.filter (!is ·) }
    let left := (FMap.get? s.bondSpares key).getD 2
    if 0 < left then .next (({ s with bondSpares := FMap.set s.bondSpares key (left - 1) } : State).count 6)
    else
      let s : State := { s with lateralBanks := s.lateralBanks ++ [key] }
      .next (s.machineCheck 0x64 (BitVec.ofNat 48 (core % 256 + bank % 16 * 2 ^ 8 + lane % 256 * 2 ^ 12)))

/-! ## The walk for a lost range (R443) -/

/-- A 32 KiB frame holds a cell of a range, under either map (R443). -/
def Retired.inFrame (r : Retired) (f : Nat) : Bool :=
  (List.range 2048).any fun i =>
    let a := f * 0x8000 + 16 * i
    r.holds a || (inGlobal a && r.holds (stripedCell a))

/-- The unit of a range in the vaults. -/
def Retired.core : Retired → Option Nat
  | .range true core _ _ _ => some core
  | _ => none

/-- A leaf maps a frame that holds a cell of a range: GLOBAL, the per-core range, DOMAIN of this device, or, for
a range in a vault, the self window, through which its core reaches it (R443). -/
def Retired.inLeaf (r : Retired) (dev : Nat) (pte : Word) (shift : Nat) : Bool :=
  let k := Pte.kind pte
  let here := k == .global || k == .vault || (k == .domain && Pte.devid pte == dev)
  let base := match r.core with
    | some n => if inSelf (Pte.frame pte) then vaultKey n (Pte.frame pte - selfBase) else Pte.frame pte
    | none => Pte.frame pte
  here && (List.range (2 ^ (shift - 15))).any fun i => r.inFrame (base / 0x8000 + i)

/-- The entries of a table that are not 0, found through the memory that is listed. -/
def State.tableEntries (s : State) (tbl : Nat) : List Word :=
  let keys := (s.mem.filter fun c => decide (tbl ≤ c.1) && decide (c.1 < tbl + 0x8000)).map fun c => c.1 / 8 * 8
  keys.eraseDups.map fun k => BitVec.ofNat 64 (s.num k 8)

/-- A table, or one below it, maps a frame that holds a cell of a range. -/
def State.tableMaps (s : State) (r : Retired) : Nat → Nat → Nat → Bool
  | 0, _, _ => false
  | fuel + 1, lvl, tbl =>
    (s.tableEntries tbl).any fun e =>
      if !Pte.v e || Pte.malformed e lvl then false
      else if Pte.leaf e then r.inLeaf s.dev e (Pte.shift lvl)
      else s.tableMaps r fuel (lvl + 1) (Pte.frame e)

/-- The contexts that are resident or saved. -/
def State.knownContexts (s : State) : List Nat := (s.contexts ++ s.saved.map (·.lc.job.ctx)).eraseDups

/-- REMAP_POISON_WALK (R443): every context whose page tables map a frame of the lost range is killed. -/
def execRemapPoisonWalk (vault : Bool) (unit chan bank group : Nat) (s : State) : Host.Outcome State Fault Refusal :=
  let is (r : Retired) : Bool := r == .range vault unit chan bank group || (!vault && r == .channel unit chan)
  match s.remapWalks.find? is with
  | none => .next s
  | some r =>
    let hit := s.knownContexts.filter fun ctx => s.tableMaps r 3 0 (s.rootOf ctx)
    let s : State := { s with remapWalks := s.remapWalks.filter (· != r) }
    .next (hit.foldl (fun s ctx => State.kill s ctx Cause.poison.code 0) s)

/-! ## Clearing records and counters (R446 to R449) -/

/-- A record after a write (R446 to R448): writing 1 to V clears it and OVF. -/
def recordWritten (old v : Word) : Word := if v.getLsbD 63 then old &&& 0x3FFFFFFFFFFFFFFF else old

/-- MCREC0_CLEAR (R446). -/
def execMcrec0Clear (v : Word) (s : State) : Host.Outcome State Fault Refusal :=
  if !s.hostReady then .next s else .next { s with host := { s.host with mcrec0 := recordWritten s.host.mcrec0 v } }

/-- ALOG0_CLEAR (R447). -/
def execAlog0Clear (v : Word) (s : State) : Host.Outcome State Fault Refusal :=
  if !s.hostReady then .next s else .next { s with host := { s.host with alog0 := recordWritten s.host.alog0 v } }

/-- LLOG0_CLEAR (R448). -/
def execLlog0Clear (v : Word) (s : State) : Host.Outcome State Fault Refusal :=
  if !s.hostReady then .next s else .next { s with host := { s.host with llog0 := recordWritten s.host.llog0 v } }

/-- SECNT_CLEAR (R449). -/
def execSecntClear (i : Nat) (s : State) : Host.Outcome State Fault Refusal :=
  if !s.hostReady then .next s else .next { s with host := { s.host with secnt := s.host.secnt.set i 0 } }

end Sys2Proof.Machine
end

