-- ==== Sys2Proof/Machine/HostIf.lean ====
section
/-! DEFINITION. The host's side (R423, R450 to R459): the configuration space, loading kernels, attestation,
access through the HDM window, device reset and boot. -/

namespace Sys2Proof.Machine

/-! ## Registers of the configuration space (R452 to R458) -/

/-- The bits a write sets in a register that has no behaviour of its own (R81, R423, R453, R458). -/
def configMask (off : Nat) : Word :=
  if off = 0x28 ∨ off = 0x30 ∨ off = 0x38 then BitVec.allOnes 64
  else if off = 0x40 then 0x0000FFFFFFFF0001
  else if off = 0x48 then 0x0007FFFFFFFFFFFC
  else if off = 0x68 then 0x0000FFFFFFFF8000
  else if off = 0x70 then 0x1FFFF
  else if off = 0x78 then 0x0000FFFFFF000000
  else 0

/-- The fields of KLDCMD but GO (R458). -/
def HostRegs.kldFields (h : HostRegs) (v : Word) : HostRegs :=
  { h with kldUnl := v.getLsbD 62, kldKidx := v.extractLsb' 32 16, kldCtx := v.extractLsb' 0 12 }

/-- The fields of ATTCMD but GO and DONE (R457). -/
def HostRegs.attFields (h : HostRegs) (v : Word) : HostRegs :=
  { h with attMbox := v.getLsbD 61, attAddr := v &&& 0x0000FFFFFFFFFFC0 }

/-- The registers after a write of a register that has no behaviour of its own. -/
def HostRegs.written (h : HostRegs) (off : Nat) (v : Word) : HostRegs :=
  let x := v &&& configMask off
  if off = 0x10 then h.attFields v
  else if off = 0x20 then h.kldFields v
  else if off = 0x28 then { h with klddsc := x }
  else if off = 0x30 then { h with kldtxt := x }
  else if off = 0x38 then { h with kldvlt := x }
  else if off = 0x40 then { h with ctxtb := x }
  else if off = 0x48 then { h with rtvec := x }
  else if off = 0x58 then { h with ctxctlCtx := v.extractLsb' 0 12, ctxctlErr := h.ctxctlErr || v.extractLsb' 12 2 == 3 }
  else if off = 0x68 then { h with svpb := x }
  else if off = 0x70 then { h with svpn := x }
  else if off = 0x78 then { h with gtbase := x }
  else h

/-- An offset of ATTBUF (R452). -/
def inAttbuf (off : Nat) : Bool := decide (0x1000 ≤ off) && decide (off < 0x2000)

/-- SSCRI of a device thread (R424, R452). -/
def sscriOf (off : Nat) : Option Nat :=
  if 0x2000 ≤ off ∧ off < 0x2000 + 8 * 768 then some ((off - 0x2000) / 8) else none

/-- CONFIG_WRITE (R452): a write of 8 bytes, aligned; any other is discarded. Before READY only ATTCMD and ATTBUF
take one, ATTBUF from the end of step 1 of the boot (R457). A write of CTXCTL is an event (R415). -/
def execConfigWrite (off : Nat) (v : HostWrite) (s : State) : Host.Outcome State Fault Refusal :=
  if v.bytes ≠ 8 ∨ off % 8 ≠ 0 then .next s
  else if inAttbuf off then
    if !s.host.linked then .next s
    else .next { s with host := { s.host with attbuf := Memory.putAll s.host.attbuf ((keysFrom (off - 0x1000) 8).zip (leBytes 8 v.data.toNat)) } }
  else if !s.hostReady && off != 0x10 then .next s
  else
    match sscriOf off with
    | some n => .next (s.setThr n { s.thr n with sscr := v.data })
    | none =>
      let s := if off = 0x58 then s.stamp else s
      .next { s with host := s.host.written off v.data }

/-- BOOTST (R455). -/
def State.bootst (s : State) : Word :=
  let h := s.host
  BitVec.ofNat 64 (h.bootState.toNat + h.fwver.toNat * 2 ^ 16 + h.rate.toNat * 2 ^ 32 + h.mods.toNat * 2 ^ 36
    + h.hbm.toNat * 2 ^ 40 + h.ports.toNat * 2 ^ 51)

/-- QDESC of a slot as it reads (R399). -/
def Queue.read (q : Queue) : Word :=
  BitVec.ofNat 64 (bitsAt [(q.en, 63), (q.cflt, 56)] + q.nbad * 2 ^ 40 + q.qnum * 2 ^ 32 + q.qdlvl * 2 ^ 30 + q.ctx * 2 ^ 12 + q.prio)

/-- What a read of BAR2 gives (R452). -/
def bar2Read (_off _bytes : Nat) : Nat := 0

/-- What a register reads as through BAR0 (R452). -/
def State.configRead (s : State) (off : Nat) : Word :=
  let h := s.host
  if off % 8 ≠ 0 then 0
  else if off = 0 then s.bootst
  else if off = 0x10 then BitVec.ofNat 64 (bitsAt [(h.attDone, 62), (h.attMbox, 61)]) ||| h.attAddr
  else if inAttbuf off then if !h.linked then 0 else BitVec.ofNat 64 (leNat ((keysFrom (off - 0x1000) 8).map (Memory.get h.attbuf)))
  else if !s.hostReady then 0
  else if off = 0x08 then h.dmsig
  else if off = 0x18 then BitVec.ofNat 64 (bitsAt [(h.loading.isSome, 63)] + h.kldCode.toNat)
  else if off = 0x20 then BitVec.ofNat 64 (bitsAt [(h.kldUnl, 62)] + h.kldKidx.toNat * 2 ^ 32 + h.kldCtx.toNat)
  else if off = 0x28 then h.klddsc
  else if off = 0x30 then h.kldtxt
  else if off = 0x38 then h.kldvlt
  else if off = 0x40 then h.ctxtb
  else if off = 0x48 then h.rtvec
  else if off = 0x58 then BitVec.ofNat 64 (bitsAt [(h.ctxctlErr, 16)] + h.ctxctlCtx.toNat)
  else if off = 0x60 then h.ckill
  else if off = 0x68 then h.svpb
  else if off = 0x70 then h.svpn
  else if off = 0x78 then h.gtbase
  else if off = 0x80 then h.mcrec0
  else if off = 0x88 then h.mcrec1
  else if off = 0x90 then h.alog0
  else if off = 0x98 then h.alog1
  else if off = 0xA0 then h.llog0
  else if 0xC0 ≤ off ∧ off < 0xC0 + 80 then (h.secnt.getD ((off - 0xC0) / 8) 0).setWidth 64
  else if 0x10000 ≤ off ∧ off < 0x18000 then (s.queue ((off - 0x10000) / 8)).read
  else
    match sscriOf off with
    | some n => (s.thr n).sscr
    | none => 0

/-- What a read of a number of bytes gives through BAR0: 0 when they are not 8 (R452). -/
def State.bar0Read (s : State) (off bytes : Nat) : Word := if bytes = 8 then s.configRead off else 0

/-! ## Loading kernels (R39 to R41, R458, R459) -/

/-- KERNEL_LOAD (R458): a write of KLDCMD with GO = 1 and UNL = 0; GO is ignored while a load is under way. -/
def execKernelLoad (v : Word) (s : State) : Host.Outcome State Fault Refusal :=
  if !s.hostReady then .next s
  else
    let h := s.host.kldFields (v &&& ~~~(0x4000000000000000 : Word))
    let job : LoadJob := ⟨h.kldKidx.toNat, h.kldCtx.toNat, h.klddsc, h.kldtxt, h.kldvlt⟩
    let h : HostRegs := if h.loading.isSome then h else { h with loading := some job }
    .next { s with host := h }

/-- Read bytes for the loader (R83, R458): as no core, at S, in the context; none when a read faults; poison
kills the context (R440). -/
def State.loaderRead (s : State) (ctx : Nat) (va : Word) (n : Nat) : State × Option (List Byte) :=
  match s.placeOf ctx .s .plain .read va n with
  | (s, .error .poison) => (s.kill ctx Cause.poison.code 0, none)
  | (s, .error _) => (s, none)
  | (s, .ok l) =>
    match s.read (l.map (·.key)) with
    | (s, none) => (s.kill ctx Cause.poison.code 0, none)
    | (s, some b) => (s, some b)

/-- A field of some bytes. -/
def fieldOf (b : List Byte) (off n : Nat) : Nat := leNat ((b.drop off).take n)

/-- A loop entry that breaks R41: in use or not. -/
def loopBad (b : List Byte) (used : Bool) : Bool :=
  let kind := fieldOf b 0 1
  let src := fieldOf b 1 1
  if used then kind == 0 || decide (3 < kind) || decide (1 < src) || fieldOf b 2 2 != 0 || (src == 1 && fieldOf b 4 4 != 0)
  else fieldOf b 0 8 != 0

/-- A variant entry that breaks R41. -/
def variantBad (b : List Byte) : Bool :=
  let flags := fieldOf b 4 4
  decide (1 < flags) || (flags == 1 && fieldOf b 0 4 != 0)

/-- The entries of a table of a descriptor. -/
def entriesOf (b : List Byte) (size n : Nat) : List (List Byte) := (List.range n).map fun i => (b.drop (size * i)).take size

/-- The descriptor breaks R40 or R41. -/
def descBad (b : List Byte) : Bool :=
  fieldOf b 0 4 != 0x4B444641 || fieldOf b 4 2 != 1 || fieldOf b 6 2 != 0 || fieldOf b 0x1E 2 != 0
    || decide (4 < fieldOf b 0x1C 1) || fieldOf b 0x1D 1 == 0 || decide (16 < fieldOf b 0x1D 1)
    || (entriesOf (b.drop 0x20) 8 4).zipIdx.any fun e => loopBad e.1 (decide (e.2 < fieldOf b 0x1C 1))

/-- The entry point of the variant chosen (R39): the one of the device's signature, else the generic one; of two
such entries, which afas does not write (R38), the first (log entry 69). -/
def chooseVariant (dmsig : Nat) (vs : List (List Byte)) : Option Nat :=
  let keyed := vs.find? fun b => fieldOf b 4 4 == 0 && fieldOf b 0 4 == dmsig
  let generic := vs.find? fun b => fieldOf b 4 4 == 1
  (keyed <|> generic).map fun b => fieldOf b 8 4

/-- The kernel that a descriptor and an entry offset give (R40, R459). -/
def kernelOf (j : LoadJob) (b : List Byte) (code : Nat) : Kernel :=
  let level (e : List Byte) : LoopLevel := ⟨fieldOf e 0 1, if fieldOf e 1 1 = 1 then none else some (fieldOf e 4 4)⟩
  let vaultb := fieldOf b 0x14 4
  { kidx := j.kidx, ctx := j.ctx, entry := j.txt + BitVec.ofNat 64 code, folen := fieldOf b 0x0C 4, vregs := fieldOf b 0x10 1,
    skdepth := fieldOf b 0x11 1, casesorts := fieldOf b 0x12 2, vaultb := vaultb, parkb := fieldOf b 0x18 4,
    loops := (entriesOf (b.drop 0x20) 8 (fieldOf b 0x1C 1)).map level, vaultVa := j.vlt,
    vaultSize := if j.vlt = 0 then 0 else vaultb }

/-- What a load does, in the order of the checks of R459: CODE, and the kernel when it is loaded. A poisoned
descriptor kills the context (R440). -/
def State.loadKernel (s : State) (j : LoadJob) : State × BitVec 16 :=
  match s.descriptor j.ctx with
  | (s, none) => (s.kill j.ctx Cause.poison.code 0, 0x0A04)
  | (s, some d) =>
    if !d.1.getLsbD 0 then (s, 0x0A04)
    else if s.kernels.any (·.kidx == j.kidx) then (s, 0x0A03)
    else
      match s.loaderRead j.ctx j.dsc 64 with
      | (s, none) => (s, 0x0A02)
      | (s, some b) =>
        if descBad b then (s, 0x0A02)
        else
          let n := fieldOf b 0x1D 1
          match s.loaderRead j.ctx (j.dsc + 64) (16 * n) with
          | (s, none) => (s, 0x0A02)
          | (s, some v) =>
            let vs := entriesOf v 16 n
            if vs.any variantBad then (s, 0x0A02)
            else
              match chooseVariant (s.host.dmsig.toNat % 2 ^ 32) vs with
              | none => (s, 0x0A01)
              | some code => ({ s with kernels := s.kernels ++ [kernelOf j b code] }, 0)

/-- KERNEL_LOAD_DONE (R459): the load completes: CODE, and MSI-X vector 3. -/
def execKernelLoadDone (s : State) : Host.Outcome State Fault Refusal :=
  match s.host.loading with
  | none => .next s
  | some j =>
    let r := s.loadKernel j
    .next { r.1 with host := { r.1.host with loading := none, kldCode := r.2 }, msix := r.1.msix ++ [3] }

/-- A kernel index is in use: a packet naming it is queued or held, or a launch of it runs (R459). -/
def State.kidxUsed (s : State) (kidx : Nat) : Bool :=
  let names (p : BitVec 512) : Bool := Packet.ptype p == 1 && Packet.kidx p == kidx
  s.queues.any (fun q => q.2.fifo.any names || q.2.held.any names) || s.launches.any (·.kidx == kidx)

/-- KERNEL_UNLOAD (R459): a write of KLDCMD with GO = 1 and UNL = 1. -/
def execKernelUnload (v : Word) (s : State) : Host.Outcome State Fault Refusal :=
  if !s.hostReady then .next s
  else
    let h := s.host.kldFields (v ||| 0x4000000000000000)
    let s : State := { s with host := h }
    let code (s : State) (c : BitVec 16) : State := { s with host := { s.host with kldCode := c } }
    if h.loading.isSome then .next s
    else
      match s.descriptor h.kldCtx.toNat with
      | (s, none) => .next (code (s.kill h.kldCtx.toNat Cause.poison.code 0) 0x0A04)
      | (s, some d) =>
        if !d.1.getLsbD 0 then .next (code s 0x0A04)
        else if s.kidxUsed h.kldKidx.toNat then .next (code s 0x0A03)
        else .next (code { s with kernels := s.kernels.filter (·.kidx != h.kldKidx.toNat) } 0)

/-! ## Attestation (R457) -/

/-- ATTCMD_GO (R457): a write of ATTCMD with GO = 1: accepted from VERIFIED on, before READY only with MBOX = 1;
ignored while a report is under way or held. -/
def execAttcmdGo (v : Word) (s : State) : Host.Outcome State Fault Refusal :=
  let h := s.host.attFields v
  let verified := h.bootState != 0 && h.bootState != 8
  if !verified || (h.bootState != 3 && !h.attMbox) || h.attJob.isSome then .next { s with host := h }
  else .next { s with host := { h with attJob := some (h.attMbox, h.attAddr), attDone := false } }

/-- The report over a nonce, with its signature (R457). -/
def State.report (s : State) (nonce : List Byte) : List Byte :=
  let dm := if s.hostReady then s.host.dmsig.toNat else 0
  let body := leBytes 4 0x41544C4F ++ leBytes 2 1 ++ leBytes 2 (s.bootst.toNat % 2 ^ 16) ++ leBytes 4 dm ++ leBytes 4 0 ++ nonce
    ++ (List.range 4).flatMap fun i => leBytes 64 (s.host.measured.getD i 0).toNat
  body ++ leBytes 3309 (Config.attestSignature body).toNat

/-- The report is made: DONE and MSI-X vector 1. -/
def State.attested (s : State) : State :=
  { s with host := { s.host with attJob := none, attDone := true }, msix := s.msix ++ [1] }

/-- ATTESTATION_REPORT (R457): once the measurements are complete, the nonce is read and the report written, in
ATTBUF or in the GLOBAL buffer. -/
def execAttestationReport (s : State) : Host.Outcome State Fault Refusal :=
  match s.host.attJob with
  | none => .next s
  | some (mbox, addr) =>
    if s.host.bootState == 1 then .next s
    else if mbox then
      let r := s.report ((keysFrom 0x10 64).map (Memory.get s.host.attbuf))
      .next ({ s with host := { s.host with attbuf := Memory.putAll s.host.attbuf ((keysFrom 0 r.length).zip r) } } : State).attested
    else
      let a := addr.toNat
      if !inGlobal (a + 4095) then .fault (.noSuchPlace a)
      else
        match s.read (keysFrom (a + 0x10) 64) with
        | (s, none) =>
          let r := s.report (leBytes 64 (Config.poisonedNonce s.fresh).toNat)
          .next (s.tickFresh.write ((keysFrom a r.length).zip r)).attested
        | (s, some b) =>
          let r := s.report b
          .next (s.write ((keysFrom a r.length).zip r)).attested

/-! ## The HDM window (R451) -/

/-- HOST_CXL_MEM_ACCESS (R440, R451): a host access reaches GLOBAL memory under the plain map, once the HBM is
trained; a read of poison kills no context: its answer carries it. -/
def execHostCxlMemAccess (r : RemoteAccess) (s : State) : Host.Outcome State Fault Refusal :=
  if !s.hostReady || !inGlobal (r.addr + (r.bytes - 1)) then .next s
  else if r.write then
    .next ((s.write ((keysFrom r.addr r.bytes).zip (leBytes r.bytes r.data))).groupsWritten (keysFrom r.addr r.bytes))
  else let u := s.read (keysFrom r.addr r.bytes); .next (u.1.answered r.addr u.2)

/-! ## Reset and boot (R107, R442, R443, R454 to R456) -/

/-- A key of a vault. -/
def isVaultKey (a : Nat) : Bool := decide (vaultBase ≤ a) && decide (a < vaultKey 192 0)

/-- The published signature of the defect map (R456): the first four bytes of its digest, which M2 of the measurements
holds (R454), or 1 when they are 0. -/
def publishedSig (measured : List (BitVec 512)) : Word :=
  let d := (measured.getD 2 0).toNat % 2 ^ 32
  if d = 0 then 1 else BitVec.ofNat 64 d

/-- One step of the management core's boot (R454), from the package as it is then; what it found stays until the next
reset: UCIe trains; the firmware is verified, or STATE is FAIL_SIG; it takes its measurements; the remap tables are loaded, the stacks train, or STATE is FAIL_TRAIN, the vaults are
cleared, DMSIG is published and MSI-X vector 1 sent. A device that has booted or failed is as it was. -/
def State.boot (s : State) : State :=
  let h := s.host
  let p := s.pkg
  let goes (h : HostRegs) : State := { s with host := h }
  if !h.linked then goes { h with linked := true, mods := p.mods, rate := p.rate }
  else if h.bootState = 0 then goes (if p.keyOk && p.sigOk then { h with bootState := 1, fwver := p.fwver } else { h with bootState := 8 })
  else if h.bootState = 1 then goes { h with bootState := 2, measured := p.digests }
  else if h.bootState ≠ 2 then s
  else if p.hbm ≠ 0xFF then goes { h with bootState := 9, hbm := p.hbm }
  else
    { s with
      host := { h with bootState := 3, dmsig := publishedSig h.measured, hbm := p.hbm, ports := p.ports }
      mem := s.mem.filter fun c => !isVaultKey c.1
      poison := s.poison.filter (!isVaultKey ·)
      latent := s.latent.filter fun l => !isVaultKey l.word
      retired := [], remapErrors := [], remapWalks := [], msix := s.msix ++ [1] }

/-- A swap that a reset abandons leaves the frames and entries unchanged (R104): what has landed moves back,
SWLK clears (log entry 26). -/
def State.undoSwap (s : State) (w : Swap) : State :=
  let landed := (w.blocks.zipIdx.filter (·.1 == .landed)).map (·.2)
  let s := landed.foldl (fun (s : State) j =>
    let a := w.frameA + 4096 * j
    let b := w.frameB + 4096 * j
    s.transfer 4096 [(a, b), (b, a)]) s
  let clear (s : State) (k : Nat) : State := s.putNum k 8 (s.num k 8 - (if (s.num k 8).testBit 10 then 2 ^ 10 else 0))
  clear (clear s w.entryA) w.entryB

/-- The state a reset starts from (R454): every register as after reset; memory outside the device and HBM, the
time, the package and what is still to come stay. -/
def State.afterReset (s : State) : State :=
  let s := s.swaps.foldl State.undoSwap s
  { State.reset with
    agenda := s.agenda, dev := s.dev, dtime := s.dtime, dtOffset := s.dtOffset, fresh := s.fresh, mem := s.mem,
    poison := s.poison, latent := s.latent, pkg := s.pkg, msix := s.msix, outbox := s.outbox,
    gov := { Governor.reset with pm := s.gov.pm, ia := s.gov.ia, ib := s.gov.ib } }

/-- DEVICE_RESET (R107, R454). -/
def execDeviceReset (s : State) : Host.Outcome State Fault Refusal := .next s.afterReset.boot

end Sys2Proof.Machine
end

