-- ==== Sys2Proof/Machine/Dispatch.lean ====
section
/-! DEFINITION. One arm for each constructor of Instr: a direct call of its meaning. -/

namespace Sys2Proof.Machine

/-- The meaning of an instruction or of a step of another agent. -/
def exec (i : Instr) (s : State) : Host.Outcome State Fault Refusal :=
  match i with
  | .add f => Sys2Proof.Machine.execAdd f s
  | .sub f => Sys2Proof.Machine.execSub f s
  | .and f => Sys2Proof.Machine.execAnd f s
  | .or f => Sys2Proof.Machine.execOr f s
  | .xor f => Sys2Proof.Machine.execXor f s
  | .sll f => Sys2Proof.Machine.execSll f s
  | .srl f => Sys2Proof.Machine.execSrl f s
  | .sra f => Sys2Proof.Machine.execSra f s
  | .slt f => Sys2Proof.Machine.execSlt f s
  | .sltn f => Sys2Proof.Machine.execSltn f s
  | .min f => Sys2Proof.Machine.execMin f s
  | .max f => Sys2Proof.Machine.execMax f s
  | .minn f => Sys2Proof.Machine.execMinn f s
  | .maxn f => Sys2Proof.Machine.execMaxn f s
  | .mul f => Sys2Proof.Machine.execMul f s
  | .mulh f => Sys2Proof.Machine.execMulh f s
  | .mulhn f => Sys2Proof.Machine.execMulhn f s
  | .div f => Sys2Proof.Machine.execDiv f s
  | .divn f => Sys2Proof.Machine.execDivn f s
  | .rem f => Sys2Proof.Machine.execRem f s
  | .remn f => Sys2Proof.Machine.execRemn f s
  | .clz f => Sys2Proof.Machine.execClz f s
  | .ctz f => Sys2Proof.Machine.execCtz f s
  | .popc f => Sys2Proof.Machine.execPopc f s
  | .addi f => Sys2Proof.Machine.execAddi f s
  | .andi f => Sys2Proof.Machine.execAndi f s
  | .ori f => Sys2Proof.Machine.execOri f s
  | .xori f => Sys2Proof.Machine.execXori f s
  | .slti f => Sys2Proof.Machine.execSlti f s
  | .slli f => Sys2Proof.Machine.execSlli f s
  | .srli f => Sys2Proof.Machine.execSrli f s
  | .srai f => Sys2Proof.Machine.execSrai f s
  | .lui f => Sys2Proof.Machine.execLui f s
  | .auipc f => Sys2Proof.Machine.execAuipc f s
  | .jal f => Sys2Proof.Machine.execJal f s
  | .jalr f => Sys2Proof.Machine.execJalr f s
  | .loop f => Sys2Proof.Machine.execLoop f s
  | .fadd f => Sys2Proof.Machine.execFadd f s
  | .fsub f => Sys2Proof.Machine.execFsub f s
  | .fmul f => Sys2Proof.Machine.execFmul f s
  | .fdiv f => Sys2Proof.Machine.execFdiv f s
  | .fsqrt f => Sys2Proof.Machine.execFsqrt f s
  | .fma f => Sys2Proof.Machine.execFma f s
  | .fmin f => Sys2Proof.Machine.execFmin f s
  | .fmax f => Sys2Proof.Machine.execFmax f s
  | .fcmp f => Sys2Proof.Machine.execFcmp f s
  | .fcvt f => Sys2Proof.Machine.execFcvt f s
  | .fmv f => Sys2Proof.Machine.execFmv f s
  | .ldacq f => Sys2Proof.Machine.execLdacq f s
  | .strel f => Sys2Proof.Machine.execStrel f s
  | .amoadd f => Sys2Proof.Machine.execAmoadd f s
  | .amoswp f => Sys2Proof.Machine.execAmoswp f s
  | .amocas f => Sys2Proof.Machine.execAmocas f s
  | .amomin f => Sys2Proof.Machine.execAmomin f s
  | .amomax f => Sys2Proof.Machine.execAmomax f s
  | .amoand f => Sys2Proof.Machine.execAmoand f s
  | .amoor f => Sys2Proof.Machine.execAmoor f s
  | .ldb f => Sys2Proof.Machine.execLdb f s
  | .ldbn f => Sys2Proof.Machine.execLdbn f s
  | .ldh f => Sys2Proof.Machine.execLdh f s
  | .ldhn f => Sys2Proof.Machine.execLdhn f s
  | .ldw f => Sys2Proof.Machine.execLdw f s
  | .ldwn f => Sys2Proof.Machine.execLdwn f s
  | .ldd f => Sys2Proof.Machine.execLdd f s
  | .stb f => Sys2Proof.Machine.execStb f s
  | .sth f => Sys2Proof.Machine.execSth f s
  | .stw f => Sys2Proof.Machine.execStw f s
  | .std f => Sys2Proof.Machine.execStd f s
  | .beq f => Sys2Proof.Machine.execBeq f s
  | .bne f => Sys2Proof.Machine.execBne f s
  | .blt f => Sys2Proof.Machine.execBlt f s
  | .bge f => Sys2Proof.Machine.execBge f s
  | .bltn f => Sys2Proof.Machine.execBltn f s
  | .bgen f => Sys2Proof.Machine.execBgen f s
  | .vadd f => Sys2Proof.Machine.execVadd f s
  | .vsub f => Sys2Proof.Machine.execVsub f s
  | .vmul f => Sys2Proof.Machine.execVmul f s
  | .vmulh f => Sys2Proof.Machine.execVmulh f s
  | .vand f => Sys2Proof.Machine.execVand f s
  | .vor f => Sys2Proof.Machine.execVor f s
  | .vxor f => Sys2Proof.Machine.execVxor f s
  | .vsll f => Sys2Proof.Machine.execVsll f s
  | .vsrl f => Sys2Proof.Machine.execVsrl f s
  | .vsra f => Sys2Proof.Machine.execVsra f s
  | .vmin f => Sys2Proof.Machine.execVmin f s
  | .vmax f => Sys2Proof.Machine.execVmax f s
  | .vminn f => Sys2Proof.Machine.execVminn f s
  | .vmaxn f => Sys2Proof.Machine.execVmaxn f s
  | .vsadd f => Sys2Proof.Machine.execVsadd f s
  | .vssub f => Sys2Proof.Machine.execVssub f s
  | .vmerge f => Sys2Proof.Machine.execVmerge f s
  | .vaddScalar f => Sys2Proof.Machine.execVaddScalar f s
  | .vsubScalar f => Sys2Proof.Machine.execVsubScalar f s
  | .vmulScalar f => Sys2Proof.Machine.execVmulScalar f s
  | .vmulhScalar f => Sys2Proof.Machine.execVmulhScalar f s
  | .vandScalar f => Sys2Proof.Machine.execVandScalar f s
  | .vorScalar f => Sys2Proof.Machine.execVorScalar f s
  | .vxorScalar f => Sys2Proof.Machine.execVxorScalar f s
  | .vsllScalar f => Sys2Proof.Machine.execVsllScalar f s
  | .vsrlScalar f => Sys2Proof.Machine.execVsrlScalar f s
  | .vsraScalar f => Sys2Proof.Machine.execVsraScalar f s
  | .vminScalar f => Sys2Proof.Machine.execVminScalar f s
  | .vmaxScalar f => Sys2Proof.Machine.execVmaxScalar f s
  | .vminnScalar f => Sys2Proof.Machine.execVminnScalar f s
  | .vmaxnScalar f => Sys2Proof.Machine.execVmaxnScalar f s
  | .vsaddScalar f => Sys2Proof.Machine.execVsaddScalar f s
  | .vssubScalar f => Sys2Proof.Machine.execVssubScalar f s
  | .vmergeScalar f => Sys2Proof.Machine.execVmergeScalar f s
  | .vpopc f => Sys2Proof.Machine.execVpopc f s
  | .vclz f => Sys2Proof.Machine.execVclz f s
  | .vid f => Sys2Proof.Machine.execVid f s
  | .vmvs f => Sys2Proof.Machine.execVmvs f s
  | .vmvx f => Sys2Proof.Machine.execVmvx f s
  | .vfadd f => Sys2Proof.Machine.execVfadd f s
  | .vfsub f => Sys2Proof.Machine.execVfsub f s
  | .vfmul f => Sys2Proof.Machine.execVfmul f s
  | .vfma f => Sys2Proof.Machine.execVfma f s
  | .vfnma f => Sys2Proof.Machine.execVfnma f s
  | .vfdiv f => Sys2Proof.Machine.execVfdiv f s
  | .vfmin f => Sys2Proof.Machine.execVfmin f s
  | .vfmax f => Sys2Proof.Machine.execVfmax f s
  | .vfaddScalar f => Sys2Proof.Machine.execVfaddScalar f s
  | .vfsubScalar f => Sys2Proof.Machine.execVfsubScalar f s
  | .vfmulScalar f => Sys2Proof.Machine.execVfmulScalar f s
  | .vfmaScalar f => Sys2Proof.Machine.execVfmaScalar f s
  | .vfnmaScalar f => Sys2Proof.Machine.execVfnmaScalar f s
  | .vfdivScalar f => Sys2Proof.Machine.execVfdivScalar f s
  | .vfminScalar f => Sys2Proof.Machine.execVfminScalar f s
  | .vfmaxScalar f => Sys2Proof.Machine.execVfmaxScalar f s
  | .vfsqrt f => Sys2Proof.Machine.execVfsqrt f s
  | .vfabs f => Sys2Proof.Machine.execVfabs f s
  | .vfneg f => Sys2Proof.Machine.execVfneg f s
  | .vfexp2 f => Sys2Proof.Machine.execVfexp2 f s
  | .vflog2 f => Sys2Proof.Machine.execVflog2 f s
  | .vfrsq f => Sys2Proof.Machine.execVfrsq f s
  | .vfrcp f => Sys2Proof.Machine.execVfrcp f s
  | .vcvt f => Sys2Proof.Machine.execVcvt f s
  | .vcmpeq f => Sys2Proof.Machine.execVcmpeq f s
  | .vcmpne f => Sys2Proof.Machine.execVcmpne f s
  | .vcmplt f => Sys2Proof.Machine.execVcmplt f s
  | .vcmple f => Sys2Proof.Machine.execVcmple f s
  | .vcmpltn f => Sys2Proof.Machine.execVcmpltn f s
  | .vcmplen f => Sys2Proof.Machine.execVcmplen f s
  | .vfcmpeq f => Sys2Proof.Machine.execVfcmpeq f s
  | .vfcmplt f => Sys2Proof.Machine.execVfcmplt f s
  | .vfcmple f => Sys2Proof.Machine.execVfcmple f s
  | .vcmpeqScalar f => Sys2Proof.Machine.execVcmpeqScalar f s
  | .vcmpneScalar f => Sys2Proof.Machine.execVcmpneScalar f s
  | .vcmpltScalar f => Sys2Proof.Machine.execVcmpltScalar f s
  | .vcmpleScalar f => Sys2Proof.Machine.execVcmpleScalar f s
  | .vcmpltnScalar f => Sys2Proof.Machine.execVcmpltnScalar f s
  | .vcmplenScalar f => Sys2Proof.Machine.execVcmplenScalar f s
  | .vfcmpeqScalar f => Sys2Proof.Machine.execVfcmpeqScalar f s
  | .vfcmpltScalar f => Sys2Proof.Machine.execVfcmpltScalar f s
  | .vfcmpleScalar f => Sys2Proof.Machine.execVfcmpleScalar f s
  | .vslideup f => Sys2Proof.Machine.execVslideup f s
  | .vslidedn f => Sys2Proof.Machine.execVslidedn f s
  | .vrgath f => Sys2Proof.Machine.execVrgath f s
  | .vcmpr f => Sys2Proof.Machine.execVcmpr f s
  | .vredsum f => Sys2Proof.Machine.execVredsum f s
  | .vredmax f => Sys2Proof.Machine.execVredmax f s
  | .vredmin f => Sys2Proof.Machine.execVredmin f s
  | .vfredsum f => Sys2Proof.Machine.execVfredsum f s
  | .vfredmax f => Sys2Proof.Machine.execVfredmax f s
  | .vfredmin f => Sys2Proof.Machine.execVfredmin f s
  | .vargmax f => Sys2Proof.Machine.execVargmax f s
  | .vspsel f => Sys2Proof.Machine.execVspsel f s
  | .vconfl f => Sys2Proof.Machine.execVconfl f s
  | .vfcomb f => Sys2Proof.Machine.execVfcomb f s
  | .capp f => Sys2Proof.Machine.execCapp f s
  | .setvl f => Sys2Proof.Machine.execSetvl f s
  | .setvli f => Sys2Proof.Machine.execSetvli f s
  | .vld f => Sys2Proof.Machine.execVld f s
  | .vlds f => Sys2Proof.Machine.execVlds f s
  | .vldx f => Sys2Proof.Machine.execVldx f s
  | .vldt f => Sys2Proof.Machine.execVldt f s
  | .vst f => Sys2Proof.Machine.execVst f s
  | .vsts f => Sys2Proof.Machine.execVsts f s
  | .vstx f => Sys2Proof.Machine.execVstx f s
  | .vstt f => Sys2Proof.Machine.execVstt f s
  | .vldff f => Sys2Proof.Machine.execVldff f s
  | .vldv f => Sys2Proof.Machine.execVldv f s
  | .vstv f => Sys2Proof.Machine.execVstv f s
  | .vldxa f => Sys2Proof.Machine.execVldxa f s
  | .vstxr f => Sys2Proof.Machine.execVstxr f s
  | .vamoadd f => Sys2Proof.Machine.execVamoadd f s
  | .vamomin f => Sys2Proof.Machine.execVamomin f s
  | .vamomax f => Sys2Proof.Machine.execVamomax f s
  | .vamoswp f => Sys2Proof.Machine.execVamoswp f s
  | .fence f => Sys2Proof.Machine.execFence f s
  | .kand f => Sys2Proof.Machine.execKand f s
  | .kor f => Sys2Proof.Machine.execKor f s
  | .kxor f => Sys2Proof.Machine.execKxor f s
  | .knot f => Sys2Proof.Machine.execKnot f s
  | .kmov f => Sys2Proof.Machine.execKmov f s
  | .kffs f => Sys2Proof.Machine.execKffs f s
  | .kpopc f => Sys2Proof.Machine.execKpopc f s
  | .hvset f => Sys2Proof.Machine.execHvset f s
  | .hvrand f => Sys2Proof.Machine.execHvrand f s
  | .hvbind f => Sys2Proof.Machine.execHvbind f s
  | .hvperm f => Sys2Proof.Machine.execHvperm f s
  | .hvbund f => Sys2Proof.Machine.execHvbund f s
  | .hvmaj f => Sys2Proof.Machine.execHvmaj f s
  | .hvsim f => Sys2Proof.Machine.execHvsim f s
  | .hvclean f => Sys2Proof.Machine.execHvclean f s
  | .hvfact f => Sys2Proof.Machine.execHvfact f s
  | .hvstat f => Sys2Proof.Machine.execHvstat f s
  | .skset f => Sys2Proof.Machine.execSkset f s
  | .skfeed f => Sys2Proof.Machine.execSkfeed f s
  | .skest f => Sys2Proof.Machine.execSkest f s
  | .skstat f => Sys2Proof.Machine.execSkstat f s
  | .skclr f => Sys2Proof.Machine.execSkclr f s
  | .matt f => Sys2Proof.Machine.execMatt f s
  | .mdet f => Sys2Proof.Machine.execMdet f s
  | .mzero f => Sys2Proof.Machine.execMzero f s
  | .mma f => Sys2Proof.Machine.execMma f s
  | .mldb f => Sys2Proof.Machine.execMldb f s
  | .mst f => Sys2Proof.Machine.execMst f s
  | .mgemv f => Sys2Proof.Machine.execMgemv f s
  | .strm f => Sys2Proof.Machine.execStrm f s
  | .savail f => Sys2Proof.Machine.execSavail f s
  | .swait f => Sys2Proof.Machine.execSwait f s
  | .scancel f => Sys2Proof.Machine.execScancel f s
  | .ssusp f => Sys2Proof.Machine.execSsusp f s
  | .sresm f => Sys2Proof.Machine.execSresm f s
  | .vldp f => Sys2Proof.Machine.execVldp f s
  | .vstp f => Sys2Proof.Machine.execVstp f s
  | .vstc f => Sys2Proof.Machine.execVstc f s
  | .vldc f => Sys2Proof.Machine.execVldc f s
  | .cwait f => Sys2Proof.Machine.execCwait f s
  | .dpost f => Sys2Proof.Machine.execDpost f s
  | .dposta f => Sys2Proof.Machine.execDposta f s
  | .xtrim f => Sys2Proof.Machine.execXtrim f s
  | .xgo f => Sys2Proof.Machine.execXgo f s
  | .xwait f => Sys2Proof.Machine.execXwait f s
  | .xstat f => Sys2Proof.Machine.execXstat f s
  | .cset f => Sys2Proof.Machine.execCset f s
  | .csrrd f => Sys2Proof.Machine.execCsrrd f s
  | .csrwr f => Sys2Proof.Machine.execCsrwr f s
  | .csrset f => Sys2Proof.Machine.execCsrset f s
  | .csrclr f => Sys2Proof.Machine.execCsrclr f s
  | .trap f => Sys2Proof.Machine.execTrap f s
  | .tret f => Sys2Proof.Machine.execTret f s
  | .wfe f => Sys2Proof.Machine.execWfe f s
  | .sev f => Sys2Proof.Machine.execSev f s
  | .pause f => Sys2Proof.Machine.execPause f s
  | .tend f => Sys2Proof.Machine.execTend f s
  | .bjoin f => Sys2Proof.Machine.execBjoin f s
  | .bleave f => Sys2Proof.Machine.execBleave f s
  | .barr f => Sys2Proof.Machine.execBarr f s
  | .bwait f => Sys2Proof.Machine.execBwait f s
  | .barw f => Sys2Proof.Machine.execBarw f s
  | .btest f => Sys2Proof.Machine.execBtest f s
  | .waitc f => Sys2Proof.Machine.execWaitc f s
  | .qpost f => Sys2Proof.Machine.execQpost f s
  | .swappg f => Sys2Proof.Machine.execSwappg f s
  | .tlbinv f => Sys2Proof.Machine.execTlbinv f s
  | .savectx f => Sys2Proof.Machine.execSavectx f s
  | .tlbinvRetire => Sys2Proof.Machine.execTlbinvRetire s
  | .swapSubblockMove swap => Sys2Proof.Machine.execSwapSubblockMove swap s
  | .swapComplete swap => Sys2Proof.Machine.execSwapComplete swap s
  | .homeAtomic r => Sys2Proof.Machine.execHomeAtomic r s
  | .vamoswpOldValue thr => Sys2Proof.Machine.execVamoswpOldValue thr s
  | .clusterSpanPacket n => Sys2Proof.Machine.execClusterSpanPacket n s
  | .gatherResponse n => Sys2Proof.Machine.execGatherResponse n s
  | .streamDispatch core port => Sys2Proof.Machine.execStreamDispatch core port s
  | .streamElementGroup core port => Sys2Proof.Machine.execStreamElementGroup core port s
  | .streamComplete core port => Sys2Proof.Machine.execStreamComplete core port s
  | .streamStop core port => Sys2Proof.Machine.execStreamStop core port s
  | .portDisplace core port thr => Sys2Proof.Machine.execPortDisplace core port thr s
  | .attachmentReacquire thr => Sys2Proof.Machine.execAttachmentReacquire thr s
  | .matrixPass cluster => Sys2Proof.Machine.execMatrixPass cluster s
  | .tileWrite cluster => Sys2Proof.Machine.execTileWrite cluster s
  | .mgemvRow core port row => Sys2Proof.Machine.execMgemvRow core port row s
  | .factoringBufferTake core thr => Sys2Proof.Machine.execFactoringBufferTake core thr s
  | .collectivePacket p => Sys2Proof.Machine.execCollectivePacket p s
  | .arrivalReport p => Sys2Proof.Machine.execArrivalReport p s
  | .collectiveDeadline gid => Sys2Proof.Machine.execCollectiveDeadline gid s
  | .homeCombine gid home told => Sys2Proof.Machine.execHomeCombine gid home told s
  | .roundRelease gid told homes => Sys2Proof.Machine.execRoundRelease gid told homes s
  | .memberDead dev => Sys2Proof.Machine.execMemberDead dev s
  | .demandRow m => Sys2Proof.Machine.execDemandRow m s
  | .calendarDeadline gid => Sys2Proof.Machine.execCalendarDeadline gid s
  | .grantWrite gid told => Sys2Proof.Machine.execGrantWrite gid told s
  | .sheetStart gid sheet => Sys2Proof.Machine.execSheetStart gid sheet s
  | .exchangeBytes m => Sys2Proof.Machine.execExchangeBytes m s
  | .readyFlit m => Sys2Proof.Machine.execReadyFlit m s
  | .looseTailStart gid => Sys2Proof.Machine.execLooseTailStart gid s
  | .imposerHeartbeat gid heard => Sys2Proof.Machine.execImposerHeartbeat gid heard s
  | .standbyTakeover gid => Sys2Proof.Machine.execStandbyTakeover gid s
  | .leaveGrant => Sys2Proof.Machine.execLeaveGrant s
  | .leaveExpiry n => Sys2Proof.Machine.execLeaveExpiry n s
  | .renewalTimeout n => Sys2Proof.Machine.execRenewalTimeout n s
  | .deckCurrentSample ia ib => Sys2Proof.Machine.execDeckCurrentSample ia ib s
  | .launchPortWrite off size data => Sys2Proof.Machine.execLaunchPortWrite off size data s
  | .launchPacket slot => Sys2Proof.Machine.execLaunchPacket slot s
  | .waitcPacket slot => Sys2Proof.Machine.execWaitcPacket slot s
  | .signalPacket slot => Sys2Proof.Machine.execSignalPacket slot s
  | .setdetPacket slot => Sys2Proof.Machine.execSetdetPacket slot s
  | .drainPacket slot => Sys2Proof.Machine.execDrainPacket slot s
  | .markPacket slot => Sys2Proof.Machine.execMarkPacket slot s
  | .counterReread slot => Sys2Proof.Machine.execCounterReread slot s
  | .dispatch => Sys2Proof.Machine.execDispatch s
  | .preempt groups => Sys2Proof.Machine.execPreempt groups s
  | .quantumExpiry groups => Sys2Proof.Machine.execQuantumExpiry groups s
  | .preemptSave thr => Sys2Proof.Machine.execPreemptSave thr s
  | .restore => Sys2Proof.Machine.execRestore s
  | .unpark => Sys2Proof.Machine.execUnpark s
  | .ctxctlMakeResident v => Sys2Proof.Machine.execCtxctlMakeResident v s
  | .ctxctlKill v => Sys2Proof.Machine.execCtxctlKill v s
  | .tfwd v => Sys2Proof.Machine.execTfwd v s
  | .ckillRead => Sys2Proof.Machine.execCkillRead s
  | .qdescEnable slot v => Sys2Proof.Machine.execQdescEnable slot v s
  | .qdescDisable slot v => Sys2Proof.Machine.execQdescDisable slot v s
  | .mcrec0Clear v => Sys2Proof.Machine.execMcrec0Clear v s
  | .alog0Clear v => Sys2Proof.Machine.execAlog0Clear v s
  | .llog0Clear v => Sys2Proof.Machine.execLlog0Clear v s
  | .secntClear n => Sys2Proof.Machine.execSecntClear n s
  | .configWrite off v => Sys2Proof.Machine.execConfigWrite off v s
  | .kernelLoad v => Sys2Proof.Machine.execKernelLoad v s
  | .kernelUnload v => Sys2Proof.Machine.execKernelUnload v s
  | .kernelLoadDone => Sys2Proof.Machine.execKernelLoadDone s
  | .attcmdGo v => Sys2Proof.Machine.execAttcmdGo v s
  | .attestationReport => Sys2Proof.Machine.execAttestationReport s
  | .deviceReset => Sys2Proof.Machine.execDeviceReset s
  | .hostCxlMemAccess r => Sys2Proof.Machine.execHostCxlMemAccess r s
  | .hbmPatrolScrub addr => Sys2Proof.Machine.execHbmPatrolScrub addr s
  | .vaultPatrolScrub addr => Sys2Proof.Machine.execVaultPatrolScrub addr s
  | .tsvParityRetry stack chan write retries => Sys2Proof.Machine.execTsvParityRetry stack chan write retries s
  | .laneTest stack chan write lane addr passed => Sys2Proof.Machine.execLaneTest stack chan write lane addr passed s
  | .bondLaneSwap core bank lane => Sys2Proof.Machine.execBondLaneSwap core bank lane s
  | .remapPoisonWalk vault unit chan bank group => Sys2Proof.Machine.execRemapPoisonWalk vault unit chan bank group s
  | .remoteDomainAccess r => Sys2Proof.Machine.execRemoteDomainAccess r s
  | .dtimeDiscipline dtime offset => Sys2Proof.Machine.execDtimeDiscipline dtime offset s

end Sys2Proof.Machine
end

