-- ==== Sys2Proof/Machine/Step.lean ====
section
/-! DEFINITION. One step of the device, and the placing of an instruction where the next step fetches it. -/

namespace Sys2Proof.Machine

/-- The decoder as the turn of a thread uses it. -/
noncomputable def decodeWord (w : IWord) : Option Instr :=
  match decode w with
  | .ok i => some i
  | .error _ => none

/-- One step. -/
noncomputable def step (s : State) : Host.Outcome State Fault Refusal :=
  State.advance exec (State.turn decodeWord exec) State.boot s

/-! ## Placing an instruction (log entry 25) -/

/-- The virtual address at which the placed instruction is fetched. -/
def placedVa : Word := 0x80000

/-- The key of the placed instruction's first byte. -/
def placedKey : Nat := 0x40000

/-- The context table, the three tables of context 0 and the code, as keys and numbers of 8 bytes: CROOT, one
entry of each table, a leaf with V, R, W, X, U, A and D. -/
def placedTables : List (Nat × Nat) :=
  [(0x10000, 0x20001), (0x10008, 0), (0x20000, 0x28001), (0x28000, 0x30001), (0x30080, 0x4007F)]

/-- The keys that the fetch reads. -/
def placedKeys : List Nat := placedTables.flatMap (fun t => keysFrom t.1 8) ++ keysFrom placedKey 16

/-- The thread that fetches: it holds a logical core of context 0 at U level, at the placed instruction. -/
def HThread.placed (t : HThread) : HThread :=
  { t with occupied := true, stopAsked := none, stopped := false, fwd := false
           lc := { t.lc with pc := placedVa, level := .u, waitFor := .none, job := { t.lc.job with ctx := 0, priv := false } } }

/-- The device once the management core has gone through its boot (R454). -/
def State.booted (s : State) : State := s.boot.boot.boot.boot

/-- A booted device whose next step fetches, on the thread whose turn it is, the instruction of 32 bits `w`. -/
def State.withFetchWord (s : State) (nbits w : Nat) : State :=
  let s := s.booted
  let code := (keysFrom placedKey 16).zip (leBytes 16 (w % 2 ^ nbits))
  let words := placedKeys.map wordOf
  let t : State := { s with
    agenda := [], swaps := [], passes := s.passes.filter (·.thr != s.cur), retired := [], contexts := 0 :: s.contexts.filter (· != 0)
    mem := Memory.putAll s.mem (placedTables.flatMap (fun t => (keysFrom t.1 8).zip (leBytes 8 t.2)) ++ code)
    poison := s.poison.filter (!words.contains ·)
    latent := s.latent.filter fun l => !words.contains l.word
    tlb := s.tlb.filter fun e => !(e.core == s.core && e.ctx == 0)
    host := { s.host with ctxtb := 0x10001 } }
  (t.dropInsns t.core).setThr t.cur (t.thr t.cur).placed

end Sys2Proof.Machine
end

