-- ==== Sys2Proof/Safety.lean ====
section
/-! DEFINITION. The terms in which claims are stated: what a thread needs to issue an instruction, what an
instruction may change, the lists of instructions of one shape with the rule of each, and what a step keeps. -/

namespace Sys2Proof.Machine

/-! ## What a thread needs to issue -/

/-- No command of the thread has its pending token among these registers (R213). -/
def State.Free (s : State) (gs : List Reg) : Prop := s.pendingPort gs = none

/-- The state on which an instruction acts once it has read the registers that it names: the bytes of the
write streams whose tokens it reads are visible (R190, R196). -/
def State.seen (s : State) (gs : List Reg) : State := s.observe fun u => u.1 != 0 && gs.contains u.1

/-- A convoy-capable instruction, alone in its convoy, passes the checks of R78 and finds its registers ready. -/
structure State.Issues (s : State) (i : Instr) (x : Member) : Prop where
  alone : s.win = none
  member : s.memberOf i = some x
  arrived : s.lc.awaits x.groups = false
  passes : issueCheck s.lc none [x] = none
  free : s.Free x.gs
  goesOn : (s.thr s.cur).stopAsked = none

/-- An instruction that is no convoy member passes the checks of R78 and finds its registers ready. -/
structure State.Passes (s : State) (x : Member) : Prop where
  arrived : s.lc.awaits x.groups = false
  passes : issueCheck s.lc none [x] = none
  free : s.Free x.gs

/-! ## What an instruction may change -/

/-- Beside the logical core of the thread whose turn it is, and bytes that leave the data cache, nothing of
the device differs. -/
def State.SameDevice (s t : State) : Prop :=
  { t with threads := s.threads, dcache := s.dcache } = s ∧ (∀ x ∈ t.dcache, x ∈ s.dcache)
    ∧ (∀ n, n ≠ s.cur → t.thr n = s.thr n) ∧ { t.thr s.cur with lc := s.lc } = s.thr s.cur

/-- As `SameDevice`, but for memory with its errors, the TLBs and the free values of their replacement. -/
def State.SameButMemory (s t : State) : Prop :=
  { t with threads := s.threads, dcache := s.dcache, mem := s.mem, poison := s.poison, latent := s.latent, tlb := s.tlb,
           fresh := s.fresh, host := s.host, seq := s.seq, msix := s.msix, bondCounts := s.bondCounts } = s
    ∧ (∀ n, n ≠ s.cur → t.thr n = s.thr n) ∧ { t.thr s.cur with lc := s.lc } = s.thr s.cur

/-- Every byte of memory outside these keys reads as before. -/
def State.MemoryOutside (s t : State) (keys : List Nat) : Prop :=
  ∀ a, a ∉ keys → Memory.get t.mem a = Memory.get s.mem a

/-- Every g register but d is unchanged. -/
def LCore.OtherRegs (c e : LCore) (d : Reg) : Prop := ∀ r, r ≠ d → e.rd r = c.rd r

/-- Beside the g registers, the pc, FFLAGS and the tokens not yet read, nothing of the logical core differs. -/
def LCore.SameButScalar (c e : LCore) : Prop :=
  { e with g := c.g, pc := c.pc, fflags := c.fflags, unseen := c.unseen } = c

/-- Beside the vector and mask registers with their extents, the g registers, the pc, VL, VSTART, FFLAGS, old
values on their way and the tokens not yet read, nothing of the logical core differs. -/
def LCore.SameButVector (c e : LCore) : Prop :=
  { e with v := c.v, vext := c.vext, k := c.k, ksm := c.ksm, kext := c.kext, g := c.g, pc := c.pc, vl := c.vl,
           vstart := c.vstart, fflags := c.fflags, oldVals := c.oldVals, unseen := c.unseen } = c

/-! ## One rounding, told without the functions that perform it (R138, R141, R142) -/

/-- An exact magnitude, by how a fraction p/d compares with it. -/
abbrev Cut := Nat → Nat → Ordering

/-- The magnitude num/den. -/
def ratio (num den : Nat) : Cut := fun p d => compare (p * den) (num * d)

/-- The square root of num/den. -/
def root (num den : Nat) : Cut := fun p d => compare (p * p * den) (num * d * d)

/-- The magnitude m·2^e. -/
def dyadic (m : Nat) (e : Int) : Cut := ratio (m * 2 ^ e.toNat) (2 ^ (-e).toNat)

/-- How x halves of 2^q compare with a magnitude. -/
def Cut.halves (v : Cut) (x : Nat) (q : Int) : Ordering := v (x * 2 ^ q.toNat) (2 * 2 ^ (-q).toNat)

/-- 2^t is the greatest power of two that a magnitude reaches. -/
def Cut.Leads (v : Cut) (t : Int) : Prop := v.halves 2 t ≠ .gt ∧ v.halves 2 (t + 1) = .gt

/-- n steps of 2^q are the magnitude rounded under a mode (R141): to nearest with ties to even, toward zero, down, up. -/
def Cut.RoundsTo (v : Cut) (neg : Bool) (q : Int) (rm : BitVec 2) (n : Nat) : Prop :=
  let down : Prop := v.halves (2 * n) q ≠ .gt ∧ v.halves (2 * n + 2) q = .gt
  let up : Prop := v.halves (2 * n) q ≠ .lt ∧ (n = 0 ∨ v.halves (2 * n - 2) q = .lt)
  match rm.toNat with
  | 0 => v.halves (2 * n + 1) q ≠ .lt ∧ (n = 0 ∨ v.halves (2 * n - 1) q ≠ .gt)
      ∧ ((v.halves (2 * n + 1) q = .eq ∨ (n ≠ 0 ∧ v.halves (2 * n - 1) q = .eq)) → n % 2 = 0)
  | 1 => down
  | 2 => if neg then up else down
  | _ => if neg then down else up

/-- n steps of 2^q are beyond the largest finite value of a format (R138). -/
def Fmt.Beyond (f : Fmt) (n : Nat) (q : Int) : Prop :=
  ∃ m e, f.decode f.maxCode = .fin false m e ∧ (dyadic m e).halves (2 * n) q = .gt

/-- What one rounding of a magnitude that is not 0 gives in a format (R138, R142): `most` with the sign where it is
beyond the largest finite value, with OF and NX; else the finite code of the rounded value, with NX where it is
inexact, and UF where it is tiny after rounding as well. -/
def Fmt.Delivers (f : Fmt) (v : Cut) (neg : Bool) (rm : BitVec 2) (most : Nat) (out : Nat × BitVec 5) : Prop :=
  ∀ (t : Int) (n u : Nat), v.Leads t →
    let q := max (t - f.mb) (1 - f.bias - f.mb)
    v.RoundsTo neg q rm n → v.RoundsTo neg (t - f.mb) rm u →
    (f.Beyond n q → out = (f.signed neg most, fOF ||| fNX))
    ∧ (¬ f.Beyond n q → (∃ m e, f.decode out.1 = .fin neg m e ∧ (dyadic m e).halves (2 * n) q = .eq)
        ∧ (v.halves (2 * n) q = .eq → out.2 = 0)
        ∧ (v.halves (2 * n) q ≠ .eq → (dyadic 1 (1 - f.bias)).halves (2 * u) (t - f.mb) = .lt → out.2 = fUF ||| fNX)
        ∧ (v.halves (2 * n) q ≠ .eq → (dyadic 1 (1 - f.bias)).halves (2 * u) (t - f.mb) ≠ .lt → out.2 = fNX))

/-- The same for an arithmetic operation: an overflow gives infinity, or under a mode that rounds toward zero there
the largest finite value, as IEEE 754 prescribes (R141). -/
def Fmt.Computes (f : Fmt) (v : Cut) (neg : Bool) (rm : BitVec 2) (out : Nat × BitVec 5) : Prop :=
  f.Delivers v neg rm (if rm = 0 ∨ (rm = 2 ∧ neg = true) ∨ (rm = 3 ∧ neg = false) then f.infCode else f.maxCode) out

/-- The sum of two finite values, each a sign, a magnitude and an exponent: rounded once; an exact 0 keeps the sign of
two zeros of one sign, and else is −0 only when rounding down. -/
def Fmt.Sums (f : Fmt) (n1 : Bool) (m1 : Nat) (e1 : Int) (n2 : Bool) (m2 : Nat) (e2 : Int) (rm : BitVec 2)
    (out : Nat × BitVec 5) : Prop :=
  let e := min e1 e2
  let x := (if n1 then -1 else 1) * (m1 : Int) * 2 ^ (e1 - e).toNat + (if n2 then -1 else 1) * (m2 : Int) * 2 ^ (e2 - e).toNat
  (x ≠ 0 → f.Computes (dyadic x.natAbs e) (decide (x < 0)) rm out)
  ∧ (x = 0 → out = (f.signed (if n1 = n2 ∧ m1 = 0 ∧ m2 = 0 then n1 else decide (rm = 2)) 0, 0))

/-- A value narrowed to a floating target (R138): out of range it saturates with OF and NX and is marked. -/
def Fmt.Narrows (f : Fmt) (v : FVal) (rm : BitVec 2) (o : Narrowed) : Prop :=
  match v with
  | .nan => o = ⟨f.nan.getD f.maxCode, 0, true⟩
  | .inf neg => o = if f.inf then ⟨f.signed neg f.infCode, 0, false⟩ else ⟨f.signed neg f.maxCode, fOF ||| fNX, true⟩
  | .fin neg 0 _ => o = ⟨f.signed neg 0, 0, false⟩
  | .fin neg m e => f.Delivers (dyadic m e) neg rm f.maxCode (o.code, o.flags) ∧ (o.mark = true ↔ o.flags &&& fOF ≠ 0)

/-- A value converted to an integer of w bits (R138, R142): out of range, and a NaN, give the nearer end, a NaN the
largest, with NV and a mark; in range NX where it is inexact. -/
def FVal.Integer (v : FVal) (signed : Bool) (w : Nat) (rm : BitVec 2) (o : Narrowed) : Prop :=
  let lo : Int := if signed then -2 ^ (w - 1) else 0
  let hi : Int := if signed then 2 ^ (w - 1) - 1 else 2 ^ w - 1
  match v with
  | .nan => o = ⟨(hi % 2 ^ w).toNat, fNV, true⟩
  | .inf neg => o = ⟨((if neg then lo else hi) % 2 ^ w).toNat, fNV, true⟩
  | .fin neg m e => ∀ n, (dyadic m e).RoundsTo neg 0 rm n →
      let x : Int := if neg then -n else n
      (hi < x → o = ⟨(hi % 2 ^ w).toNat, fNV, true⟩) ∧ (x < lo → o = ⟨(lo % 2 ^ w).toNat, fNV, true⟩)
      ∧ (lo ≤ x → x ≤ hi → o = ⟨(x % 2 ^ w).toNat, if (dyadic m e).halves (2 * n) 0 = .eq then 0 else fNX, false⟩)

/-- An integer converted to a format: rounded once (R142). -/
def Fmt.FromInteger (f : Fmt) (x : Int) (rm : BitVec 2) (out : Nat × BitVec 5) : Prop :=
  (x = 0 → out = (0, 0)) ∧ (x ≠ 0 → f.Computes (dyadic x.natAbs 0) (decide (x < 0)) rm out)

/-- A value of a narrower format in a wider one: exact (R142). -/
def Fmt.Widens (f : Fmt) (v : FVal) (out : Nat × BitVec 5) : Prop :=
  out.2 = 0 ∧ match v with
  | .nan => out.1 = f.nan.getD f.maxCode
  | .inf neg => out.1 = f.signed neg f.infCode
  | .fin neg m e => ∃ m' e', f.decode out.1 = .fin neg m' e' ∧ (dyadic m e).halves (2 * m') e' = .eq

/-- An integer saturated to w bits: only marked where that changes it (R138, R142). -/
def Clamps (signed : Bool) (w : Nat) (x : Int) (o : Narrowed) : Prop :=
  let lo : Int := if signed then -2 ^ (w - 1) else 0
  let hi : Int := if signed then 2 ^ (w - 1) - 1 else 2 ^ w - 1
  o.code = (max lo (min hi x) % 2 ^ w).toNat ∧ o.flags = 0 ∧ (o.mark = true ↔ x < lo ∨ hi < x)

/-- The operations of a format on two codes and an addend follow IEEE 754 with one rounding (R130, R143, R257, R258). -/
def Fmt.Arithmetic (f : Fmt) (a b d : Nat) (rm : BitVec 2) : Prop :=
  let nan : Nat × BitVec 5 := (f.nanCode, 0)
  let invalid : Nat × BitVec 5 := (f.nanCode, fNV)
  let infinity (neg : Bool) : Nat × BitVec 5 := (f.signed neg f.infCode, 0)
  let zero (neg : Bool) : Nat × BitVec 5 := (f.signed neg 0, 0)
  let infinite (p : Bool) : Prop := (f.decode d = .nan → f.ffma false a b d rm = nan)
    ∧ (∀ n3, f.decode d = .inf n3 → f.ffma false a b d rm = if p = n3 then infinity p else invalid)
    ∧ ∀ n3 m3 e3, f.decode d = .fin n3 m3 e3 → f.ffma false a b d rm = infinity p
  ((f.decode a = .nan ∨ f.decode b = .nan) →
    f.fadd a b rm = nan ∧ f.fsub a b rm = nan ∧ f.fmul a b rm = nan ∧ f.fdiv a b rm = nan ∧ f.ffma false a b d rm = nan)
  ∧ (∀ n1 n2, f.decode a = .inf n1 → f.decode b = .inf n2 →
      f.fadd a b rm = (if n1 = n2 then infinity n1 else invalid) ∧ f.fsub a b rm = (if n1 = n2 then invalid else infinity n1)
      ∧ f.fmul a b rm = infinity (xor n1 n2) ∧ f.fdiv a b rm = invalid ∧ infinite (xor n1 n2))
  ∧ (∀ n1 n2 m2 e2, f.decode a = .inf n1 → f.decode b = .fin n2 m2 e2 →
      f.fadd a b rm = infinity n1 ∧ f.fsub a b rm = infinity n1 ∧ f.fdiv a b rm = infinity (xor n1 n2)
      ∧ f.fmul a b rm = (if m2 = 0 then invalid else infinity (xor n1 n2)) ∧ (m2 = 0 → f.ffma false a b d rm = invalid)
      ∧ (m2 ≠ 0 → infinite (xor n1 n2)))
  ∧ (∀ n1 n2 m1 e1, f.decode a = .fin n1 m1 e1 → f.decode b = .inf n2 →
      f.fadd a b rm = infinity n2 ∧ f.fsub a b rm = infinity (!n2) ∧ f.fdiv a b rm = zero (xor n1 n2)
      ∧ f.fmul a b rm = (if m1 = 0 then invalid else infinity (xor n1 n2)) ∧ (m1 = 0 → f.ffma false a b d rm = invalid)
      ∧ (m1 ≠ 0 → infinite (xor n1 n2)))
  ∧ (∀ n1 m1 e1 n2 m2 e2, f.decode a = .fin n1 m1 e1 → f.decode b = .fin n2 m2 e2 →
      f.Sums n1 m1 e1 n2 m2 e2 rm (f.fadd a b rm) ∧ f.Sums n1 m1 e1 (!n2) m2 e2 rm (f.fsub a b rm)
      ∧ (m1 * m2 = 0 → f.fmul a b rm = zero (xor n1 n2))
      ∧ (m1 * m2 ≠ 0 → f.Computes (dyadic (m1 * m2) (e1 + e2)) (xor n1 n2) rm (f.fmul a b rm))
      ∧ (m2 = 0 → f.fdiv a b rm = if m1 = 0 then invalid else (f.signed (xor n1 n2) f.infCode, fDZ))
      ∧ (m2 ≠ 0 → m1 = 0 → f.fdiv a b rm = zero (xor n1 n2))
      ∧ (m2 ≠ 0 → m1 ≠ 0 → f.Computes (ratio (m1 * 2 ^ (e1 - e2).toNat) (m2 * 2 ^ (e2 - e1).toNat)) (xor n1 n2) rm (f.fdiv a b rm))
      ∧ (f.decode d = .nan → f.ffma false a b d rm = nan)
      ∧ (∀ n3, f.decode d = .inf n3 → f.ffma false a b d rm = infinity n3)
      ∧ ∀ n3 m3 e3, f.decode d = .fin n3 m3 e3 → f.Sums (xor n1 n2) (m1 * m2) (e1 + e2) n3 m3 e3 rm (f.ffma false a b d rm))
  ∧ (f.decode a = .nan → f.fsqrt a rm = nan)
  ∧ (∀ n1, f.decode a = .inf n1 → f.fsqrt a rm = if n1 then invalid else infinity false)
  ∧ ∀ n1 m1 e1, f.decode a = .fin n1 m1 e1 →
      (m1 = 0 → f.fsqrt a rm = zero n1) ∧ (m1 ≠ 0 → n1 = true → f.fsqrt a rm = invalid)
      ∧ (m1 ≠ 0 → n1 = false → f.Computes (root (m1 * 2 ^ e1.toNat) (2 ^ (-e1).toNat)) false rm (f.fsqrt a rm))

/-- One value is below another; −0 and +0 are equal, and a NaN is below nothing (R258). -/
def FVal.Less (x y : FVal) : Prop :=
  match x, y with
  | .inf a, .inf b => a = true ∧ b = false
  | .inf a, .fin _ _ _ => a = true
  | .fin _ _ _, .inf b => b = false
  | .fin n1 m1 e1, .fin n2 m2 e2 =>
    (if n1 then -1 else 1) * (m1 : Int) * 2 ^ (e1 - min e1 e2).toNat < (if n2 then -1 else 1) * (m2 : Int) * 2 ^ (e2 - min e1 e2).toNat
  | _, _ => False

/-- FMIN, FMAX and FCMP of a format (R258, R292): −0 is the lesser of two zeros, a NaN loses to a number, two NaNs give the
canonical NaN; a compare with a NaN gives 0, and raises NV but for equality. -/
def Fmt.Orders (f : Fmt) (a b : Nat) : Prop :=
  let x := f.decode a
  let y := f.decode b
  (x = .nan → y = .nan → f.fmin a b = f.nanCode ∧ f.fmax a b = f.nanCode)
  ∧ (x = .nan → y ≠ .nan → f.fmin a b = b ∧ f.fmax a b = b) ∧ (x ≠ .nan → y = .nan → f.fmin a b = a ∧ f.fmax a b = a)
  ∧ (x.Less y → f.fmin a b = a ∧ f.fmax a b = b) ∧ (y.Less x → f.fmin a b = b ∧ f.fmax a b = a)
  ∧ (∀ n1 e1 n2 e2, x = .fin n1 0 e1 → y = .fin n2 0 e2 →
      f.fmin a b = (if n1 = false ∧ n2 = true then b else a) ∧ f.fmax a b = if n1 = true ∧ n2 = false then b else a)
  ∧ (x ≠ .nan → y ≠ .nan → ¬ x.Less y → ¬ y.Less x → (f.fmin a b = a ∨ f.fmin a b = b) ∧ (f.fmax a b = a ∨ f.fmax a b = b))
  ∧ ∀ n, let r := f.fcmp n a b
      ((x = .nan ∨ y = .nan) → r = (false, if n = 0 then 0 else fNV))
      ∧ (x ≠ .nan → y ≠ .nan → r.2 = 0
        ∧ (r.1 = true ↔ if n = 0 then ¬ x.Less y ∧ ¬ y.Less x else if n = 1 then x.Less y else ¬ y.Less x))

/-- 2 to the power of a value. -/
def twoTo (neg : Bool) (m : Nat) (e : Int) : Cut := fun p d =>
  let n := m * 2 ^ e.toNat
  let k := 2 ^ (-e).toNat
  if neg then compare (p ^ k * 2 ^ n) (d ^ k) else compare (p ^ k) (d ^ k * 2 ^ n)

/-- The magnitude of the logarithm to base 2 of num/den. -/
def logOf (num den : Nat) : Cut := fun p d =>
  if den ≤ num then compare (2 ^ p * den ^ d) (num ^ d) else compare (2 ^ p * num ^ d) (den ^ d)

/-- num/den differs from a magnitude by less than one part in 2^28. -/
def Cut.Near (v : Cut) (num den : Nat) : Prop :=
  v (num * (2 ^ 28 - 1)) (den * 2 ^ 28) = .lt ∧ v (num * (2 ^ 28 + 1)) (den * 2 ^ 28) = .gt

/-- VFEXP2, VFLOG2, VFRSQ and VFRCP on a code (R143): the special cases, and one rounding of the result. The root, the
reciprocal, a power of an integer and a logarithm of a power of 2 are exact; where the result is irrational, what is
rounded is within one part in 2^28 of it (log entry 15). -/
def Fmt.Functions (f : Fmt) (a : Nat) (rm : BitVec 2) : Prop :=
  let nan : Nat × BitVec 5 := (f.nanCode, 0)
  let invalid : Nat × BitVec 5 := (f.nanCode, fNV)
  let infinity (neg : Bool) : Nat × BitVec 5 := (f.signed neg f.infCode, 0)
  let pole (neg : Bool) : Nat × BitVec 5 := (f.signed neg f.infCode, fDZ)
  let zero (neg : Bool) : Nat × BitVec 5 := (f.signed neg 0, 0)
  let irrational (v : Cut) (neg : Bool) (out : Nat × BitVec 5) : Prop :=
    out.2.getLsbD 0 = true ∧ ∃ num den, 0 < num ∧ 0 < den ∧ v.Near num den ∧ f.Computes (ratio num den) neg rm out
  (f.decode a = .nan → f.fexp2 a rm = nan ∧ f.flog2 a rm = nan ∧ f.frsq a rm = nan ∧ f.frcp a rm = nan)
  ∧ (∀ n, f.decode a = .inf n → f.fexp2 a rm = (if n then zero false else infinity false)
      ∧ f.flog2 a rm = (if n then invalid else infinity false) ∧ f.frsq a rm = (if n then invalid else zero false) ∧ f.frcp a rm = zero n)
  ∧ ∀ n m e, f.decode a = .fin n m e →
    let num := m * 2 ^ e.toNat
    let den := 2 ^ (-e).toNat
    (m = 0 → f.flog2 a rm = pole true ∧ f.frsq a rm = pole n ∧ f.frcp a rm = pole n)
    ∧ (m ≠ 0 → n = true → f.flog2 a rm = invalid ∧ f.frsq a rm = invalid)
    ∧ (m ≠ 0 → f.Computes (ratio den num) n rm (f.frcp a rm))
    ∧ (m ≠ 0 → n = false → f.Computes (root den num) false rm (f.frsq a rm))
    ∧ (∀ k : Nat, num = k * den → f.Computes (dyadic 1 (if n then -(k : Int) else k)) false rm (f.fexp2 a rm))
    ∧ ((∀ k : Nat, num ≠ k * den) → irrational (twoTo n m e) false (f.fexp2 a rm))
    ∧ (∀ k : Nat, m = 2 ^ k → n = false → f.FromInteger ((k : Int) + e) rm (f.flog2 a rm))
    ∧ (m ≠ 0 → (∀ k : Nat, m ≠ 2 ^ k) → n = false → irrational (logOf num den) (decide (num < den)) (f.flog2 a rm))

/-- The halving of R144 over 2^j slots: two values combine, an empty slot passes the other through. -/
def halved {α : Type} (op : α → α → α) : Nat → (Nat → Option α) → Option α
  | 0, x => x 0
  | j + 1, x => halved op j fun i =>
    match x i, x (i + 2 ^ j) with
    | some a, some b => some (op a b)
    | some a, none => some a
    | none, b => b

/-! ## Scalar instructions by shape, with the value each gives to d -/

/-- d from a and b (R254, R255). -/
def registerRules (f : SF) : List (Instr × (Word → Word → Word)) :=
  [(.add f, fun a b => BitVec.ofNat 64 (a.toNat + b.toNat)),
   (.sub f, fun a b => BitVec.ofInt 64 (a.toNat - b.toNat)),
   (.and f, fun a b => a &&& b), (.or f, fun a b => a ||| b), (.xor f, fun a b => a ^^^ b),
   (.sll f, fun a b => BitVec.ofNat 64 (a.toNat * 2 ^ (b.toNat % 64))),
   (.srl f, fun a b => BitVec.ofNat 64 (a.toNat / 2 ^ (b.toNat % 64))),
   (.sra f, fun a b => BitVec.ofInt 64 (a.toInt / 2 ^ (b.toNat % 64))),
   (.slt f, fun a b => if a.toInt < b.toInt then 1 else 0),
   (.sltn f, fun a b => if a.toNat < b.toNat then 1 else 0),
   (.min f, fun a b => BitVec.ofInt 64 (min a.toInt b.toInt)),
   (.max f, fun a b => BitVec.ofInt 64 (max a.toInt b.toInt)),
   (.minn f, fun a b => BitVec.ofNat 64 (min a.toNat b.toNat)),
   (.maxn f, fun a b => BitVec.ofNat 64 (max a.toNat b.toNat)),
   (.mul f, fun a b => BitVec.ofInt 64 (a.toInt * b.toInt)),
   (.mulh f, fun a b => BitVec.ofInt 64 (a.toInt * b.toInt / 2 ^ 64)),
   (.mulhn f, fun a b => BitVec.ofNat 64 (a.toNat * b.toNat / 2 ^ 64)),
   (.div f, fun a b => if b.toInt = 0 then 0xFFFFFFFFFFFFFFFF else BitVec.ofInt 64 (a.toInt.tdiv b.toInt)),
   (.divn f, fun a b => if b.toNat = 0 then 0xFFFFFFFFFFFFFFFF else BitVec.ofNat 64 (a.toNat / b.toNat)),
   (.rem f, fun a b => if b.toInt = 0 then a else BitVec.ofInt 64 (a.toInt.tmod b.toInt)),
   (.remn f, fun a b => if b.toNat = 0 then a else BitVec.ofNat 64 (a.toNat % b.toNat))]

/-- d from a and the sign-extended immediate (R256). -/
def immediateRules (f : IF) : List (Instr × (Word → Int → Word)) :=
  [(.addi f, fun a n => BitVec.ofInt 64 (a.toNat + n)), (.andi f, fun a n => a &&& BitVec.ofInt 64 n),
   (.ori f, fun a n => a ||| BitVec.ofInt 64 n), (.xori f, fun a n => a ^^^ BitVec.ofInt 64 n),
   (.slti f, fun a n => if a.toInt < n then 1 else 0)]

/-- d from a and the shift amount (R256). -/
def shiftRules (f : HF) : List (Instr × (Word → Nat → Word)) :=
  [(.slli f, fun a n => BitVec.ofNat 64 (a.toNat * 2 ^ n)), (.srli f, fun a n => BitVec.ofNat 64 (a.toNat / 2 ^ n)),
   (.srai f, fun a n => BitVec.ofInt 64 (a.toInt / 2 ^ n))]

/-- The condition of a branch (R260). -/
def branchRules (f : BF) : List (Instr × (Word → Word → Prop)) :=
  [(.beq f, fun a b => a = b), (.bne f, fun a b => a ≠ b), (.blt f, fun a b => a.toInt < b.toInt),
   (.bge f, fun a b => b.toInt ≤ a.toInt), (.bltn f, fun a b => a.toNat < b.toNat),
   (.bgen f, fun a b => b.toNat ≤ a.toNat)]

/-- The floating operations on a and b: the operation of a format on two codes, under a rounding mode (R258). -/
def floatRules (f : FF) : List (Instr × (Fmt → Nat → Nat → BitVec 2 → Nat × BitVec 5)) :=
  [(.fadd f, Fmt.fadd), (.fsub f, Fmt.fsub), (.fmul f, Fmt.fmul), (.fdiv f, Fmt.fdiv),
   (.fmin f, fun g a b _ => (g.fmin a b, 0)), (.fmax f, fun g a b _ => (g.fmax a b, 0))]

/-- The scalar instructions that name registers only: their destination, and the registers that they name. -/
def scalarShape : Instr → Option (Reg × List Reg)
  | .add f | .sub f | .and f | .or f | .xor f | .sll f | .srl f | .sra f | .slt f | .sltn f | .min f | .max f
  | .minn f | .maxn f | .mul f | .mulh f | .mulhn f | .div f | .divn f | .rem f | .remn f => some (f.d, [f.d, f.a, f.b])
  | .clz f | .ctz f | .popc f => some (f.d, [f.d, f.a])
  | .addi f | .andi f | .ori f | .xori f | .slti f => some (f.d, [f.d, f.a])
  | .slli f | .srli f | .srai f => some (f.d, [f.d, f.a])
  | .lui f | .auipc f | .jal f => some (f.d, [f.d])
  | .loop f => some (f.a, [f.a])
  | .beq f | .bne f | .blt f | .bge f | .bltn f | .bgen f => some (0, [f.a, f.b])
  | .fadd f | .fsub f | .fmul f | .fdiv f | .fmin f | .fmax f | .fma f => some (f.d, [f.d, f.a, f.b])
  | .fsqrt f | .fmv f | .fcvt f => some (f.d, [f.d, f.a])
  | .fcmp f => some (f.d, [f.d, f.a, f.b])
  | _ => none

/-- The registers that a scalar instruction names, beside the CSR instructions: those of `scalarShape`, JALR, the loads,
the stores and the atomics. A pending token among them holds it (R213). -/
def tokenRegs (i : Instr) : Option (List Reg) :=
  match i with
  | .jalr f | .ldb f | .ldbn f | .ldh f | .ldhn f | .ldw f | .ldwn f | .ldd f | .stb f | .sth f | .stw f | .std f => some [f.d, f.a]
  | .ldacq f | .strel f | .amoadd f | .amoswp f | .amocas f | .amomin f | .amomax f | .amoand f | .amoor f => some [f.d, f.a, f.b]
  | i => (scalarShape i).map (·.2)

/-- What a pending token among the registers that an instruction names does to it (R200, R209, R213): it waits, for its
port where another thread owns it, or receives the fault recorded in the command; no register changes. -/
def State.TokenHolds (s : State) (i : Instr) (gs : List Reg) : Prop :=
  ∀ (p : Nat) (x : Cmd), s.pendingPort gs = some (p, x) →
    (s.reclaim p = none → exec i s = .next (s.setLc { s.lc with waitFor := .port p }))
    ∧ (∀ u f, s.reclaim p = some u → x.fault = some f →
        ∃ v : State, exec i s = .next (v.deliver ⟨f.cause, f.addr, 0, s.lc.pc, s.lc.vstart⟩) ∧ { v.lc with displaced := s.lc.displaced } = s.lc
          ∧ v.mem = s.mem)
    ∧ ∀ u, s.reclaim p = some u → x.fault = none →
        ∃ t, exec i s = .next t ∧ { t.lc with displaced := s.lc.displaced, waitFor := s.lc.waitFor } = s.lc
          ∧ t.lc.waitFor = .other ∧ t.mem = s.mem

/-- The scalar instructions that may raise flags: the floating ones but FMIN, FMAX and FMV (R257 to R259). -/
def mayRaise : Instr → Bool
  | .fadd _ | .fsub _ | .fmul _ | .fdiv _ | .fma _ | .fsqrt _ | .fcmp _ | .fcvt _ => true
  | _ => false

/-- Some sorts of the Case can be read: each lies in the own vault, translated, not held and free of poison (R320). -/
def State.SortsRead (s : State) (l : List Nat) : Prop := ∃ (v : State) (m : List (Nat × Nat)), State.readSorts l s = (v, .ok m)

/-- Words of 8 bytes are stored in order from an address upward, each at the place that its address then translates to. -/
def State.StoresAll (s : State) (va : Word) (words : List (List Byte)) (t : State) : Prop :=
  match words with
  | [] => t = s
  | w :: l => ∃ (u : State) (p : List ByteAt), s.span .plain .write va 8 = (u, .ok p)
      ∧ (u.store u.core p w).StoresAll (va + 8) l t

/-! ## The checks of a convoy (R78, R140, R235 to R243, R286) -/

/-- Some registers of one list of runs are among those of another. -/
def RunsMeet (p q : List (Nat × Nat)) : Prop := ∃ g ∈ p, ∃ h ∈ q, g.1 < h.1 + h.2 ∧ h.1 < g.1 + g.2

/-- A whole-result member writes what another member reads or writes (R240). -/
def Member.Clashes (w o : Member) : Prop :=
  w.whole = true ∧ (RunsMeet w.vw (o.reads ++ o.vw) ∨ (∃ k ∈ w.kw, k ∈ o.kr ∨ k ∈ o.kw) ∨ ∃ g ∈ w.gw, g ≠ 0 ∧ (g ∈ o.gr ∨ g ∈ o.gw))

/-- Another member reads or writes a mask that only this one may: its own, or, when it can mark, the one of SATK, which
another that can mark writes (R140). -/
def Member.Guards (c : LCore) (x o : Member) : Prop :=
  (∃ k ∈ x.only.toList, k ∈ o.kr ∨ k ∈ o.kw)
    ∨ c.satk.getLsbD 3 = true ∧ x.marks = true
      ∧ ((c.satk.extractLsb' 0 3).toNat ∈ o.kr ∨ (c.satk.extractLsb' 0 3).toNat ∈ o.kw ∨ o.marks = true)

/-- Member k of a convoy fails check n of R78: 4 VTYPE_ILL, 5 GROUP_ALIGN, 6 CONVOY, 7 OVERLAP. `b` is the place at which
fetching found the formation broken. -/
def Fails (c : LCore) (b : Option Nat) (xs : List Member) (n k : Nat) (x : Member) : Prop :=
  (n = 4 ∧ x.ill = true)
    ∨ (n = 5 ∧ ((∃ g ∈ x.groups, g.1 % g.2 ≠ 0 ∨ c.job.vregs < g.1 + g.2) ∨ ∃ r ∈ x.counters, r % Vtype.gm c.vtype ≠ 0))
    ∨ (n = 6 ∧ (b = some k
        ∨ (∃ p ∈ x.pipes, (if p = .fma then 2 else 1) < ((xs.take (k + 1)).filter fun y => y.pipes.contains p).length)
        ∨ ∃ y ∈ xs.zipIdx, y.2 ≠ k ∧ (x.Clashes y.1 ∨ y.1.Clashes x)))
    ∨ (n = 7 ∧ ((x.own = true ∧ RunsMeet x.vw x.vr) ∨ x.bad = true ∨ ∃ y ∈ xs.zipIdx, y.2 ≠ k ∧ (x.Guards c y.1 ∨ y.1.Guards c x)))

/-! ## Vector results -/

/-- The places of a window: from VSTART to VL − 1, and active under the mask (R7, R288). -/
def LCore.Written (c : LCore) (m : Bool) (i : Nat) : Prop := c.vstart.toNat ≤ i ∧ i < c.vl ∧ c.active m i = true

/-- A value of w bits as its container holds it: at 6 bits, bits [7:6] are copies of bit [5] (R134). -/
def contained (w v : Nat) : Nat := if w = 6 then wrap 8 (signedOf 6 v) else v % 2 ^ w

/-- Of the group at register r, at elements of w bits, element i of `lim` becomes the value that `new` relates
to it, the others stay; a register where no element below VL lies is unchanged. -/
def LCore.Elements (c e : LCore) (r w lim : Nat) (new : Nat → Option Nat) : Prop :=
  (∀ i, i < lim → e.elem r (Vtype.containerOf w) i
      = match new i with
        | some v => contained w v
        | none => c.elem r (Vtype.containerOf w) i)
    ∧ ∀ n, n < r ∨ r * 16384 + c.vl * Vtype.containerOf w ≤ n * 16384 → e.vreg n = c.vreg n

/-- A convoy of one completes (R241): the pc moves to the next word, VSTART clears, VL stays. -/
def LCore.Completes (c e : LCore) : Prop := e.pc = c.pc + 4 ∧ e.vstart = 0 ∧ e.vl = c.vl

/-- The instruction completes on s in a state where beside the vector registers of its group nothing of its
logical core differs but FFLAGS, which gain `flags`. -/
def State.VectorResult (s : State) (i : Instr) (r w lim : Nat) (new : Nat → Option Nat) (flags : BitVec 5) : Prop :=
  ∃ t, exec i s = .next t ∧ s.SameDevice t ∧ s.lc.SameButVector t.lc ∧ s.lc.Completes t.lc
    ∧ s.lc.Elements t.lc r w lim new ∧ (∀ g, t.lc.rd g = s.lc.rd g) ∧ t.lc.k = s.lc.k ∧ t.lc.ksm = s.lc.ksm
    ∧ t.lc.oldVals = s.lc.oldVals ∧ t.lc.fflags = s.lc.fflags ||| flags

/-- The instruction completes on s in a state where mask register k takes `new` at its bits from VSTART to VL − 1,
and beside it nothing differs but FFLAGS, which gain `flags`. -/
def State.MaskResult (s : State) (i : Instr) (k : Nat) (new : Nat → Option Bool) (flags : BitVec 5) : Prop :=
  ∃ t, exec i s = .next t ∧ s.SameDevice t ∧ s.lc.SameButVector t.lc ∧ s.lc.Completes t.lc
    ∧ (∀ e, e < 4096 → t.lc.kbit k e = match new e with
        | some b => b
        | none => s.lc.kbit k e)
    ∧ (∀ j, j < 9 → j ≠ k → t.lc.kreg j = s.lc.kreg j)
    ∧ (∀ g, t.lc.rd g = s.lc.rd g) ∧ t.lc.v = s.lc.v
    ∧ t.lc.oldVals = s.lc.oldVals ∧ t.lc.fflags = s.lc.fflags ||| flags

/-- The instruction completes on s in a state where register d takes a value, and beside it nothing differs
but FFLAGS, which gain `flags`. -/
def State.RegisterResult (s : State) (i : Instr) (d : Reg) (v : Word) (flags : BitVec 5) : Prop :=
  ∃ t, exec i s = .next t ∧ s.SameDevice t ∧ s.lc.SameButVector t.lc ∧ s.lc.Completes t.lc
    ∧ (d ≠ 0 → t.lc.rd d = v) ∧ s.lc.OtherRegs t.lc d ∧ t.lc.v = s.lc.v
    ∧ t.lc.k = s.lc.k ∧ t.lc.ksm = s.lc.ksm ∧ t.lc.oldVals = s.lc.oldVals ∧ t.lc.fflags = s.lc.fflags ||| flags

/-- A value for the elements that an element-wise instruction writes. -/
noncomputable def LCore.whenWritten {α : Type} (c : LCore) (m : Bool) (g : Nat → α) (i : Nat) : Option α :=
  open Classical in if c.Written m i then some (g i) else none

/-- The flags that the written elements raise together. -/
def LCore.flagsOver (c : LCore) (m : Bool) (g : Nat → BitVec 5) : BitVec 5 :=
  (c.activeIn m c.vstart.toNat c.vl).foldl (fun a i => a ||| g i) 0

/-- The element e of the vector source s1, and of s2, of a V-format instruction. -/
def LCore.x1 (c : LCore) (f : VF) (e : Nat) : Nat := c.val f.s1.toNat c.sew e
/-- The element e of the vector source s2. -/
def LCore.x2 (c : LCore) (f : VF) (e : Nat) : Nat := c.val f.s2.toNat c.sew e
/-- The element e of the destination as it stood. -/
def LCore.xd (c : LCore) (f : VF) (e : Nat) : Nat := c.val f.d.toNat c.sew e

/-- The integer operations of R290 on elements of w bits: the form with a vector s2, the form with a scalar. -/
def integerRules (f : VF) : List (Instr × Instr × (Nat → Nat → Nat → Nat)) :=
  [(.vadd f, .vaddScalar f, fun w x y => (x + y) % 2 ^ w),
   (.vsub f, .vsubScalar f, fun w x y => wrap w ((x : Int) - y)),
   (.vmul f, .vmulScalar f, fun w x y => x * y % 2 ^ w),
   (.vmulh f, .vmulhScalar f, fun w x y => wrap w (signedOf w x * signedOf w y / 2 ^ w)),
   (.vand f, .vandScalar f, fun _ x y => x &&& y), (.vor f, .vorScalar f, fun _ x y => x ||| y),
   (.vxor f, .vxorScalar f, fun _ x y => x ^^^ y),
   (.vsll f, .vsllScalar f, fun w x y => x * 2 ^ (y % w) % 2 ^ w), (.vsrl f, .vsrlScalar f, fun w x y => x / 2 ^ (y % w)),
   (.vsra f, .vsraScalar f, fun w x y => wrap w (signedOf w x / 2 ^ (y % w))),
   (.vmin f, .vminScalar f, fun w x y => wrap w (min (signedOf w x) (signedOf w y))),
   (.vmax f, .vmaxScalar f, fun w x y => wrap w (max (signedOf w x) (signedOf w y))),
   (.vminn f, .vminnScalar f, fun _ x y => min x y), (.vmaxn f, .vmaxnScalar f, fun _ x y => max x y),
   (.vsadd f, .vsaddScalar f, fun w x y => wrap w (max (-2 ^ (w - 1)) (min (2 ^ (w - 1) - 1) (signedOf w x + signedOf w y)))),
   (.vssub f, .vssubScalar f, fun w x y => wrap w (max (-2 ^ (w - 1)) (min (2 ^ (w - 1) - 1) (signedOf w x - signedOf w y))))]

/-- The floating operations of R292 on x, y and z: the form with a vector s2, the form with a scalar. -/
def floatingRules (f : VF) : List (Instr × Instr × (Fmt → Nat → Nat → Nat → BitVec 2 → Nat × BitVec 5)) :=
  [(.vfadd f, .vfaddScalar f, fun g x y _ rm => g.fadd x y rm), (.vfsub f, .vfsubScalar f, fun g x y _ rm => g.fsub x y rm),
   (.vfmul f, .vfmulScalar f, fun g x y _ rm => g.fmul x y rm), (.vfdiv f, .vfdivScalar f, fun g x y _ rm => g.fdiv x y rm),
   (.vfma f, .vfmaScalar f, fun g x y z rm => g.ffma false x y z rm),
   (.vfnma f, .vfnmaScalar f, fun g x y z rm => g.ffma true x y z rm),
   (.vfmin f, .vfminScalar f, fun g x y _ _ => (g.fmin x y, 0)), (.vfmax f, .vfmaxScalar f, fun g x y _ _ => (g.fmax x y, 0))]

/-- The floating operations of R293 on x. -/
def unaryFloatRules (f : VF) : List (Instr × (Fmt → Nat → BitVec 2 → Nat × BitVec 5)) :=
  [(.vfsqrt f, Fmt.fsqrt), (.vfabs f, fun g x _ => (if (g.decode x).isNan then g.nanCode else x % 2 ^ (g.w - 1), 0)),
   (.vfneg f, fun g x _ => (if (g.decode x).isNan then g.nanCode else (x + 2 ^ (g.w - 1)) % 2 ^ g.w, 0)),
   (.vfexp2 f, Fmt.fexp2), (.vflog2 f, Fmt.flog2), (.vfrsq f, Fmt.frsq), (.vfrcp f, Fmt.frcp)]

/-- The integer compares of R295: the form with a vector s2, the form with a scalar. -/
def compareRules (f : VF) : List (Instr × Instr × (Nat → Nat → Nat → Bool)) :=
  [(.vcmpeq f, .vcmpeqScalar f, fun _ x y => decide (x = y)), (.vcmpne f, .vcmpneScalar f, fun _ x y => decide (x ≠ y)),
   (.vcmplt f, .vcmpltScalar f, fun w x y => decide (signedOf w x < signedOf w y)),
   (.vcmple f, .vcmpleScalar f, fun w x y => decide (signedOf w x ≤ signedOf w y)),
   (.vcmpltn f, .vcmpltnScalar f, fun _ x y => decide (x < y)), (.vcmplen f, .vcmplenScalar f, fun _ x y => decide (x ≤ y))]

/-- The floating compares of R295: code 0 equal, 1 less, 2 less or equal. -/
def floatCompareRules (f : VF) : List (Instr × Instr × Nat) :=
  [(.vfcmpeq f, .vfcmpeqScalar f, 0), (.vfcmplt f, .vfcmpltScalar f, 1), (.vfcmple f, .vfcmpleScalar f, 2)]

/-- Mask logic (R296). -/
def maskRules (f : VF) : List (Instr × (Bool → Bool → Bool)) :=
  [(.kand f, fun a b => a && b), (.kor f, fun a b => a || b), (.kxor f, fun a b => xor a b), (.knot f, fun a _ => !a),
   (.kmov f, fun a _ => a)]

/-! ## Memory formats (R131 to R138) and places (R132, R134, R156, R163) -/

/-- A value as a load writes it in a format: rounded once (R130, R137, R141). -/
def Fmt.Rounds (f : Fmt) (v : FVal) (rm : BitVec 2) (out : Nat × BitVec 5) : Prop :=
  match v with
  | .nan => out = (f.nanCode, 0)
  | .inf neg => out = (f.signed neg f.infCode, 0)
  | .fin neg 0 _ => out = (f.signed neg 0, 0)
  | .fin neg m e => f.Computes (dyadic m e) neg rm out

/-- The value of an element of an E2M1B block, from its code, the scale and the special byte (R132). -/
def blockElement (code scale special : Nat) : FVal :=
  let v : FVal := if code = 0 then .fin false 0 0 else if code = 8 then Fmt.e4m3.decode (special % 128) else Fmt.e2m1.decode code
  match if scale = 255 then .nan else v with
  | .fin n m e => .fin n m (e + ((scale : Int) - 127))
  | v => v

/-- What a load gives an element that starts at a bit of its bytes (R131, R132, R137); in E2M1B its bytes are its code
byte, the scale and the special byte. -/
def MemFmt.Loads (f : MemFmt) (t : Word) (rm : BitVec 2) (bit : Nat) (b : List Byte) (out : Nat × BitVec 5) : Prop :=
  let n := leNat b / 2 ^ bit
  let signed (w : Nat) : Prop := out = (wrap (Vtype.sew t) (signedOf w n), 0)
  let unsigned (w : Nat) : Prop := out = (n % 2 ^ w, 0)
  let value (v : FVal) : Prop := (Vtype.fmt t).Rounds v rm out
  match f with
  | .raw => unsigned (Vtype.sew t)
  | .i4 => signed 4
  | .i6 => signed 6
  | .i8 => signed 8
  | .i16 => signed 16
  | .n4 => unsigned 4
  | .n6 => unsigned 6
  | .n8 => unsigned 8
  | .n16 => unsigned 16
  | .e4m3 => value (Fmt.e4m3.decode (n % 2 ^ 8))
  | .e5m2 => value (Fmt.e5m2.decode (n % 2 ^ 8))
  | .e3m2 => value (Fmt.e3m2.decode (n % 2 ^ 6))
  | .e2m3 => value (Fmt.e2m3.decode (n % 2 ^ 6))
  | .bf16 => value (Fmt.bf16.decode (n % 2 ^ 16))
  | .fp16 => value (Fmt.fp16.decode (n % 2 ^ 16))
  | .e2m1b => value (blockElement ((b.getD 0 0).toNat / 2 ^ bit % 16) (b.getD 1 0).toNat (b.getD 2 0).toNat)

/-- What a store makes of a register element (R137, R138), but in E2M1B, where the block decides (`EncodesBlock`). -/
def MemFmt.Stores (f : MemFmt) (t : Word) (rm : BitVec 2) (v : Nat) (o : Narrowed) : Prop :=
  let sew := Vtype.sew t
  let signed (w : Nat) : Prop := Clamps true w (signedOf sew v) o
  let unsigned (w : Nat) : Prop := Clamps false w (v % 2 ^ sew : Nat) o
  let value (g : Fmt) : Prop := g.Narrows ((Vtype.fmt t).decode v) rm o
  match f with
  | .raw => o = ⟨v % 2 ^ sew, 0, false⟩
  | .i4 => signed 4
  | .i6 => signed 6
  | .i8 => signed 8
  | .i16 => signed 16
  | .n4 => unsigned 4
  | .n6 => unsigned 6
  | .n8 => unsigned 8
  | .n16 => unsigned 16
  | .e4m3 => value .e4m3
  | .e5m2 => value .e5m2
  | .e3m2 => value .e3m2
  | .e2m3 => value .e2m3
  | .bf16 => if sew = 16 then o = ⟨v % 2 ^ 16, 0, false⟩ else value .bf16
  | .fp16 => value .fp16
  | .e2m1b => True

/-- Halfway between two values of E2M1 or E4M3, all multiples of 2^-9. -/
def between (a b : FVal) : FVal :=
  let steps (v : FVal) : Int :=
    match v with
    | .fin n m e => (if n then -1 else 1) * (m : Int) * 2 ^ (e + 9).toNat
    | _ => 0
  .fin (decide (steps a + steps b < 0)) (steps a + steps b).natAbs (-10)

/-- The block that EncodeBlock gives to the values of 32 elements, none where one is not active (R133): its scale, the
least that its magnitudes fit under; the special byte, the greatest positive value in E4M3; and each element, rounded
once to the ordinary values and the special one, which is no candidate where it is an ordinary value too (log entry 79). -/
def EncodesBlock (x : List (Option FVal)) (rm : BitVec 2) (b : Block) : Prop :=
  let scale := (b.bytes.getD 16 0).toNat
  let special := (b.bytes.getD 17 0).toNat
  let up : Int := (scale : Int) - 127
  let code (j : Nat) : Nat := (b.bytes.getD (j / 2) 0).toNat / 16 ^ (j % 2) % 16
  let gets (j c : Nat) (flags : BitVec 5) (mark : Bool) : Prop :=
    code j = c ∧ b.flags.getD j 0 = flags ∧ b.marks.getD j false = mark
  let active (v : FVal) : Prop := some v ∈ x
  let zero : FVal := .fin false 0 0
  let V := Fmt.e4m3.decode special
  let value (c : Nat) : FVal := if c = 8 then V else Fmt.e2m1.decode c
  let same (v w : FVal) : Prop := ¬ v.Less w ∧ ¬ w.Less v
  let candidate (c : Nat) : Prop := c < 16 ∧ (c = 8 → zero.Less V ∧ ∀ d, d < 16 → d ≠ 8 → ¬ same (value d) V)
  b.bytes.length = 18
  ∧ (active .nan → scale = 255 ∧ special = 0 ∧ ∀ j, j < 32 → gets j 0 0 (x.getD j none).isSome)
  ∧ (¬ active .nan → scale ≤ 254
    ∧ ((∀ v, active v → ∃ n e, v = .fin n 0 e) → scale = 127)
    ∧ ((∃ n, active (.inf n)) → scale = 254)
    ∧ ((∀ n, ¬ active (.inf n)) → (∃ n m e, active (.fin n m e) ∧ m ≠ 0) →
        (scale < 254 → ∀ n m e, active (.fin n m e) → (dyadic m e).halves 12 up ≠ .lt)
        ∧ (0 < scale → ∃ n m e, active (.fin n m e) ∧ (dyadic m e).halves 12 (up - 1) = .lt))
    ∧ ((∀ v, active v → ¬ zero.Less v) → special = 0)
    ∧ (∀ v, active v → zero.Less v → (∀ w, active w → ¬ v.Less w) →
        match v with
        | .fin _ m e => ((dyadic m (e - up)).halves 896 0 = .lt → special = 0x7E)
            ∧ ((dyadic m (e - up)).halves 896 0 ≠ .lt → ∃ flags, Fmt.e4m3.Delivers (dyadic m (e - up)) false rm 0x7E (special, flags))
        | _ => special = 0x7E)
    ∧ (∀ j, j < 32 → x.getD j none = none → gets j 0 0 false)
    ∧ ∀ j v, j < 32 → x.getD j none = some v →
      let y := v.scale (-up)
      let c := code j
      let six : FVal := .fin false 6 0
      let above : Prop := six.Less y ∧ V.Less y
      let below : Prop := y.Less (.fin true 6 0)
      let floor : Prop := ¬ y.Less (value c) ∧ ∀ d, candidate d → ¬ y.Less (value d) → ¬ (value c).Less (value d)
      let ceiling : Prop := ¬ (value c).Less y ∧ ∀ d, candidate d → ¬ (value d).Less y → ¬ (value d).Less (value c)
      let nearest : Prop := ∀ d, candidate d → d ≠ c →
        let half := between (value c) (value d)
        ((value c).Less (value d) → ¬ half.Less y) ∧ ((value d).Less (value c) → ¬ y.Less half)
        ∧ (same half y → c ≠ 8 ∧ (d ≠ 8 → c % 2 = 0))
      (above → six.Less V → gets j 8 (fOF ||| fNX) true) ∧ (above → ¬ six.Less V → gets j 7 (fOF ||| fNX) true)
      ∧ (below → gets j 15 (fOF ||| fNX) true)
      ∧ (¬ above → ¬ below → candidate c ∧ b.marks.getD j false = false ∧ (same (value c) y → b.flags.getD j 0 = 0)
        ∧ (¬ same (value c) y → b.flags.getD j 0 = fNX ∧ (∀ d, candidate d → ¬ same (value d) y)
          ∧ match rm.toNat with
            | 0 => nearest
            | 1 => (y.Less zero → ceiling) ∧ (¬ y.Less zero → floor)
            | 2 => floor
            | _ => ceiling)))

/-- Where element e of an access lies: the runs of its bytes, and the bit at which it starts in them (R132, R134, R156,
R159, R163). A point of a shape record that is out of range lies nowhere. -/
def VMemOp.Lies (o : VMemOp) (c : LCore) (e : Nat) : Prop :=
  let n := o.fmt.width c.sew
  let at_ (base : Word) (runs : List (Nat × Nat)) (bit : Nat) : Prop :=
    ∃ x, o.elemAt c e = some x ∧ x.runs = runs.map (fun r => (base + BitVec.ofNat 64 r.1, r.2)) ∧ o.bitOf c e = bit
  let row (base : Word) (k : Nat) : Prop :=
    if o.fmt = .e2m1b then
      at_ base (if o.load then [(18 * (k / 32) + k % 32 / 2, 1), (18 * (k / 32) + 16, 2)] else [(18 * (k / 32), 18)]) (4 * (k % 2))
    else if n = 4 then at_ base [(k / 2, 1)] (4 * (k % 2))
    else if n = 6 then at_ base [(3 * (k / 4), 3)] (6 * (k % 4))
    else at_ base [(k * (n / 8), n / 8)] 0
  match o.mode with
  | .unit => row o.base e
  | .strided st => o.fmt ≠ .e2m1b → at_ (o.base + BitVec.ofNat 64 e * st) [(0, n / 8)] 0
  | .indexed x => o.fmt ≠ .e2m1b → at_ (o.base + BitVec.ofNat 64 (c.val x c.sew e)) [(0, n / 8)] 0
  | .shape y =>
    let i (k : Nat) : Int := (e / ((List.range k).map y.ext').foldl (· * ·) 1 % y.ext' k : Nat) + y.start' k
    let out : Prop := ∃ k, k < y.rank ∧ (i k < 0 ∨ y.ext' k ≤ i k)
    let start := (List.range y.rank).foldl (fun a k => if k = 0 then a else a + BitVec.ofInt 64 (i k) * y.stride' k) (o.base + y.e0)
    (out → o.elemAt c e = none)
    ∧ (¬ out → 1 ≤ y.rank → if o.fmt = .e2m1b ∨ n = 4 ∨ n = 6 then row start (i 0).toNat
        else at_ (start + BitVec.ofInt 64 (i 0) * y.stride' 0) [(0, n / 8)] 0)

/-! ## Streams (R207) -/

/-- n points of a read stream land one after another (R207): the element of the bytes of memory at the place that its
cursor then translates the point to, or FILL where the point is out of range. -/
def State.Lands (core : Nat) : Nat → State → Cmd → State → Cmd → Prop
  | 0, s, x, t, y => t = s ∧ y = x
  | n + 1, s, x, t, y =>
    let c := x.view (s.thr x.owner).lc
    match x.shape.elemAt (Vtype.sew x.vt) true 0 x.mem with
    | none => State.Lands core n s { x with mem := x.mem + 1, buf := x.buf ++ [⟨some (fillValue x.shape x.vt), 0⟩] } t y
    | some a => ∃ (u : State) (z : Option TlbEntry) (l : List ByteAt) (r : Nat × BitVec 5),
        State.cursorRuns core (s.streamWho core x) .read a.runs s x.xlat = (u, z, .ok l)
        ∧ x.shape.fmt.Loads x.vt c.frm (x.op.bitOf c x.mem) (l.map fun b => Memory.get u.mem b.key) r
        ∧ State.Lands core n u { x with xlat := z, mem := x.mem + 1, buf := x.buf ++ [⟨some r.1, r.2⟩] } t y

/-- n elements of a write stream in an element format go one after another (R135, R207): the code that was pushed into
the bits of its element, at the place that its cursor then translates the point to; a skip and a point out of range
write nothing. -/
def State.Writes (core : Nat) : Nat → State → Cmd → State → Cmd → Prop
  | 0, s, x, t, y => t = s ∧ y = x
  | n + 1, s, x, t, y =>
    match x.buf.head?.bind (·.val), x.shape.elemAt (Vtype.sew x.vt) false 0 x.mem with
    | some v, some a => ∃ (u w : State) (z : Option TlbEntry) (l : List ByteAt),
        State.cursorRuns core (s.streamWho core x) .write a.runs s x.xlat = (u, z, .ok l)
        ∧ { w with mem := u.mem, unreach := u.unreach } = u
        ∧ (let ks := l.map (·.key)
          let k := x.shape.fmt.width (Vtype.sew x.vt)
          let old := leNat (ks.map (Memory.get u.mem))
          let new := if x.shape.fmt.dense (Vtype.sew x.vt)
            then old % 2 ^ a.bit + v % 2 ^ k * 2 ^ a.bit + old / 2 ^ (a.bit + k) * 2 ^ (a.bit + k) else v
          (ks.length ≤ 3 ∨ x.shape.fmt.dense (Vtype.sew x.vt) = false → w.mem = Memory.putAll u.mem (ks.zip (leBytes ks.length new)))
          ∧ State.Writes core n w { x with xlat := z, mem := x.mem + 1, buf := x.buf.drop 1, wrote := x.wrote ++ ks } t y)
    | _, _ => State.Writes core n s { x with mem := x.mem + 1, buf := x.buf.drop 1 } t y

/-! ## Dot products and tile rows (R145, R146, R359) -/

/-- The p of R145: the exact sum of products of decoded values, rounded once to FP32. Products of integers are never −0. -/
def SumsTo (ints : Bool) (l : List (FVal × FVal)) (p : Nat × BitVec 5) : Prop :=
  let zeroInf (x y : FVal) : Prop := ∃ n k e, x = .inf n ∧ y = .fin k 0 e
  let invalid : Prop := ∃ q ∈ l, q.1 = .nan ∨ q.2 = .nan ∨ zeroInf q.1 q.2 ∨ zeroInf q.2 q.1
  let neg (v : FVal) : Bool :=
    match v with
    | .inf n | .fin n _ _ => n
    | .nan => false
  let infinite (sign : Bool) : Prop := ∃ q ∈ l, ((∃ n, q.1 = .inf n) ∨ ∃ n, q.2 = .inf n) ∧ xor (neg q.1) (neg q.2) = sign
  let term (e : Int) (q : FVal × FVal) : Int :=
    match q.1, q.2 with
    | .fin n1 m1 e1, .fin n2 m2 e2 => (if xor n1 n2 then -1 else 1) * ((m1 * m2 : Nat) : Int) * 2 ^ (e1 + e2 - e).toNat
    | _, _ => 0
  let reaches (e : Int) : Prop := ∀ q ∈ l, ∀ n1 m1 e1 n2 m2 e2, q.1 = .fin n1 m1 e1 → q.2 = .fin n2 m2 e2 → e ≤ e1 + e2
  let minus : Prop := ints = false ∧ ∀ q ∈ l, xor (neg q.1) (neg q.2) = true ∧ ∃ n e, q.1 = .fin n 0 e ∨ q.2 = .fin n 0 e
  (invalid ∨ (infinite false ∧ infinite true) → p = (0x7FC00000, fNV))
  ∧ (¬ invalid → infinite false → ¬ infinite true → p = (0x7F800000, 0))
  ∧ (¬ invalid → infinite true → ¬ infinite false → p = (0xFF800000, 0))
  ∧ (¬ invalid → ¬ infinite false → ¬ infinite true → ∀ e, reaches e →
      let x := (l.map (term e)).sum
      (x ≠ 0 → Fmt.fp32.Computes (dyadic x.natAbs e) (decide (x < 0)) rne p)
      ∧ (x = 0 → (minus → p = (0x80000000, 0)) ∧ (¬ minus → p = (0, 0))))

/-- DotRound (R145): p, then RNE(acc + p). -/
def DotRounds (ints : Bool) (acc : Nat) (l : List (FVal × FVal)) (out : Nat × BitVec 5) : Prop :=
  ∃ p, SumsTo ints l p ∧ out = ((Fmt.fp32.fadd acc p.1 rne).1, p.2 ||| (Fmt.fp32.fadd acc p.1 rne).2)

/-- The exponent to which a row is aligned, and its elements, truncated, in S balanced digits of base 256, the most
significant first (R146). -/
def Slices (S : Nat) (a : List FVal) (E : Int) (ds : List (List Int)) : Prop :=
  ((∀ n m e, .fin n m e ∈ a → m = 0) → E = 0)
  ∧ ((∃ n m e, .fin n m e ∈ a ∧ m ≠ 0) → (∀ n m e, .fin n m e ∈ a → (dyadic m e).halves 2 (E + 1) = .gt)
      ∧ ∃ n m e, .fin n m e ∈ a ∧ (dyadic m e).halves 2 E ≠ .gt)
  ∧ ds.length = a.length
  ∧ ∀ (k : Nat) n m e, a[k]? = some (.fin n m e) →
      let d := ds.getD k []
      d.length = S ∧ (∀ x ∈ d, -128 ≤ x ∧ x ≤ 127)
      ∧ (dyadic m (e + (8 * S - 3 : Int) - E)).RoundsTo false 0 1
          ((if n then -1 else 1) * ((List.range S).map fun i => d.getD i 0 * 256 ^ (S - 1 - i)).sum).toNat
      ∧ 0 ≤ (if n then -1 else 1) * ((List.range S).map fun i => d.getD i 0 * 256 ^ (S - 1 - i)).sum

/-- SliceDot (R146): the pairs of digits with i + j ≤ S − 1, summed exactly, rounded, and added to the accumulator. -/
def SliceDots (acc : Nat) (a b : List FVal) (S : Nat) (out : Nat × BitVec 5) : Prop :=
  let finite : Prop := ∀ v, v ∈ a ∨ v ∈ b → ∃ n m e, v = .fin n m e
  (¬ finite → out = (0x7FF8000000000000, fNV))
  ∧ (finite → ∃ (Ea Eb : Int) (al be : List (List Int)) (p : Nat × BitVec 5), Slices S a Ea al ∧ Slices S b Eb be
    ∧ (let pairs (i j : Nat) : Int := ((al.zip be).map fun q => q.1.getD i 0 * q.2.getD j 0).sum
      let T := ((List.range S).map fun i => ((List.range (S - i)).map fun j => pairs i j * 2 ^ (8 * (2 * S - 2 - i - j))).sum).sum
      (T = 0 → p = (0, 0)) ∧ (T ≠ 0 → Fmt.fp64.Computes (dyadic T.natAbs (Ea + Eb - 2 * (8 * S - 3 : Int))) (decide (T < 0)) rne p))
    ∧ out = ((Fmt.fp64.fadd acc p.1 rne).1, p.2 ||| (Fmt.fp64.fadd acc p.1 rne).2))

/-- A row that MST stores (R359): 32 codes of a tile, 4 bytes wide or 8 of a pair, narrowed to nearest even and packed in
order, with the flags and marks of its elements; format 0 stores them as they are. -/
def TileRow (fmt : BitVec 4) (w : Nat) (codes : List Nat) (out : List Byte × List (BitVec 5) × List Bool) : Prop :=
  let g := if w = 64 then Fmt.fp64 else Fmt.fp32
  let f := MemFmt.ofCode fmt
  let each (n : Nat) (rule : FVal → Narrowed → Prop) : Prop := out.1.length = codes.length * n / 8
    ∧ ∀ k x, codes[k]? = some x → ∃ o : Narrowed, rule (g.decode x) o ∧ leNat out.1 / 2 ^ (n * k) % 2 ^ n = o.code % 2 ^ n
      ∧ out.2.1.getD k 0 = o.flags ∧ out.2.2.getD k false = o.mark
  match f with
  | .raw => out.1 = codes.flatMap (leBytes (w / 8)) ∧ out.2.1 = codes.map (fun _ => 0) ∧ out.2.2 = codes.map fun _ => false
  | .e2m1b => EncodesBlock (codes.map fun x => some (g.decode x)) rne ⟨out.1, out.2.1, out.2.2⟩
  | .i4 => each 4 fun v o => v.Integer true 4 rne o
  | .i6 => each 6 fun v o => v.Integer true 6 rne o
  | .i8 => each 8 fun v o => v.Integer true 8 rne o
  | .i16 => each 16 fun v o => v.Integer true 16 rne o
  | .n4 => each 4 fun v o => v.Integer false 4 rne o
  | .n6 => each 6 fun v o => v.Integer false 6 rne o
  | .n8 => each 8 fun v o => v.Integer false 8 rne o
  | .n16 => each 16 fun v o => v.Integer false 16 rne o
  | .e4m3 => each 8 fun v o => Fmt.e4m3.Narrows v rne o
  | .e5m2 => each 8 fun v o => Fmt.e5m2.Narrows v rne o
  | .e3m2 => each 6 fun v o => Fmt.e3m2.Narrows v rne o
  | .e2m3 => each 6 fun v o => Fmt.e2m3.Narrows v rne o
  | .bf16 => each 16 fun v o => Fmt.bf16.Narrows v rne o
  | .fp16 => each 16 fun v o => Fmt.fp16.Narrows v rne o

/-! ## The Stick (R338 to R340) -/

/-- The checkpoint of an element with a term (R338): the entries, the estimate by the method of SKCFG, and what follows
from its change. All arithmetic is FP32 to nearest even. -/
def LCore.Checkpoints (c : LCore) (r : StickRec) (term : Nat) (t : StickRec) : Prop :=
  let f := Fmt.fp32
  let add (a b : Nat) : Nat := (f.fadd a b rne).1
  let sub (a b : Nat) : Nat := (f.fsub a b rne).1
  let mul (a b : Nat) : Nat := (f.fmul a b rne).1
  let div (a b : Nat) : Nat := (f.fdiv a b rne).1
  let mag (a : Nat) : Nat := a % 2 ^ 31
  let nan (a : Nat) : Prop := f.decode a = .nan
  let finite (a : Nat) : Prop := ∃ n m e, f.decode a = .fin n m e
  let less (a b : Nat) : Prop := (f.decode a).Less (f.decode b)
  let atMost (a b : Nat) : Prop := ¬ nan a ∧ ¬ nan b ∧ ¬ less b a
  let flr := mag (c.skflr.toNat % 2 ^ 32)
  let S := t.hist.map (·.toNat)
  let m := S.length
  let last := S.getD (m - 1) 0
  let est := t.est.toNat
  let eps : Prop :=
    let J := (m - 1) / 2
    ∃ E : Nat → Nat → Nat, (∀ i, E 0 i = 0) ∧ (∀ i, i ≤ 2 * J → E 1 i = S.getD (m - (2 * J + 1) + i) 0)
      ∧ (∀ k i, k < 2 * J → i < 2 * J - k → E (k + 2) i = add (E k (i + 1)) (div 0x3F800000 (sub (E (k + 1) (i + 1)) (E (k + 1) i))))
      ∧ let good (k i : Nat) : Prop :=
          let a := E (k + 1) (i + 1)
          let b := E (k + 1) i
          let dv := sub a b
          finite dv ∧ finite (E (k + 2) i)
            ∧ ∃ x, (x = mag a ∨ x = mag b ∨ x = 0x00800000) ∧ ¬ less x (mag a) ∧ ¬ less x (mag b) ∧ ¬ less x 0x00800000
                ∧ less (mul flr x) (mag dv)
        ((∀ k i, k < 2 * J → i < 2 * J - k → good k i) → est = E (2 * J + 1) 0 ∧ t.fallback = false)
        ∧ ∀ k i, k < 2 * J → i < 2 * J - k → ¬ good k i →
            (∀ p q, p < 2 * J → q < 2 * J - p → (p < k ∨ (p = k ∧ q < i)) → good p q) →
            est = E (k / 2 * 2 + 1) (2 * J - k / 2 * 2) ∧ t.fallback = true
  let lsq : Prop :=
    let dl (j : Nat) : Nat := sub (S.getD j 0) (S.getD (j - 1) 0)
    let units (a : Nat) : Int :=
      match f.decode a with
      | .fin n x e => (if n then -1 else 1) * (x : Int) * 2 ^ (e + 149).toNat
      | _ => 0
    let rounded (x : Int) (a : Nat) : Prop := (x = 0 → mag a = 0)
      ∧ (x ≠ 0 → ∃ flags, f.Computes (dyadic x.natAbs (-298)) (decide (x < 0)) rne (a, flags))
    let js := (List.range m).filter (2 ≤ ·)
    let sum (g : Nat → Int) : Int := (js.map g).sum
    let falls : Prop := est = last ∧ t.fallback = true
    ((∃ j, 1 ≤ j ∧ j < m ∧ ¬ finite (dl j)) → falls)
    ∧ ((∀ j, 1 ≤ j → j < m → finite (dl j)) → ∃ num den, rounded (sum fun j => units (dl j) * units (dl (j - 1))) num
      ∧ rounded (sum fun j => units (dl (j - 1)) * units (dl (j - 1))) den
      ∧ (¬ finite num ∨ ¬ finite den ∨ mag den = 0 → falls)
      ∧ (finite num → finite den → mag den ≠ 0 →
        let rho := div num den
        let om := sub 0x3F800000 rho
        let x := add last (mul (dl (m - 1)) (div rho om))
        (¬ less flr (mag om) → falls) ∧ (less flr (mag om) → ¬ finite x → falls)
        ∧ (less flr (mag om) → finite x → est = x ∧ t.fallback = false)))
  let chg := mag (sub est r.est.toNat)
  let tol := mul (mag (c.sktol.toNat % 2 ^ 32)) (f.fmax 0x3F800000 (mag est))
  S = ((if r.nh = c.skH then r.hist.drop 1 else r.hist).map (·.toNat)) ++ [if f.decode term = .nan then 0x7FC00000 else term % 2 ^ 32]
  ∧ t.nh = min (r.nh + 1) c.skH ∧ (t.ready = true ↔ 3 ≤ t.nh)
  ∧ (t.nh < 3 → est = last ∧ t.fallback = false)
  ∧ (3 ≤ t.nh → c.skcfg.getLsbD 4 = false → eps) ∧ (3 ≤ t.nh → c.skcfg.getLsbD 4 = true → lsq)
  ∧ t.fbc = (if t.fallback then min (r.fbc + 1) 16383 else r.fbc)
  ∧ (r.ready = false → t.cc = r.cc ∧ t.best = r.best ∧ t.sc = r.sc)
  ∧ (r.ready = true → (atMost chg tol → t.cc = min (r.cc + 1) 2) ∧ (¬ atMost chg tol → t.cc = 0)
    ∧ (less chg r.best.toNat → t.best.toNat = chg ∧ t.sc = 0) ∧ (¬ less chg r.best.toNat → t.best = r.best ∧ t.sc = min (r.sc + 1) 255))
  ∧ (t.converged = true ↔ t.cc = 2)
  ∧ (t.stagnant = true ↔ (if c.skwin.toNat % 256 = 0 then 8 else c.skwin.toNat % 256) ≤ t.sc)

/-! ## Barriers -/

/-- The access of a barrier instruction reaches the object at key b (R274, R275): it translates, meets no poison
and finds the reserved bits 0; v is the state in which the instruction then performs. -/
def State.AtBarrier (u : State) (acc : Acc) (addr : Word) (b : Nat) (v : State) : Prop :=
  ∃ (u1 u2 : State) (l : List ByteAt) (x : List Byte), u.scalarAccess .vectorAtomic acc addr 64 = (u1, .ok l)
    ∧ u1.load l = (u2, .ok x) ∧ ((l.map (·.key)).head?).getD 0 = b ∧ u2.barBad b = false
    ∧ v = u2.dropLines u2.core (l.map (·.key))

/-- From v to t the arrived count, the phase and the arrived map of the barrier at b are those of an arrival (R246),
and its other fields stay. -/
def State.Arrived (v t : State) (b : Nat) : Prop :=
  (1 ≤ v.barExp b ∧ v.barExp b ≤ v.barArr b + 1 → t.barPhase b = v.barPhase b + 1 ∧ t.barArr b = 0 ∧ t.barArrived b = 0)
    ∧ (¬ (1 ≤ v.barExp b ∧ v.barExp b ≤ v.barArr b + 1) → t.barPhase b = v.barPhase b ∧ t.barArr b = v.barArr b + 1)
    ∧ t.barExp b = v.barExp b ∧ t.barReg b = v.barReg b ∧ t.barSlots b = v.barSlots b

/-- Another logical core of a launch is on a thread and does not wait: the launch is not stalled (R249). -/
def State.RunsElse (s : State) (seq : Nat) : Prop :=
  ∃ n, n ≠ s.cur ∧ (s.thr n).occupied = true ∧ (s.thr n).lc.job.launch = seq ∧ (s.thr n).lc.waitFor = .none

/-- The instruction waits: nothing of the state differs but what the thread waits for, where its launch is none of
this device or is not stalled by it (R249, R250); where it is, the scheduler looks after the launch in the same step. -/
def State.Waits (s v : State) (i : Instr) (w : WaitFor) : Prop :=
  let u := v.setLc { v.lc with waitFor := w }
  exec i s = u.stallCheck v.lc.job.launch
    ∧ ((∀ l ∈ v.launches, l.seq ≠ v.lc.job.launch) ∨ v.RunsElse v.lc.job.launch → exec i s = .next u)

/-! ## Memory instructions by shape -/

/-- Scalar loads: bytes, and whether the value is sign-extended (R148). -/
def loadRules (f : IF) : List (Instr × Nat × Bool) :=
  [(.ldb f, 1, true), (.ldbn f, 1, false), (.ldh f, 2, true), (.ldhn f, 2, false), (.ldw f, 4, true), (.ldwn f, 4, false),
   (.ldd f, 8, false)]

/-- Scalar stores: bytes (R148). -/
def storeRules (f : IF) : List (Instr × Nat) := [(.stb f, 1), (.sth f, 2), (.stw f, 4), (.std f, 8)]

/-- Scalar atomics that update: the new value of the cell from the old one, g[b] and g[d] (R151). -/
def atomicRules (f : AF) : List (Instr × (Word → Word → Word → Word)) :=
  [(.amoadd f, fun old x _ => old + x), (.amoswp f, fun _ x _ => x),
   (.amomin f, fun old x _ => if x.toInt < old.toInt then x else old),
   (.amomax f, fun old x _ => if old.toInt < x.toInt then x else old),
   (.amoand f, fun old x _ => old &&& x), (.amoor f, fun old x _ => old ||| x)]

/-- Vector loads, with the mnemonic's own checks in the plan (R155 to R167). -/
def vectorLoads (f : VMF) : List Instr := [.vld f, .vlds f, .vldx f, .vldt f, .vldff f, .vldv f]

/-- Vector stores (R155 to R168). -/
def vectorStores (f : VMF) : List Instr := [.vst f, .vsts f, .vstx f, .vstt f, .vstv f, .vstxr f]

/-- Vector atomics: the operation on integers, and on FP32 (R169, R170). -/
def vectorAtomics (f : VMF) : List (Instr × AtomOp × AtomOp) :=
  [(.vamoadd f, .add, .fadd), (.vamomin f, .min, .fmin), (.vamomax f, .max, .fmax), (.vamoswp f, .swp, .swp)]

/-- The window of a convoy of one that runs over a plan to its end. -/
def State.fullWindow (s : State) (vl : Nat) (places : List (Nat × List Nat)) (data : List (Nat × List Byte))
    (shape : Option Shape) : Window :=
  ⟨s.lc.vstart.toNat, vl, vl, true, places, data, shape⟩

/-- The completion of a convoy of one, after its effect (R241). -/
def State.finished (s : State) (vl : Nat) : State := s.setLc { s.lc with vl := vl, vstart := 0, pc := s.lc.pc + 4 }

end Sys2Proof.Machine
end

