-- ==== Sys2Proof/Certificates/Slice0/Obligations.lean ====
section
/-! DEFINITION. The statements about the model, for the provers. -/

open Sys2Proof Sys2Proof.Machine

/-- For every instruction that has a word (every one but the steps of engines and of the outside) and keeps the
field rules of its row, decode (encode i) = i. Another instruction has another word: encode is one to one on
them. If decode w gives i, then i has a word, keeps the field rules of its row, and encode i = w: no bit of a
word is dropped. A word with a reserved major decodes to nothing. -/
def Obligations.DecodeEncode : Prop :=
  (∀ i : Instr, i.isEvent = false → i.wf = true → decode (encode i) = .ok i)
    ∧ (∀ i j : Instr, i.isEvent = false → j.isEvent = false → i.wf = true → j.wf = true → encode i = encode j → i = j)
    ∧ (∀ (w : IWord) (i : Instr), decode w = .ok i → i.wf = true ∧ i.isEvent = false ∧ encode i = w)
    ∧ ∀ w : IWord, (let n := w.toNat % 128
        ¬ ((0x01 ≤ n ∧ n ≤ 0x28) ∨ (0x40 ≤ n ∧ n ≤ 0x4B) ∨ n = 0x50 ∨ n = 0x58 ∨ n = 0x60 ∨ n = 0x64 ∨ n = 0x65 ∨ n = 0x68
          ∨ n = 0x6C ∨ n = 0x6D ∨ (0x70 ≤ n ∧ n ≤ 0x73))) → ∀ j, decode w ≠ .ok j

/-- ADD g3, g4, g5; ADDI g1, g0, -1; VADD v1, v2, v3 under mask; VLD of memory format 9 into v4 from g5; CSRWR of
SSCR; the words 0x00000000 and 0xFFFFFFFF decode to nothing. A sanity check of a few words. -/
def Obligations.DecodedWords : Prop :=
  decode (0b0000000000#10 ++ 5#5 ++ 4#5 ++ 3#5 ++ 0x01#7) = .ok (.add ⟨5, 4, 3⟩)
    ∧ decode (0x7FFF#15 ++ 0#5 ++ 1#5 ++ 0x02#7) = .ok (.addi ⟨0x7FFF, 0, 1⟩)
    ∧ decode (0b000000#6 ++ 1#1 ++ 0#3 ++ 3#5 ++ 2#5 ++ 1#5 ++ 0x20#7) = .ok (.vadd ⟨true, false, false, false, 3, 2, 1⟩)
    ∧ decode (9#4 ++ 0#2 ++ 0#4 ++ 0#5 ++ 5#5 ++ 4#5 ++ 0x40#7) = .ok (.vld ⟨9, false, false, false, false, 0, 5, 4⟩)
    ∧ decode (0x045#12 ++ 1#3 ++ 6#5 ++ 7#5 ++ 0x70#7) = .ok (.csrwr ⟨0x045, 6, 7⟩)
    ∧ (∀ i, decode 0x00000000 ≠ .ok i) ∧ ∀ i, decode 0xFFFFFFFF ≠ .ok i

/-- A thread whose turn it is, that holds a logical core, is neither stopped, asked to stop, forwarded nor waiting,
and has no MMA waiting for the unit, fetches 4 bytes at its pc, little-endian, from memory where its instruction
cache holds none. A word that forms no convoy and decodes to i: the step is exec i on the state after the fetch
(exec moves the pc). A word with its convoy bit 1 takes the next word with it: one that is convoy-capable and
the last joins it, one that is not breaks the convoy at the first place, and a fault of its fetch has place 1.
Words that form a convoy of two or more, or break the formation rules, issue together (VectorCheckTraps says
what issueGroup does). A word that decodes to nothing raises ILLEGAL with the word in TVAL and its place in
MEMB. A fetch that fails stops with its reason at the place of its word. With the agenda holding the turn of a
thread with a logical core, the step is that of the device with that thread to go. -/
def Obligations.StepRunsDecoded : Prop :=
  (∀ s : State, s.agenda = [] → (s.thr s.cur).occupied = true → (s.thr s.cur).stopped = false → (s.thr s.cur).stopAsked = none →
    (s.thr s.cur).fwd = false → s.passWaits s.cur = false → s.lc.waitFor = .none →
    (∀ (v : State) (l : List ByteAt) (u : State) (b : List Byte), s.span .fetch .fetch s.lc.pc 4 = (v, .ok l) → v.read (l.map (·.key)) = (u, some b) →
      (∀ x ∈ l, Cells.get? u.icache (cacheKey u.core x.key) = none) → s.fetchWord s.lc.pc = (u, .ok (BitVec.ofNat 32 (leNat b))))
    ∧ (∀ (u : State) (w : IWord), s.fetchWord s.lc.pc = (u, .ok w) → (convoyWord w && convoyBit w) = false →
        (∀ i, decode w = .ok i → step s = exec i u)
        ∧ (∀ e, decode w = .error e → step s = .next (u.deliver ⟨.illegal, w.setWidth 64, 0, u.lc.pc, u.lc.vstart⟩)))
    ∧ (∀ (u v : State) (w : IWord), s.fetchWord s.lc.pc = (u, .ok w) → convoyWord w = true → convoyBit w = true →
        (∀ x, u.fetchWord (s.lc.pc + 4) = (v, .ok x) →
          (convoyWord x = false → s.fetchGroup s.lc.pc = (v, .ok ([w], some 0)))
          ∧ (convoyWord x = true → convoyBit x = false → s.fetchGroup s.lc.pc = (v, .ok ([w, x], none))))
        ∧ (∀ e, u.fetchWord (s.lc.pc + 4) = (v, .error e) → s.fetchGroup s.lc.pc = (v, .error (e, 1))))
    ∧ (∀ (u : State) (ws : List IWord) (b : Option Nat), s.fetchGroup s.lc.pc = (u, .ok (ws, b)) →
        (∀ ms, 2 ≤ ws.length ∨ b ≠ none → decodeAll decodeWord 0 ws = .ok ms → step s = issueGroup b ms (runMember exec) u)
        ∧ ∀ k w, decodeAll decodeWord 0 ws = .error (k, w) →
            step s = .next (u.deliver ⟨.illegal, w.setWidth 64, BitVec.ofNat 2 k, u.lc.pc, u.lc.vstart⟩))
    ∧ ∀ (u : State) (e : Stop) (k : Nat), s.fetchGroup s.lc.pc = (u, .error (e, k)) → step s = u.stopped e k u.lc.vstart)
  ∧ ∀ (s : State) (n : Nat), s.agenda = [.turn n] → n < 768 → (s.thr n).occupied = true →
      step s = step { s with agenda := [], cur := n }

/-- State.reset: memory is in canonical form; every byte of every vault reads 0 and no word is poisoned; no hardware
thread holds a logical core, each SSCR is 0; no context is resident, no queue enabled, no barrier, command,
pass, leave or message exists; the TLBs and the caches are empty; BOOTST.STATE, MCREC0, ALOG0, LLOG0 and the
SECNT counters read 0. -/
def Obligations.ResetCanonical : Prop :=
  let s := State.reset
  Memory.wf s.mem = true ∧ (∀ c o, Memory.get s.mem (vaultKey c o) = 0) ∧ (∀ a, s.poisoned a = false)
    ∧ (∀ n, (s.thr n).occupied = false ∧ (s.thr n).sscr = 0) ∧ s.contexts = [] ∧ (∀ slot, (s.queue slot).en = false)
    ∧ s.launches = [] ∧ s.saved = [] ∧ s.ports = [] ∧ s.passes = [] ∧ s.gov.grants = [] ∧ s.gov.reqs = [] ∧ s.msix = []
    ∧ s.tlb = [] ∧ s.dcache = [] ∧ s.icache = []
    ∧ s.host.bootState = 0 ∧ s.host.mcrec0 = 0 ∧ s.host.alog0 = 0 ∧ s.host.llog0 = 0 ∧ ∀ n ∈ s.host.secnt, n = 0

/-- If the cells of memory stand in strictly rising order of their keys and none holds what an unlisted key reads
as, and the step answers a next state, then the same holds there; whatever runs: an instruction, a convoy, an
engine, the host, a reset. The canonical form is the model's own (log entry 3). -/
def Obligations.StepKeepsMemoryCanonical : Prop :=
  ∀ s t : State, Memory.wf s.mem = true → step s = .next t → Memory.wf t.mem = true

/-- For every instruction of major 0x01 with two sources (ADD, SUB, AND, OR, XOR, SLL, SRL, SRA, SLT, SLTN, MIN,
MAX, MINN, MAXN, MUL, MULH, MULHN, DIV, DIVN, REM, REMN), when no pending token is among its registers, exec
answers the next state in which d holds the value of R254 and R255, computed over the integers and narrowed, and
the pc is at the next word. CLZ, CTZ and POPC give d the number of leading zeros, of trailing zeros (64 for both
when g[a] is 0) or of 1 bits of g[a]. -/
def Obligations.ScalarRegisterResults : Prop :=
  (∀ (f : SF) (p : Instr × (Word → Word → Word)), p ∈ registerRules f → ∀ s : State, s.Free [f.d, f.a, f.b] →
    exec p.1 s = .next ((s.seen [f.d, f.a, f.b]).put f.d (p.2 (s.lc.rd f.a) (s.lc.rd f.b))))
  ∧ ∀ (f : SF) (s : State), s.Free [f.d, f.a] →
      let a := s.lc.rd f.a
      (∀ n, n ≤ 64 → (∀ i, 64 - n ≤ i → i < 64 → a.getLsbD i = false) → (n < 64 → a.getLsbD (63 - n) = true) →
        exec (.clz f) s = .next ((s.seen [f.d, f.a]).put f.d (BitVec.ofNat 64 n)))
      ∧ (∀ n, n ≤ 64 → (∀ i, i < n → a.getLsbD i = false) → (n < 64 → a.getLsbD n = true) →
        exec (.ctz f) s = .next ((s.seen [f.d, f.a]).put f.d (BitVec.ofNat 64 n)))
      ∧ exec (.popc f) s = .next ((s.seen [f.d, f.a]).put f.d (BitVec.ofNat 64 ((List.range 64).filter a.getLsbD).length))

/-- With no pending token among their registers, ADDI, ANDI, ORI, XORI and SLTI act on g[a] and the sign-extended
immediate, SLLI, SRLI and SRAI shift g[a] by shamt, LUI writes the immediate shifted by 15 and AUIPC adds it to
the address of its own word; exec answers that next state. -/
def Obligations.ImmediateResults : Prop :=
  (∀ (f : IF) (p : Instr × (Word → Int → Word)), p ∈ immediateRules f → ∀ s : State, s.Free [f.d, f.a] →
    exec p.1 s = .next ((s.seen [f.d, f.a]).put f.d (p.2 (s.lc.rd f.a) f.imm.toInt)))
  ∧ (∀ (f : HF) (p : Instr × (Word → Nat → Word)), p ∈ shiftRules f → ∀ s : State, s.Free [f.d, f.a] →
    exec p.1 s = .next ((s.seen [f.d, f.a]).put f.d (p.2 (s.lc.rd f.a) f.shamt.toNat)))
  ∧ ∀ (f : UF) (s : State), s.Free [f.d] →
    exec (.lui f) s = .next ((s.seen [f.d]).put f.d (BitVec.ofInt 64 (f.imm.toInt * 2 ^ 15)))
    ∧ exec (.auipc f) s = .next ((s.seen [f.d]).put f.d (s.lc.pc + BitVec.ofInt 64 (f.imm.toInt * 2 ^ 15)))

/-- BEQ, BNE, BLT, BGE, BLTN and BGEN, with no pending token among their registers, answer a next state whose only
change (beside the bytes that reading a token makes visible) is the pc: P + 4·SignExt(off15) when the condition
of R260 holds between g[a] and g[b], else P + 4. -/
def Obligations.BranchResults : Prop :=
  ∀ (f : BF) (p : Instr × (Word → Word → Prop)), p ∈ branchRules f → ∀ s : State, s.Free [f.a, f.b] →
    let u := s.seen [f.a, f.b]
    (p.2 (s.lc.rd f.a) (s.lc.rd f.b) →
      exec p.1 s = .next (u.setLc { u.lc with pc := s.lc.pc + BitVec.ofInt 64 (4 * f.off.toInt) }))
    ∧ (¬ p.2 (s.lc.rd f.a) (s.lc.rd f.b) → exec p.1 s = .next (u.setLc { u.lc with pc := s.lc.pc + 4 }))

/-- With no pending token among their registers: JAL writes P + 4 and jumps by its offset; JALR jumps to g[a] + imm,
and to a target that is no multiple of 4 it raises MISALIGN and writes no register; LOOP decrements g[a] when it
is not 0 and branches when the result is not 0, else falls through. A fetch fault at the target belongs to the
fetch, not to the jump. -/
def Obligations.JumpAndLoopResults : Prop :=
  (∀ (f : UF) (s : State), s.Free [f.d] →
    let u := s.seen [f.d]
    exec (.jal f) s = .next (u.setLc { u.lc.wr f.d (s.lc.pc + 4) with pc := s.lc.pc + BitVec.ofInt 64 (4 * f.imm.toInt) }))
  ∧ (∀ (f : IF) (s : State), s.Free [f.d, f.a] →
    let u := s.seen [f.d, f.a]
    let t := s.lc.rd f.a + BitVec.ofInt 64 f.imm.toInt
    (t.toNat % 4 = 0 → exec (.jalr f) s = .next (u.setLc { u.lc.wr f.d (s.lc.pc + 4) with pc := t }))
    ∧ (t.toNat % 4 ≠ 0 → exec (.jalr f) s = .next (u.deliver ⟨.misalign, t, 0, s.lc.pc, s.lc.vstart⟩)))
  ∧ ∀ (f : BF) (s : State), s.Free [f.a] →
    let u := s.seen [f.a]
    let old := s.lc.rd f.a
    (old = 0 → exec (.loop f) s = .next (u.setLc { u.lc with pc := s.lc.pc + 4 }))
    ∧ (old = 1 → exec (.loop f) s = .next (u.setLc { u.lc.wr f.a 0 with pc := s.lc.pc + 4 }))
    ∧ (old ≠ 0 → old ≠ 1 →
      exec (.loop f) s = .next (u.setLc { u.lc.wr f.a (old - 1) with pc := s.lc.pc + BitVec.ofInt 64 (4 * f.off.toInt) }))

/-- With no pending token among their registers, FADD, FSUB, FMUL, FDIV, FMIN, FMAX, FMA, FSQRT, FCMP, FMV and FCVT
answer the next state in which d holds the result of the operation on the operands at the width of the word
(bits [31:0] for FP32, d zero-extended), rounded under FRM, and FFLAGS gains the flags of the operation. Those
results are spelled out: the exact sum, product, quotient, root, fused sum or converted value rounded once under
the mode to the precision of the format, beyond the largest finite value by IEEE 754 with OF and NX, UF when
tiny after rounding and inexact, NX when inexact, NV and DZ for the invalid cases; integers saturate with NV;
FCVT to FP32 saturates (R138); FMIN and FMAX give the lesser and the greater, −0 below +0, a number before a
NaN; FCMP compares, with 0 for a NaN, and NV but for equality. -/
def Obligations.ScalarFloatResults : Prop :=
  ∀ (f : FF) (s : State),
    let g := if f.wide then Fmt.fp64 else Fmt.fp32
    let v (r : Reg) : Nat := (s.lc.rd r).toNat % 2 ^ g.w
    let out (u : State) (r : Nat × BitVec 5) : State :=
      u.setLc { u.lc.wr f.d (BitVec.ofNat 64 r.1) with pc := s.lc.pc + 4, fflags := s.lc.fflags ||| r.2 }
    (s.Free [f.d, f.a, f.b] →
      (∀ p ∈ floatRules f, exec p.1 s = .next (out (s.seen [f.d, f.a, f.b]) (p.2 g (v f.a) (v f.b) s.lc.frm)))
      ∧ exec (.fma f) s = .next (out (s.seen [f.d, f.a, f.b]) (g.ffma false (v f.a) (v f.b) (v f.d) s.lc.frm))
      ∧ ∀ n : BitVec 2, exec (.fcmp ⟨n, f.wide, f.b, f.a, f.d⟩) s
          = .next (out (s.seen [f.d, f.a, f.b]) (let r := g.fcmp n.toNat (v f.a) (v f.b); (if r.1 then 1 else 0, r.2))))
    ∧ (s.Free [f.d, f.a] →
      exec (.fsqrt f) s = .next (out (s.seen [f.d, f.a]) (g.fsqrt (v f.a) s.lc.frm))
      ∧ exec (.fmv f) s = .next (out (s.seen [f.d, f.a]) (v f.a, 0))
      ∧ exec (.fcvt f) s = .next (out (s.seen [f.d, f.a])
          (let r := fcvt f.wide f.b.toNat (s.lc.rd f.a) s.lc.frm; (r.1.toNat, r.2))))
    ∧ (∀ (a b d : Nat) (rm : BitVec 2), g.Arithmetic a b d rm ∧ g.Orders a b)
    ∧ ∀ (x : Word) (rm : BitVec 2), let r (n : Nat) := fcvt f.wide n x rm
      let y := g.decode (x.toNat % 2 ^ g.w)
      let o := if f.wide then Fmt.fp32 else Fmt.fp64
      let z := o.decode (x.toNat % 2 ^ o.w)
      (∃ m, y.Integer true 64 rm ⟨(r 0).1.toNat, (r 0).2, m⟩)
      ∧ (∃ m, y.Integer false 64 rm ⟨(r 1).1.toNat, (r 1).2, m⟩)
      ∧ g.FromInteger x.toInt rm ((r 2).1.toNat, (r 2).2) ∧ g.FromInteger x.toNat rm ((r 3).1.toNat, (r 3).2)
      ∧ (f.wide = true → Fmt.fp64.Widens z ((r 4).1.toNat, (r 4).2))
      ∧ (f.wide = false → ∃ m, Fmt.fp32.Narrows z rm ⟨(r 4).1.toNat, (r 4).2, m⟩)

/-- For every scalar instruction that names registers only (major 0x01, the immediate and shift forms, LUI, AUIPC,
JAL, LOOP, the branches, the floating instructions), in a state where no pending token is among its registers:
every g register but its destination is unchanged (LOOP writes g[a]; a branch writes none), FFLAGS loses no flag
and changes only for FADD, FSUB, FMUL, FDIV, FMA, FSQRT, FCMP and FCVT, no other register, mode or status of the
logical core changes, no other thread changes, every byte of memory reads as before, and bytes may only leave
the data cache of the core. Tokens that the instruction reads are no longer unseen. -/
def Obligations.ScalarFrame : Prop :=
  ∀ (i : Instr) (d : Reg) (gs : List Reg) (s t : State), scalarShape i = some (d, gs) → s.Free gs → exec i s = .next t →
    s.SameDevice t ∧ s.lc.OtherRegs t.lc d ∧ s.lc.SameButScalar t.lc ∧ s.MemoryOutside t []
      ∧ s.lc.fflags ||| t.lc.fflags = t.lc.fflags ∧ (mayRaise i = false → t.lc.fflags = s.lc.fflags)

/-- When a register that an instruction names is the pending token of a command of the thread, the instruction does
not act: on a port that another thread owns (a displaced command) it waits for the port; when the command holds
a recorded fault it traps with that fault at its own address; else it waits. In every case but the trap no
register of the logical core changes. So it is for the scalar register instructions, JALR, the scalar loads,
stores and atomics, for the CSR instructions whose access the level allows (once what they wait for has
completed), and for a convoy-capable instruction alone in its convoy that passes the checks of R78. -/
def Obligations.PendingTokenHolds : Prop :=
  (∀ (i : Instr) (gs : List Reg) (s : State), tokenRegs i = some gs → s.TokenHolds i gs)
  ∧ (∀ (f : CF) (s : State), s.notDrained = false → (s.lc.level == .u && csrPriv f.csr.toNat) = false →
      s.TokenHolds (.csrrd f) [f.d, f.a]
      ∧ (csrMask s.lc.level f.csr.toNat ≠ 0 → ∀ i ∈ [Instr.csrwr f, .csrset f, .csrclr f], s.TokenHolds i [f.d, f.a]))
  ∧ ∀ (i : Instr) (x : Member) (s : State), s.win = none → s.memberOf i = some x → s.lc.awaits x.groups = false →
      issueCheck s.lc none [x] = none → s.TokenHolds i x.gs

/-- For each of the 16 integer operations, with a vector s2 and with a scalar: a well-formed instruction that issues
alone (the checks of R78 pass, its registers are ready, no stop is asked) answers a next state in which each
active element from VSTART to VL − 1 of d holds the operation of R290 on the elements as they stood, every other
element of the group, every register where no element below VL lies, the masks, g registers and FFLAGS are
unchanged, the pc is at the next word and VSTART is 0. -/
def Obligations.VectorIntegerResults : Prop :=
  ∀ (f : VF) (p : Instr × Instr × (Nat → Nat → Nat → Nat)), p ∈ integerRules f → ∀ (s : State) (x : Member),
    let c := s.lc
    (p.1.wf = true → s.Issues p.1 x → s.VectorResult p.1 f.d.toNat c.sew (Vtype.vlmax c.vtype)
      (c.whenWritten f.m fun e => p.2.2 c.sew (c.x1 f e) (c.x2 f e)) 0)
    ∧ (p.2.1.wf = true → s.Issues p.2.1 x → s.VectorResult p.2.1 f.d.toNat c.sew (Vtype.vlmax c.vtype)
      (c.whenWritten f.m fun e => p.2.2 c.sew (c.x1 f e) ((c.rd f.s2).toNat % 2 ^ c.sew)) 0)

/-- For VFADD, VFSUB, VFMUL, VFDIV, VFMA, VFNMA, VFMIN and VFMAX, with a vector s2 and with a scalar: a well-formed
instruction that issues alone answers a next state in which each active element from VSTART to VL − 1 of d holds
the operation on x, y and, for the accumulating forms, d as they stood, rounded under FRM; FFLAGS gains the
flags of every written element; nothing else changes but the pc and VSTART. The operations of BF16 and FP32 are
spelled out as those of FADD and its like are: the exact result rounded once, the special cases of IEEE 754 and
R258, lesser and greater; z − x·y is that of z and the negated x. -/
def Obligations.VectorFloatResults : Prop :=
  (∀ (f : VF) (p : Instr × Instr × (Fmt → Nat → Nat → Nat → BitVec 2 → Nat × BitVec 5)), p ∈ floatingRules f →
    ∀ (s : State) (x : Member),
    let c := s.lc
    let v (e : Nat) : Nat × BitVec 5 := p.2.2 (Vtype.fmt c.vtype) (c.x1 f e) (c.x2 f e) (c.xd f e) c.frm
    let g (e : Nat) : Nat × BitVec 5 :=
      p.2.2 (Vtype.fmt c.vtype) (c.x1 f e) ((c.rd f.s2).toNat % 2 ^ c.sew) (c.xd f e) c.frm
    c.vl ≤ Vtype.vlmax c.vtype →
    (p.1.wf = true → s.Issues p.1 x → s.VectorResult p.1 f.d.toNat c.sew (Vtype.vlmax c.vtype)
      (c.whenWritten f.m fun e => (v e).1) (c.flagsOver f.m fun e => (v e).2))
    ∧ (p.2.1.wf = true → s.Issues p.2.1 x → s.VectorResult p.2.1 f.d.toNat c.sew (Vtype.vlmax c.vtype)
      (c.whenWritten f.m fun e => (g e).1) (c.flagsOver f.m fun e => (g e).2)))
  ∧ ∀ (t : Word) (a b d : Nat) (rm : BitVec 2), let g := Vtype.fmt t
      g.Arithmetic a b d rm ∧ g.Orders a b
      ∧ (a < 2 ^ g.w → g.ffma true a b d rm = g.ffma false ((a + 2 ^ (g.w - 1)) % 2 ^ g.w) b d rm)

/-- A well-formed instruction that issues alone answers a next state in which each written element of d holds: the
count of R291 for VPOPC and VCLZ; the operation of R293 for VFSQRT, VFABS, VFNEG, VFEXP2, VFLOG2, VFRSQ and
VFRCP, whose flags FFLAGS gains; the element number modulo 2^SEW for VID; the scalar for VMVS; and for VMERGE
the s2 element or the scalar where k0 is 1, else the s1 element, at every element from VSTART to VL − 1. Nothing
else changes but the pc and VSTART. The root, VFEXP2, VFLOG2, VFRSQ and VFRCP of BF16 and FP32 are spelled out:
the special cases of R143, else one rounding of the result, where that is irrational of a value within one part
in 2^28 of it (the model works it out to 256 bits, log entry 15). -/
def Obligations.VectorUnaryResults : Prop :=
  (∀ (f : VF) (s : State) (x : Member),
    let c := s.lc
    let w := c.sew
    let out (i : Instr) (m : Bool) (new : Nat → Nat) (flags : BitVec 5) : Prop :=
      i.wf = true → s.Issues i x → s.VectorResult i f.d.toNat w (Vtype.vlmax c.vtype) (c.whenWritten m new) flags
    c.vl ≤ Vtype.vlmax c.vtype →
    out (.vpopc f) f.m (fun e => ((List.range w).filter fun j => (c.x1 f e).testBit j).length) 0
    ∧ out (.vclz f) f.m (fun e => if c.x1 f e = 0 then w else w - 1 - Nat.log2 (c.x1 f e)) 0
    ∧ (∀ p ∈ unaryFloatRules f, out p.1 f.m (fun e => (p.2 (Vtype.fmt c.vtype) (c.x1 f e) c.frm).1)
        (c.flagsOver f.m fun e => (p.2 (Vtype.fmt c.vtype) (c.x1 f e) c.frm).2))
    ∧ out (.vid f) f.m (fun e => e % 2 ^ w) 0
    ∧ out (.vmvs f) f.m (fun _ => (c.rd f.s1).toNat % 2 ^ w) 0
    ∧ out (.vmerge f) false (fun e => if c.kbit 0 e then c.x2 f e else c.x1 f e) 0
    ∧ out (.vmergeScalar f) false (fun e => if c.kbit 0 e then (c.rd f.s2).toNat % 2 ^ w else c.x1 f e) 0)
  ∧ ∀ (t : Word) (a b d : Nat) (rm : BitVec 2), let g := Vtype.fmt t
      a < 2 ^ g.w → g.Arithmetic a b d rm ∧ g.Functions a rm

/-- For each compare of VCMP and VCMPS: a well-formed instruction that issues alone answers a next state in which
bit e of k[d] says, for each active element from VSTART to VL − 1, whether the relation holds between x and y as
they stood (−0 = +0; a NaN operand gives 0, and raises NV for VFCMPLT and VFCMPLE through the format compare);
the other bits of k[d], the other masks, the vector and g registers are unchanged, FFLAGS gains the flags of the
compares, the pc is at the next word and VSTART is 0. KAND, KOR, KXOR, KNOT and KMOV write, in the same way and
whatever k0 holds, the operation on the bits of the sources as they stood at every bit from VSTART to VL − 1;
bits 0 to VSTART − 1 and VL to 4,095 are unchanged. -/
def Obligations.MaskRegisterResults : Prop :=
  ∀ (f : VF) (s : State) (x : Member),
    let c := s.lc
    let y (scalar : Bool) (e : Nat) : Nat := if scalar then (c.rd f.s2).toNat % 2 ^ c.sew else c.x2 f e
    (∀ p ∈ compareRules f, ∀ scalar : Bool, let i := if scalar then p.2.1 else p.1
      i.wf = true → s.Issues i x → s.MaskResult i f.d.toNat
        (c.whenWritten f.m fun e => p.2.2 c.sew (c.x1 f e) (y scalar e)) 0)
    ∧ (∀ p ∈ floatCompareRules f, ∀ scalar : Bool, let i := if scalar then p.2.1 else p.1
      let fmt := Vtype.fmt c.vtype
      let r (e : Nat) : Bool × BitVec 5 :=
        let a := fmt.decode (c.x1 f e)
        let b := fmt.decode (y scalar e)
        if a.isNan = true ∨ b.isNan = true then (false, if p.2.2 = 0 then 0 else 0x10)
        else (if p.2.2 = 0 then a.eq b else if p.2.2 = 1 then a.lt b else a.lt b || a.eq b, 0)
      i.wf = true → s.Issues i x → s.MaskResult i f.d.toNat (c.whenWritten f.m fun e => (r e).1)
        (c.flagsOver f.m fun e => (r e).2))
    ∧ (∀ n m i j, (FVal.fin n 0 i).eq (FVal.fin m 0 j) = true)
    ∧ ∀ p ∈ maskRules f, p.1.wf = true → s.Issues p.1 x → s.MaskResult p.1 f.d.toNat
        (c.whenWritten false fun e => p.2 (c.kbit f.s1.toNat e) (c.kbit f.s2.toNat e)) 0

/-- A well-formed instruction that issues alone answers a next state in which g[d] holds: for KFFS and KPOPC the
lowest bit set below VL (all ones when none) and their number; for VMVX element 0, sign- or zero-extended; for
VREDSUM g[b] plus the sum of the active sign-extended elements modulo 2^64, for VREDMAX and VREDMIN the signed
greatest or least of them and g[b]; for VFREDSUM, VFREDMAX and VFREDMIN the recursive halving of R144 with the
initial operand last, whose flags FFLAGS gains; for VARGMAX the lowest index of a greatest active element, −1
with none. VSTART plays no part; beside g[d], FFLAGS, the pc and VSTART nothing changes. -/
def Obligations.ReductionResults : Prop :=
  ∀ (f : VF) (s : State) (x : Member),
    let c := s.lc
    let act := (List.range c.vl).filter (c.active f.m)
    let bits := (List.range c.vl).filter (c.kbit f.s1.toNat)
    let v (e : Nat) : Int := signedOf c.sew (c.x1 f e)
    let out (i : Instr) (r : Word) (flags : BitVec 5) : Prop :=
      i.wf = true → s.Issues i x → s.RegisterResult i f.d r flags
    let last : Nat × BitVec 5 := ((c.rd f.s2).toNat % 2 ^ c.sew, 0)
    let tree (j : Nat) (op : Fmt → Nat → Nat → BitVec 2 → Nat × BitVec 5) : Nat × BitVec 5 :=
      let both (a b : Nat × BitVec 5) : Nat × BitVec 5 := let r := op (Vtype.fmt c.vtype) a.1 b.1 c.frm; (r.1, r.2 ||| a.2 ||| b.2)
      match halved both j fun e => if e < c.vl ∧ c.active f.m e = true then some (c.x1 f e, 0) else none with
      | some a => both a last
      | none => last
    c.vl ≤ 4096 →
    out (.kffs f) (match bits with
      | e :: _ => BitVec.ofNat 64 e
      | [] => BitVec.allOnes 64) 0
    ∧ out (.kpopc f) (BitVec.ofNat 64 bits.length) 0
    ∧ out (.vmvx f) (if Vtype.flt c.vtype then BitVec.ofNat 64 (c.x1 f 0) else BitVec.ofInt 64 (v 0)) 0
    ∧ out (.vredsum f) (act.foldl (fun a e => a + BitVec.ofInt 64 (v e)) (c.rd f.s2)) 0
    ∧ out (.vredmax f) (BitVec.ofInt 64 (act.foldl (fun a e => max a (v e)) (c.rd f.s2).toInt)) 0
    ∧ out (.vredmin f) (BitVec.ofInt 64 (act.foldl (fun a e => min a (v e)) (c.rd f.s2).toInt)) 0
    ∧ (∀ j, c.vl ≤ 2 ^ j → (∀ i, c.vl ≤ 2 ^ i → j ≤ i) →
      out (.vfredsum f) (BitVec.ofNat 64 (tree j Fmt.fadd).1) (tree j Fmt.fadd).2
      ∧ out (.vfredmax f) (BitVec.ofNat 64 (tree j fun g a b _ => (g.fmax a b, 0)).1) 0
      ∧ out (.vfredmin f) (BitVec.ofNat 64 (tree j fun g a b _ => (g.fmin a b, 0)).1) 0)
    ∧ (act = [] → out (.vargmax f) (BitVec.allOnes 64) 0)
    ∧ ∀ e ∈ act, (∀ j ∈ act, c.greater (c.x1 f j) (c.x1 f e) = false)
        → (∀ j ∈ act, j < e → c.greater (c.x1 f e) (c.x1 f j) = true) → out (.vargmax f) (BitVec.ofNat 64 e) 0

/-- A well-formed instruction that issues alone answers a next state in which, over the active elements below VL,
element e of d holds: for VSLIDEUP source element e − x where x ≤ e (else it stays), for VSLIDEDN element e + x
or 0 beyond VL, for VRGATH the element that the index names or 0, for VSPSEL the element where it is kept by
R302, else 0, for VCONFL the first earlier active element of equal value, else e, and for VFCOMB +0 in an
element that is no leader, in a leader the sum of its followers in ascending order, a NaN canonical, with the
flags of every addition. VCMPR packs the elements that k0 selects from element 0. Elements not named, registers
where no element below VL lies, masks and g registers stay. -/
def Obligations.PermuteResults : Prop :=
  ∀ (f : VF) (s : State) (x : Member),
    let c := s.lc
    let act := (List.range c.vl).filter (c.active f.m)
    let n := (c.rd f.s2).toNat
    let out (i : Instr) (new : Nat → Option Nat) : Prop :=
      i.wf = true → s.Issues i x → s.VectorResult i f.d.toNat c.sew (Vtype.vlmax c.vtype) new 0
    let sum (e : Nat) : Nat × BitVec 5 :=
      (act.filter fun j => decide (e < j) && c.leader f.m f.s2.toNat j == e).foldl
        (fun a j => let y := c.fmt.fadd a.1 (c.x1 f j) c.frm; (y.1, a.2 ||| y.2)) (c.x1 f e, 0)
    let on (g : Nat → Option Nat) (e : Nat) : Option Nat := if e ∈ act then g e else none
    c.vl ≤ Vtype.vlmax c.vtype →
    out (.vslideup f) (on fun e => if n ≤ e then some (c.x1 f (e - n)) else none)
    ∧ out (.vslidedn f) (on fun e => some (if e + n < c.vl then c.x1 f (e + n) else 0))
    ∧ out (.vrgath f) (on fun e => some (if c.x2 f e < c.vl then c.x1 f (c.x2 f e) else 0))
    ∧ out (.vcmpr f) (fun j => (((List.range c.vl).filter (c.kbit 0))[j]?).map (c.x1 f))
    ∧ out (.vspsel f) (on fun e => some (if c.kept f.m c.vl f.s1.toNat f.s2.toNat e then c.x1 f e else 0))
    ∧ out (.vconfl f) (on fun e => some ((act.find? fun j => decide (j < e) && c.x1 f j == c.x1 f e).getD e))
    ∧ ((Instr.vfcomb f).wf = true → s.Issues (.vfcomb f) x → ∃ t, exec (.vfcomb f) s = .next t ∧ s.SameDevice t
        ∧ s.lc.SameButVector t.lc ∧ s.lc.Completes t.lc ∧ (∀ g, t.lc.rd g = c.rd g) ∧ t.lc.k = c.k ∧ t.lc.ksm = c.ksm
        ∧ t.lc.oldVals = c.oldVals ∧ t.lc.fflags = c.fflags ||| (act.filter fun e => c.leader f.m f.s2.toNat e == e).foldl (fun a e => a ||| (sum e).2) 0
        ∧ (∀ r, r < f.d.toNat ∨ f.d.toNat * 16384 + c.vl * Vtype.c c.vtype ≤ r * 16384 → t.lc.vreg r = c.vreg r)
        ∧ ∀ e, e < Vtype.vlmax c.vtype →
            (e ∉ act → t.lc.elem f.d.toNat (Vtype.c c.vtype) e = c.elem f.d.toNat (Vtype.c c.vtype) e)
            ∧ (e ∈ act → c.leader f.m f.s2.toNat e ≠ e → t.lc.val f.d.toNat c.sew e = 0)
            ∧ (e ∈ act → c.leader f.m f.s2.toNat e = e → t.lc.val f.d.toNat c.sew e
                = if (c.fmt.decode (sum e).1).isNan then c.fmt.nanCode else (sum e).1))

/-- A well-formed VCVT that issues alone answers a next state whose logical core is that of converting the active
elements from VSTART to VL − 1 in ascending order: element e of d, at the wide width for the widening codes,
holds the conversion of the source element, FFLAGS gains its flags, and where the conversion marks, bit e of the
mask register that SATK names is set. Each conversion is spelled out: one rounding under FRM, saturation with
its flags and marks, exact widening. The pc is at the next word and VSTART is 0; no g register and nothing
outside the logical core changes. -/
def Obligations.ConversionResults : Prop :=
  ∀ (f : VF) (s : State) (x : Member), (Instr.vcvt f).wf = true → s.Issues (.vcvt f) x →
    let c := s.lc
    let one (a : LCore) (e : Nat) : LCore :=
      let r := cvtElem a f.s2.toNat f.s1.toNat e
      let b : LCore := (a.setVal f.d.toNat r.1 e r.2.code).raise r.2.flags
      if r.2.mark && a.satk.getLsbD 3 then b.setKbit (a.satk.extractLsb' 0 3).toNat e true else b
    let done : LCore := (c.activeIn f.m c.vstart.toNat c.vl).foldl one c
    exec (.vcvt f) s = .next (s.setLc { done with pc := c.pc + 4, vstart := 0, vl := c.vl })
    ∧ ∀ e, let w := c.sew
      let g := Vtype.fmt c.vtype
      let n := c.val f.s1.toNat w e
      let wide := c.elem f.s1.toNat (2 * w) e
      let r := cvtElem c f.s2.toNat f.s1.toNat e
      (f.s2 = 0 → r.1 = w ∧ (g.decode n).Integer true w c.frm r.2) ∧ (f.s2 = 1 → r.1 = w ∧ (g.decode n).Integer false w c.frm r.2)
      ∧ (f.s2 = 2 → r.1 = w ∧ r.2.mark = false ∧ g.FromInteger (signedOf w n) c.frm (r.2.code, r.2.flags))
      ∧ (f.s2 = 3 → r.1 = w ∧ r.2.mark = false ∧ g.FromInteger n c.frm (r.2.code, r.2.flags))
      ∧ (f.s2 = 4 → r.1 = 2 * w ∧ r.2.mark = false ∧ Fmt.fp32.Widens (Fmt.bf16.decode n) (r.2.code, r.2.flags))
      ∧ (f.s2 = 5 → r.1 = w ∧ Fmt.bf16.Narrows (Fmt.fp32.decode wide) c.frm r.2)
      ∧ (f.s2 = 6 → r = (2 * w, ⟨(signedOf w n % 2 ^ (2 * w)).toNat, 0, false⟩)) ∧ (f.s2 = 7 → r = (2 * w, ⟨n, 0, false⟩))
      ∧ (f.s2 = 8 → r.1 = w ∧ Clamps true w (signedOf (2 * w) wide) r.2) ∧ (f.s2 = 9 → r.1 = w ∧ Clamps false w wide r.2)

/-- A convoy of convoy-capable instructions, with no old value still to arrive in its registers. The checks: 4, a
member with VTYPE_ILL; 5, a group not aligned to its size, or a counter field not aligned to GM (R46), or a
group reaching VREGS; 6, the member that breaks the formation, or takes a class past its limit (two for the FMA
pipes, one for the others), or of which or by which a whole-result member writes what the other reads or writes;
7, an overlap of its own, or a mask that another member may not touch, with EN = 1 also where the other can
itself mark (R139, R140). When member k fails check n and no member fails an earlier check, nor a lower member
this one, the convoy traps with the cause of n, TVAL the word of member k, MEMB k, TPC the first member, VSTART
kept: nothing has committed, whatever VL holds. When none fails and no pending token is among its registers, the
members act in program order, each on what those before it left, over one window: with no memory member the
elements from VSTART to VL − 1, after which VSTART is 0 and the pc behind the last member; with a memory member
the elements that its plan gives, with the VL that it trims; where its access traps at element f, those below f,
and the trap has VSTART f and the place of that member; where a stop is asked, at a boundary of groups of G
elements below f, or else up to the end of the last group, those below that boundary, which VSTART then holds
(VL at the end of the last group, with no whole-result member committed, R241); past that it has completed. A
whole-result member does nothing in a window that is not whole. A convoy of one instruction with no memory
member is that instruction alone. That a destination g0 is no register that a whole-result member writes is the
model's reading (log entry 99). -/
def Obligations.VectorCheckTraps : Prop :=
  (∀ (u : State) (b : Option Nat) (ms : List Instr) (xs : List Member),
    ms.map u.memberOf = xs.map some → u.lc.awaits (xs.flatMap (·.groups)) = false →
    let fails := Fails u.lc b xs
    (∀ (n k : Nat) (x : Member) (i : Instr), xs[k]? = some x → ms[k]? = some i → fails n k x →
      (∀ y ∈ xs.zipIdx, ∀ m, m ≤ n → m < n ∨ y.2 < k → ¬ fails m y.2 y.1) →
      issueGroup b ms (runMember exec) u = .next (u.deliver
        ⟨if n = 4 then .vtypeIll else if n = 5 then .groupAlign else if n = 6 then .convoy else .overlap,
          (encode i).setWidth 64, BitVec.ofNat 2 k, u.lc.pc, u.lc.vstart⟩))
    ∧ ((∀ y ∈ xs.zipIdx, ∀ m, m ≤ 7 → ¬ fails m y.2 y.1) → u.Free (xs.flatMap (·.gs)) → u.lc.oldVals = [] → (∀ f, .vamoswp f ∉ ms) →
      let a := u.seen (xs.flatMap (·.gs))
      let lo := a.lc.vstart.toNat
      let done (w : Window) (l : List Instr) (v : State) : State := l.foldl (fun v i => runMember exec i w v) v
      let groupEnd (v : State) (j : Nat) : Nat :=
        let g := Vtype.groupOf (Vtype.c v.lc.vtype)
        max v.lc.vstart.toNat ((v.lc.vstart.toNat / g + j) * g)
      let stopsAt (v : State) (vl : Nat) (trap : Option Nat) (e : Nat) : Prop := ∃ j, (v.thr v.cur).stopAsked = some j
        ∧ match trap with
          | some f => groupEnd v j < f ∧ e = groupEnd v j
          | none =>
            let g := Vtype.groupOf (Vtype.c v.lc.vtype)
            groupEnd v j ≤ (vl + g - 1) / g * g ∧ e = max v.lc.vstart.toNat (min (groupEnd v j) vl)
      let ends (vl : Nat) (v : State) : State :=
        v.setLc { v.lc with vl := vl, vstart := 0, pc := v.lc.pc + BitVec.ofNat 64 (4 * ms.length) }
      ((∀ x ∈ xs, Pipe.memory ∉ x.pipes) → (∀ e, ¬ stopsAt a a.lc.vl none e) →
        issueGroup b ms (runMember exec) u = .next (ends a.lc.vl (done ⟨lo, a.lc.vl, a.lc.vl, true, [], [], none⟩ ms a)))
      ∧ (∀ e, (∀ x ∈ xs, Pipe.memory ∉ x.pipes) → stopsAt a a.lc.vl none e →
        issueGroup b ms (runMember exec) u = .next (let z := done ⟨lo, e, a.lc.vl, false, [], [], none⟩ ms a
          z.setLc { z.lc with vl := a.lc.vl, vstart := BitVec.ofNat 13 e }))
      ∧ ∀ (k : Nat) (i : Instr) (x : Member) (v : State) (vl : Nat) (stop : Option (Nat × Stop)) (places : List (Nat × List Nat))
          (data : List (Nat × List Byte)),
        ms[k]? = some i → xs[k]? = some x → Pipe.memory ∈ x.pipes →
        a.planOf i (done ⟨lo, a.lc.vl, a.lc.vl, false, [], [], none⟩ (ms.take k) a).lc = (v, .run vl stop places data) →
        let w (hi : Nat) (whole : Bool) : Window := ⟨v.lc.vstart.toNat, hi, vl, whole, places, data, a.recordOf i⟩
        ((∀ e, ¬ stopsAt v vl none e) → stop = none → issueGroup b ms (runMember exec) u = .next (ends vl (done (w vl true) ms v)))
        ∧ (∀ f cause tval, (∀ e, ¬ stopsAt v vl (some f) e) → stop = some (f, .trap cause tval) →
            issueGroup b ms (runMember exec) u = .next (let z := done (w f false) ms v
              (z.setLc { z.lc with vl := vl }).deliver ⟨cause, tval, BitVec.ofNat 2 k, z.lc.pc, BitVec.ofNat 13 f⟩))
        ∧ ∀ e, stopsAt v vl (stop.map (·.1)) e →
            issueGroup b ms (runMember exec) u = .next (let z := done (w e false) ms v
              z.setLc { z.lc with vl := vl, vstart := BitVec.ofNat 13 e })))
  ∧ (∀ (i : Instr) (x : Member) (s : State), s.memberOf i = some x → s.win = none →
      (x.whole = true → ∀ w : Window, w.whole = false → runMember exec i w s = s)
      ∧ (Pipe.memory ∉ x.pipes → exec i s = issueGroup none [i] (runMember exec) s))

/-- With no pending token among its registers and nothing of the thread still to complete, SETVL (request g[b]) and
SETVLI (request the ten immediate bits) answer the next state in which, for a legal request (R53), VTYPE is the
request, VL is the requested length cut to VLMAX and 4,096 and, from 4 up at SEW 6 and from 2 up at SEW 4, to a
multiple of 4 or 2; for any other request VTYPE is 0x8000_0000_0000_0000 and VL is 0. VSTART is 0 and d holds
VL. The granted VL never exceeds VLMAX. -/
def Obligations.ConfigureResults : Prop :=
  ∀ (s : State) (d a : Reg) (req : Word) (gs : List Reg) (i : Instr),
    ((∃ f : SF, i = .setvl f ∧ f.d = d ∧ f.a = a ∧ req = s.lc.rd f.b ∧ gs = [f.d, f.a, f.b])
      ∨ ∃ f : IF, i = .setvli f ∧ f.d = d ∧ f.a = a ∧ req = BitVec.ofNat 64 (f.imm.toNat % 1024) ∧ gs = [f.d, f.a]) →
    s.passes.any (·.thr == s.cur) = false → s.lc.oldVals = [] → s.Free gs →
    let u := s.seen gs
    let code := req.toNat % 8
    let flt := req.toNat / 8 % 2
    let gm := req.toNat / 16 % 4
    let slc := req.toNat / 64 % 16
    let legal : Prop := code ≤ 5 ∧ (flt = 1 → code = 3 ∨ code = 4) ∧ (slc = 0 ∨ slc = 6 ∨ slc = 7 ∨ slc = 8)
      ∧ (slc ≠ 0 → code = 5 ∧ flt = 0) ∧ req.toNat < 1024
    let c := if code = 0 then 4 else if code ≤ 2 then 8 else if code = 3 then 16 else if code = 4 then 32 else 64
    let n := min (s.lc.rd a).toNat (min (2 ^ gm * 16384 / c) 4096)
    let vl := if code = 1 ∧ 4 ≤ n then n - n % 4 else if code = 0 ∧ 2 ≤ n then n - n % 2 else n
    (legal → exec i s = .next (u.setLc { u.lc.wr d (BitVec.ofNat 64 vl) with
        vtype := req, vl := vl, vstart := 0, pc := s.lc.pc + 4 }) ∧ vl ≤ Vtype.vlmax req)
    ∧ (¬ legal → exec i s = .next (u.setLc { u.lc.wr d 0 with
        vtype := 0x8000000000000000, vl := 0, vstart := 0, pc := s.lc.pc + 4 }))

/-- A trap delivered to the thread whose turn it is, when TACT is 0: TCAUSE, TVAL and VSTART take the values of the
trap, TPC bits [50:2] of its pc (R266), PPRV says whether it arose at S, TACT becomes 1; a BARW that has arrived
is recorded in BWP and WPHASE. A privileged context with TVEC not 0 enters TVEC at S; of a context that is not
privileged, PAGE_NP and runtime calls with RTVEC not 0 enter RTVEC at S, any other trap with TVEC not 0 enters
TVEC at U. Otherwise, and always when TACT is 1, the context is killed with the cause. No other register
changes, and nothing outside the thread but the sequencer stamp. -/
def Obligations.TrapDelivery : Prop :=
  ∀ (s : State) (t : Trap),
    let c := s.lc
    let d : LCore := match c.barw with
      | some p => { c with bwp := true, wphase := p, barw := none }
      | none => c
    let saved (lvl : Level) (pc : Word) (rt : Bool) : LCore :=
      { d with tcause := t.memb ++ t.cause.code, tval := t.tval, tpc := t.tpc &&& 0x7FFFFFFFFFFFC, vstart := t.vst, pprv := decide (c.level = .s),
               tact := true, level := lvl, pc := pc, atRtvec := rt, waitFor := .none, unreachMark := false }
    let toRuntime : Prop := c.job.priv = false ∧ s.host.rtvec ≠ 0
      ∧ (t.cause = .pageNp ∨ (t.cause = .soft ∧ 0xC00 ≤ t.tval.toNat ∧ t.tval.toNat ≤ 0xFFF))
    (c.tact = false → c.job.priv = true → c.tvec ≠ 0 → s.deliver t = s.stamp.setLc (saved .s c.tvec false))
    ∧ (c.tact = false → toRuntime → s.deliver t = s.stamp.setLc (saved .s s.host.rtvec true))
    ∧ (c.tact = false → c.job.priv = false → ¬ toRuntime → c.tvec ≠ 0 → s.deliver t = s.stamp.setLc (saved .u c.tvec false))
    ∧ (c.tact = true ∨ (c.tvec = 0 ∧ ¬ toRuntime) → s.deliver t = s.stamp.kill c.job.ctx t.cause.code s.cur)

/-- After the kill of a context: no thread holds a logical core of it, no image of it is saved, no enabled queue
names it, no launch of it is under way, it is no longer resident (log entry 14: the model reads the rules so),
CKILL holds the valid bit, the cause, the thread and the context, and MSI-X vector 2 is raised last (before it,
only vector 0 of machine checks that the barriers it leaves meet, none where no error is present). Threads that
held logical cores of other contexts still hold them, with the same g registers and pc. -/
def Obligations.KillFreesContext : Prop :=
  ∀ (s : State) (ctx thr : Nat) (cause : BitVec 8),
    let t := s.kill ctx cause thr
    (∀ n, (t.thr n).occupied = true → (t.thr n).lc.job.ctx ≠ ctx)
    ∧ (∀ x ∈ t.saved, x.lc.job.ctx ≠ ctx) ∧ (∀ q ∈ t.queues, q.2.en = true → q.2.ctx ≠ ctx)
    ∧ (∀ l ∈ t.launches, l.ctx ≠ ctx) ∧ ctx ∉ t.contexts
    ∧ t.host.ckill.getLsbD 63 = true ∧ t.host.ckill.toNat / 2 ^ 40 % 256 = cause.toNat
    ∧ t.host.ckill.toNat / 2 ^ 30 % 1024 = thr % 1024 ∧ t.host.ckill.toNat % 4096 = ctx % 4096
    ∧ (∃ m, t.msix = s.msix ++ m ++ [2] ∧ (∀ x ∈ m, x = 0) ∧ (s.latent = [] → m = []))
    ∧ ∀ n, (s.thr n).occupied = true → (s.thr n).lc.job.ctx ≠ ctx → (t.thr n).occupied = true
        ∧ (t.thr n).lc.g = (s.thr n).lc.g ∧ (t.thr n).lc.pc = (s.thr n).lc.pc

/-- TRAP n always delivers SOFT with TVAL n, TPC P + 4 and VSTART as it stands. TRET with TACT 1 clears TACT and
passes control to TPC at S when PPRV is 1, else at U, changing nothing else of the architecture; with TACT 0 it
raises ILLEGAL with its word. -/
def Obligations.TrapInstructions : Prop :=
  ∀ (f : CF) (s : State),
    exec (.trap f) s = .next (s.deliver ⟨.soft, f.csr.setWidth 64, 0, s.lc.pc + 4, s.lc.vstart⟩)
    ∧ (s.lc.tact = true → exec (.tret f) s = .next (s.setLc { s.lc with
        tact := false, atRtvec := false, level := if s.lc.pprv then .s else .u, pc := s.lc.tpc }))
    ∧ (s.lc.tact = false →
        exec (.tret f) s = .next (s.deliver ⟨.illegal, (encode (.tret f)).setWidth 64, 0, s.lc.pc, s.lc.vstart⟩))

/-- WFE with EVF 1 clears it and goes on, and with EVF 0 waits with nothing changed but what the thread waits for.
PAUSE only advances the pc. SEV, with no pending token in its register, goes on and sets EVF exactly in the
occupied threads and the saved logical cores of the same launch whose LCORE is g[a], in all of the launch when
g[a] is all ones; no other field of any of them changes, and memory stays. -/
def Obligations.EventAndPauseResults : Prop :=
  (∀ (f : CF) (s : State), (s.lc.evf = true → exec (.wfe f) s = .next (s.setLc { s.lc with evf := false, pc := s.lc.pc + 4 }))
    ∧ (s.lc.evf = false → exec (.wfe f) s = .next (s.setLc { s.lc with waitFor := .other }))
    ∧ exec (.pause f) s = .next (s.setLc { s.lc with pc := s.lc.pc + 4 }))
  ∧ ∀ (f : CF) (s : State), s.Free [f.a] →
    let named (c : LCore) : Prop :=
      c.job.launch = s.lc.job.launch ∧ (s.lc.rd f.a = BitVec.allOnes 64 ∨ (s.lc.rd f.a).toNat = c.job.lcore)
    ∃ t : State, exec (.sev f) s = .next t ∧ t.lc.pc = s.lc.pc + 4 ∧ t.mem = s.mem
      ∧ (∀ n, ((s.thr n).occupied = true ∧ named (s.thr n).lc → (t.thr n).lc.evf = true)
          ∧ (¬ ((s.thr n).occupied = true ∧ named (s.thr n).lc) → (t.thr n).lc.evf = (s.thr n).lc.evf)
          ∧ { (t.thr n).lc with evf := (s.thr n).lc.evf, pc := (s.thr n).lc.pc, unseen := (s.thr n).lc.unseen } = (s.thr n).lc)
      ∧ t.saved.length = s.saved.length
      ∧ ∀ (k : Nat) (x y : SavedLc), s.saved[k]? = some x → t.saved[k]? = some y →
          (named x.lc → y.lc.evf = true) ∧ (¬ named x.lc → y.lc.evf = x.lc.evf)
          ∧ { y with lc := { y.lc with evf := x.lc.evf } } = x

/-- With nothing of the thread still to complete, and no pending token among its registers: CSRRD, and CSRSET and
CSRCLR with a = 0, give d the CSR; CSRWR, CSRSET and CSRCLR with a not 0 give d the old value and write g[a],
old | g[a] or old & ~g[a] into the writable fields of a CSR that has any. At U any access to SSCR or TFWD raises
PRIV; a write of a CSR with no writable field at the level raises ILLEGAL, both with TVAL the word and nothing
written. Writing TFWD at S gives d 0 and makes the thread it names abandon its S code. -/
def Obligations.CsrReadsAndWrites : Prop :=
  ∀ (f : CF) (s : State), s.notDrained = false →
    let a := f.csr.toNat
    let u := s.seen [f.d, f.a]
    let denied : Prop := s.lc.level = .u ∧ (a = 0x045 ∨ a = 0x046)
    let old := s.csrRead a
    let writers : List (Instr × (Word → Word)) :=
      (.csrwr f, fun x => x) :: (if f.a = 0 then [] else [(.csrset f, fun x => old ||| x), (.csrclr f, fun x => old &&& ~~~x)])
    let readers : List Instr := .csrrd f :: (if f.a = 0 then [.csrset f, .csrclr f] else [])
    (denied → ∀ i ∈ readers ++ writers.map (·.1),
      exec i s = .next (s.deliver ⟨.priv, (encode i).setWidth 64, 0, s.lc.pc, s.lc.vstart⟩))
    ∧ (¬ denied → (∀ p ∈ writers, csrMask s.lc.level a = 0 →
        exec p.1 s = .next (s.deliver ⟨.illegal, (encode p.1).setWidth 64, 0, s.lc.pc, s.lc.vstart⟩))
      ∧ (s.Free [f.d, f.a] → (∀ i ∈ readers, exec i s = .next (u.put f.d old))
        ∧ ∀ p ∈ writers, csrMask s.lc.level a ≠ 0 →
          (a ≠ 0x046 → exec p.1 s = .next ((u.csrWrite a (p.2 (s.lc.rd f.a))).put f.d old))
          ∧ (a = 0x046 → exec p.1 s = .next ((u.put f.d 0).forward ((p.2 (s.lc.rd f.a)).toNat % 1024)))))

/-- For every CSR address of the map and every level: after a write of a value, the CSR reads the value in its
writable fields and what it read before in the others, every other CSR of the map but TFWD reads as before, the
level, the g and vector registers and the pc are unchanged, and so is everything outside the thread. -/
def Obligations.CsrWriteReadsBack : Prop :=
  ∀ (s : State) (a : BitVec 12) (x : Word), csrNamed a = true → a ≠ 0x046 →
    let m := csrMask s.lc.level a.toNat
    let t := s.csrWrite a.toNat x
    t.csrRead a.toNat = (s.csrRead a.toNat &&& ~~~m) ||| (x &&& m)
    ∧ (∀ b : BitVec 12, csrNamed b = true → b ≠ a → t.csrRead b.toNat = s.csrRead b.toNat)
    ∧ t.lc.level = s.lc.level ∧ t.lc.g = s.lc.g ∧ t.lc.v = s.lc.v ∧ t.lc.pc = s.lc.pc
    ∧ { t with threads := s.threads } = s ∧ ∀ n, n ≠ s.cur → t.thr n = s.thr n

/-- While an element that VSTP has pushed is on its way to memory, on a stream that goes on by itself (log entry 6),
BARR, and BARW before its arrival, wait: they are releases (R185, R189). Else, when no pending token is among
its registers and its access reaches the barrier at b, with the arrived count below 2^32 − 1 and memory
canonical: BARR answers a next state in which the barrier has had the arrival (with the expected count at least
1 and reached, the phase advances by 1 and the arrived count and map are 0; else the count rises by 1), d holds
the phase read before, the pc is at the next word, and every byte outside the 64 of the object reads as in the
state that performs. BARW with no arrival of its own outstanding, on a thread that is not marked, arrives
likewise; when its arrival completes the phase it goes on at once with d holding the phase read and BWP 0. When
it does not, and the phase is not one that the test of R247 found unable to complete, the thread waits for the
phase that its arrival read, at the same pc, with d holding that phase unless d is a (log entry 23); when it is,
the same arrival is made and BUNREACH delivered with the barrier address. Where the launch is stalled by this
wait, the scheduler looks after it (SchedulerSteps); the clause is for one with another logical core running. -/
def Obligations.BarrierArrival : Prop :=
  (∀ (f : SF) (s : State), s.Free [f.d, f.a] → s.owes = true →
    let u := s.seen [f.d, f.a]
    exec (.barr f) s = .next (u.setLc { u.lc with waitFor := .other })
    ∧ (s.lc.bwp = false → s.lc.barw = none → exec (.barw f) s = .next (u.setLc { u.lc with waitFor := .other })))
  ∧ ∀ (f : SF) (s v : State) (b : Nat), s.Free [f.d, f.a] → s.owes = false → (s.seen [f.d, f.a]).AtBarrier .rmw (s.lc.rd f.a) b v →
    v.barArr b + 1 < 2 ^ 32 → Memory.wf s.mem = true →
    (∃ t : State, exec (.barr f) s = .next t ∧ v.Arrived t b ∧ (f.d ≠ 0 → t.lc.rd f.d = (v.barPhase b).setWidth 64)
      ∧ v.lc.OtherRegs t.lc f.d ∧ t.lc.pc = s.lc.pc + 4 ∧ v.MemoryOutside t (keysFrom b 64))
    ∧ (s.lc.bwp = false → s.lc.barw = none → s.lc.unreachMark = false → s.lc.waitFor = .none →
      let ph := v.barPhase b
      let a := v.arrive b ((v.lc.barriers.find? (·.home == b)).map (·.slot))
      (1 ≤ v.barExp b → v.barExp b ≤ v.barArr b + 1 →
        ∃ t : State, exec (.barw f) s = .next t ∧ v.Arrived t b ∧ (f.d ≠ 0 → t.lc.rd f.d = ph.setWidth 64)
          ∧ v.lc.OtherRegs t.lc f.d ∧ t.lc.pc = s.lc.pc + 4 ∧ t.lc.bwp = false ∧ t.lc.barw = none
          ∧ v.MemoryOutside t (keysFrom b 64))
      ∧ (¬ (1 ≤ v.barExp b ∧ v.barExp b ≤ v.barArr b + 1) → (b, ph) ∉ a.unreach ∨ a.barStuck b = false →
        (∀ l ∈ s.launches, l.seq ≠ s.lc.job.launch) ∨ s.RunsElse s.lc.job.launch →
        ∃ t : State, exec (.barw f) s = .next t ∧ v.Arrived t b ∧ (f.d ≠ 0 → f.d ≠ f.a → t.lc.rd f.d = ph.setWidth 64)
          ∧ (f.d = f.a → t.lc.g = v.lc.g) ∧ v.lc.OtherRegs t.lc f.d ∧ t.lc.pc = s.lc.pc ∧ t.lc.barw = some ph
          ∧ t.lc.waitFor = .barw b ph ∧ v.MemoryOutside t (keysFrom b 64))
      ∧ (¬ (1 ≤ v.barExp b ∧ v.barExp b ≤ v.barArr b + 1) → (b, ph) ∈ a.unreach → a.barStuck b = true →
        ∃ w : State, exec (.barw f) s = .next (w.deliver ⟨.bunreach, s.lc.rd f.a, 0, s.lc.pc, s.lc.vstart⟩)
          ∧ v.Arrived w b ∧ w.lc.barw = some ph ∧ v.MemoryOutside w (keysFrom b 64)))

/-- While an element that VSTP has pushed is on its way to memory, on a stream that goes on by itself (log entry 6),
both wait (ar order, R191). Else, when no pending token is in g[a], memory is canonical and the access reaches
the barrier at b: BJOIN by a logical core that is not a member, with a free slot and fewer than eight
memberships, answers a next state in which the registered count, and the expected count of a registration-
derived barrier, are 1 more (modulo 2^32), the slot is the lowest free one, and the membership is kept; with no
free slot or eight memberships it raises BOUNDS with the barrier address. BJOIN by a member and BLEAVE by a non-
member only go on. BLEAVE by a member removes the membership; the registered count, and the expected count of a
registration-derived barrier, are 1 less, its slot is free and no longer noted as arrived, its arrival stays
counted, and where the arrived count now reaches an expected count of at least 1 the phase completes: it
advances by 1, the arrived count and map are 0. Every byte outside the 64 of the object reads as in the state
that performs. -/
def Obligations.BarrierMembership : Prop :=
  (∀ (f : SF) (s : State), s.Free [f.a] → s.owes = true → ∀ i ∈ [Instr.bjoin f, .bleave f],
    let u := s.seen [f.a]
    exec i s = .next (u.setLc { u.lc with waitFor := .other }))
  ∧ ∀ (f : SF) (s v : State) (b : Nat), s.Free [f.a] → s.owes = false → Memory.wf s.mem = true → (s.seen [f.a]).AtBarrier .rmw (s.lc.rd f.a) b v →
    let goes (i : Instr) (p : State → Prop) : Prop :=
      ∃ t : State, exec i s = .next t ∧ t.lc.pc = s.lc.pc + 4 ∧ t.lc.g = v.lc.g ∧ v.MemoryOutside t (keysFrom b 64) ∧ p t
    ((∃ m ∈ s.lc.barriers, m.home = b) → goes (.bjoin f) fun t => t.mem = v.mem ∧ t.lc.barriers = s.lc.barriers)
    ∧ ((∀ m ∈ s.lc.barriers, m.home ≠ b) →
        (∀ slot, slot < 128 → (v.barSlots b).getLsbD slot = false → (∀ j, j < slot → (v.barSlots b).getLsbD j = true) →
          s.lc.barriers.length < 8 → goes (.bjoin f) fun t =>
            t.lc.barriers = s.lc.barriers ++ [⟨s.lc.rd f.a, b, slot⟩] ∧ t.barReg b = (v.barReg b + 1) % 2 ^ 32
            ∧ t.barExp b = (if v.barExplicit b then v.barExp b else (v.barExp b + 1) % 2 ^ 32)
            ∧ t.barSlots b = v.barSlots b ||| BitVec.ofNat 128 (2 ^ slot))
        ∧ (v.barSlots b = BitVec.allOnes 128 ∨ 8 ≤ s.lc.barriers.length →
            exec (.bjoin f) s = .next (v.deliver ⟨.bounds, s.lc.rd f.a, 0, s.lc.pc, s.lc.vstart⟩))
        ∧ goes (.bleave f) fun t => t.mem = v.mem ∧ t.lc.barriers = s.lc.barriers)
    ∧ (∀ m, s.lc.barriers.find? (·.home == b) = some m →
        let expected := if v.barExplicit b then v.barExp b else v.barReg b - 1
        let others := ~~~ BitVec.ofNat 128 (2 ^ m.slot)
        goes (.bleave f) fun t => t.lc.barriers = s.lc.barriers.filter (·.home != b) ∧ t.barReg b = v.barReg b - 1
          ∧ t.barExp b = expected ∧ t.barSlots b = v.barSlots b &&& others
          ∧ (1 ≤ expected ∧ expected ≤ v.barArr b → t.barPhase b = v.barPhase b + 1 ∧ t.barArr b = 0 ∧ t.barArrived b = 0)
          ∧ (¬ (1 ≤ expected ∧ expected ≤ v.barArr b) →
              t.barPhase b = v.barPhase b ∧ t.barArr b = v.barArr b ∧ t.barArrived b = v.barArrived b &&& others))

/-- When no pending token is among the registers and the access reaches the barrier: BWAIT, and a BARW that has
arrived, on a thread that is not marked, go on when the phase differs from g[b], or from the phase of the
arrival (d then holds that phase, BWP is 0). When it does not differ, they raise BUNREACH with the barrier
address if they are not yet waiting for it, the test of R247 has found this phase unable to complete and it
still is, and else wait for the phase, with nothing changed: for one that is already waiting no test is made
(R246). A marked thread raises BUNREACH. BTEST always completes: d is 1 exactly when bit 0 of the phase differs
from bit 0 of g[b]. WAITC completes when the counter read is at least g[b], else the thread waits for it; each
read of it, and each of the others, leaves nothing of the core in the scalar data cache. Memory stays as in the
state that performs. -/
def Obligations.BarrierWaits : Prop :=
  ∀ (f : SF) (s : State),
    let addr := s.lc.rd f.a
    let empty (t : State) : Prop := ∀ x ∈ t.dcache, x.1 / 2 ^ 64 ≠ s.core
    let goes (i : Instr) (v : State) (p : State → Prop) : Prop :=
      ∃ t : State, exec i s = .next t ∧ t.lc.pc = s.lc.pc + 4 ∧ t.mem = v.mem ∧ empty t ∧ p t
    let bad (i : Instr) (v : State) : Prop := exec i s = .next (v.deliver ⟨.bunreach, addr, 0, s.lc.pc, s.lc.vstart⟩)
    let waits (i : Instr) (v : State) (b : Nat) (ph : BitVec 32) (w : WaitFor) (p : State → Prop) : Prop :=
      let already : Prop := s.lc.waitFor = .bwait b ph ∨ s.lc.waitFor = .barw b ph
      (v.lc.unreachMark = true → bad i v)
      ∧ (v.lc.unreachMark = false →
        (v.barPhase b ≠ ph → goes i v fun t => p t ∧ t.lc.waitFor = .none)
        ∧ (v.barPhase b = ph → (b, ph) ∈ v.unreach → v.barStuck b = true → ¬ already → bad i v)
        ∧ (v.barPhase b = ph → (b, ph) ∉ v.unreach ∨ v.barStuck b = false ∨ already → s.Waits v i w))
    (∀ (v : State) (b : Nat), s.Free [f.a, f.b] → (s.seen [f.a, f.b]).AtBarrier .read addr b v →
      let ph : BitVec 32 := (s.lc.rd f.b).setWidth 32
      waits (.bwait f) v b ph (.bwait b ph) fun t => t.lc.g = s.lc.g)
    ∧ (∀ (v : State) (b : Nat) (ph : BitVec 32), s.Free [f.d, f.a] → (s.seen [f.d, f.a]).AtBarrier .rmw addr b v →
        (if s.lc.bwp then some s.lc.wphase else s.lc.barw) = some ph →
        waits (.barw f) v b ph (.barw b ph) fun t => (f.d ≠ 0 → t.lc.rd f.d = ph.setWidth 64) ∧ t.lc.bwp = false
          ∧ t.lc.barw = none ∧ s.lc.OtherRegs t.lc f.d)
    ∧ (∀ (v : State) (b : Nat), s.Free [f.d, f.a, f.b] → (s.seen [f.d, f.a, f.b]).AtBarrier .read addr b v →
        goes (.btest f) v fun t => s.lc.OtherRegs t.lc f.d
          ∧ (f.d ≠ 0 → t.lc.rd f.d = if (v.barPhase b).getLsbD 0 = (s.lc.rd f.b).getLsbD 0 then 0 else 1))
    ∧ ∀ (u v : State) (l : List ByteAt) (x : List Byte), s.Free [f.a, f.b] →
        (s.seen [f.a, f.b]).scalarAccess .vectorAtomic .read addr 8 = (u, .ok l) → u.load l = (v, .ok x) →
        ((s.lc.rd f.b).toNat ≤ leNat x → goes (.waitc f) v fun t => t.lc.g = s.lc.g)
        ∧ (leNat x < (s.lc.rd f.b).toNat →
            s.Waits (v.dropCache v.core) (.waitc f) (.waitc (((l.map (·.key)).head?).getD 0) (s.lc.rd f.b)))

/-- TEND with TACT 1 raises ILLEGAL. With another folio owned, it starts it: the pc is the entry point, g1 the
argument address, g2 the first point, g3 the number of points, g4 to g7 the counts of the levels, FOLIO the
folio number, and every other register stays. At DLVL 0, with its last folio run, and two folios or more not
started with the logical core that has most of them, the upper half of these moves to it and its first starts in
the same way. At a DLVL other than 0, with its last folio run, nothing still to complete and in no barrier, the
thread falls idle, SSCR stays, no other thread and no byte of memory changes, and of every launch list entry
with its number one more logical core has ended, when this is not the last and another one of the launch runs;
with the last, and no counter to signal, the launch is gone, one event stamped. -/
def Obligations.FolioEnds : Prop :=
  ∀ (f : CF) (s : State),
    let c := s.lc
    let n := c.folio + 1
    let starts (t : State) (k : Nat) : Prop :=
      t.lc.rd 1 = c.job.args ∧ t.lc.rd 2 = BitVec.ofNat 64 (k * c.job.folen)
        ∧ t.lc.rd 3 = BitVec.ofNat 64 (min ((k + 1) * c.job.folen) c.job.points - k * c.job.folen)
        ∧ (∀ j, j < 4 → t.lc.rd (BitVec.ofNat 5 (4 + j)) = BitVec.ofNat 64 (c.job.counts.getD j 0))
        ∧ { t.lc with g := c.g, folio := c.folio, folioEnd := c.folioEnd, pc := c.pc } = c ∧ t.lc.folio = k ∧ t.lc.pc = c.job.entry
        ∧ ∀ r : Reg, r = 0 ∨ 8 ≤ r.toNat → t.lc.rd r = c.rd r
    (c.tact = true → exec (.tend f) s = .next (s.deliver ⟨.illegal, (encode (.tend f)).setWidth 64, 0, c.pc, c.vstart⟩))
    ∧ (c.tact = false → n < c.folioEnd → ∃ t : State, exec (.tend f) s = .next t ∧ { t with threads := s.threads } = s
        ∧ starts t n ∧ t.lc.folioEnd = c.folioEnd)
    ∧ (∀ (w : Seat) (k : Nat), c.tact = false → c.folioEnd ≤ n → c.job.dlvl = 0 → s.dealer = some (w, k) → 2 ≤ k → w ≠ .thread s.cur →
        ∃ t : State, exec (.tend f) s = .next t ∧ starts t ((s.seated w).folioEnd - k / 2) ∧ t.lc.folioEnd = (s.seated w).folioEnd
          ∧ t.seated w = { s.seated w with folioEnd := (s.seated w).folioEnd - k / 2 } ∧ t.mem = s.mem)
    ∧ ∀ l : Launch, c.tact = false → c.folioEnd ≤ n → c.job.dlvl ≠ 0 → s.notDrained = false → s.enginesBusy true true = false →
        c.barriers = [] → s.launch? c.job.launch = some l →
        let gone (t : State) : Prop := (t.thr s.cur).occupied = false ∧ (t.thr s.cur).sscr = (s.thr s.cur).sscr ∧ t.mem = s.mem
          ∧ (∀ m, m ≠ s.cur → t.thr m = s.thr m) ∧ t.saved = s.saved
        (l.ended + 1 < l.size → s.RunsElse l.seq → ∃ t : State, exec (.tend f) s = .next t ∧ gone t ∧ t.seq = s.seq
          ∧ t.launches = s.launches.map fun m => if m.seq == l.seq then { m with ended := m.ended + 1 } else m)
        ∧ (l.size ≤ l.ended + 1 → l.sig = none → ∃ t : State, exec (.tend f) s = .next t ∧ gone t ∧ t.seq = s.seq + 1
          ∧ t.launches.map (·.seq) = (s.launches.map (·.seq)).filter (· != l.seq))

/-- Whatever it answers, the translation of one address changes nothing of the device but the TLBs, the free-value
counter of their replacement, what the words that its walk reads meet of errors (nothing where no error is
present), and, where memory is canonical, at most the 8 bytes of one leaf: the leaf that the walk of the address
reaches, in which A becomes 1, and D too for a write or an atomic; or the leaf of an entry of the TLB bank, or
of the second level, that maps the address, in which D becomes 1 for a write or an atomic. -/
def Obligations.TranslationEffects : Prop :=
  ∀ (s u : State) (bank : Nat) (who : Who) (cls : AccClass) (acc : Acc) (va : Word) (r : Except Stop Place),
    s.xlate bank who cls acc va = (u, r) →
    { u with mem := s.mem, tlb := s.tlb, fresh := s.fresh, poison := s.poison, latent := s.latent, host := s.host, seq := s.seq,
             msix := s.msix, bondCounts := s.bondCounts } = s
    ∧ (s.latent = [] → { u with mem := s.mem, tlb := s.tlb, fresh := s.fresh } = s)
    ∧ (Memory.wf s.mem = true → u.mem = s.mem ∨ ∃ (key : Nat) (m : Word), s.MemoryOutside u (keysFrom key 8)
        ∧ BitVec.ofNat 64 (u.num key 8) = BitVec.ofNat 64 (s.num key 8) ||| m
        ∧ ((∃ l : Leaf, (s.walk who.ctx va).2 = .ok l ∧ l.key = key ∧ m = if acc = .write ∨ acc = .rmw then 0x60 else 0x20)
          ∨ ∃ e ∈ s.tlb, who.core = some e.core ∧ (e.bank = bank ∨ e.bank = tlb2) ∧ e.ctx = who.ctx
              ∧ va.toNat / 2 ^ e.shift = e.vpn ∧ e.leaf = key ∧ (acc = .write ∨ acc = .rmw) ∧ m = 0x40))

/-- With no pending token among its registers, every scalar load, store, LDACQ, STREL and atomic whose address has a
bit at or above 51 traps (a release: once nothing that VSTP has pushed is on its way to memory,
ScalarAtomicResults) with BOUNDS, and otherwise, whose address is no multiple of its size, with MISALIGN: TVAL
the address, TPC at the instruction, VSTART as it stands, nothing loaded or stored. -/
def Obligations.ScalarAccessTraps : Prop :=
  ∀ (s : State),
    let first (f : AF) (i : Instr) : Prop := (i = .strel f ∨ (i ≠ .ldacq f ∧ f.succ.getLsbD 1 = true)) → s.owes = false
    let out (i : Instr) (gs : List Reg) (addr : Word) (n : Nat) : Prop := s.Free gs →
      (2 ^ 51 ≤ addr.toNat →
        exec i s = .next ((s.seen gs).deliver ⟨.bounds, addr, 0, s.lc.pc, s.lc.vstart⟩))
      ∧ (addr.toNat < 2 ^ 51 → addr.toNat % n ≠ 0 →
        exec i s = .next ((s.seen gs).deliver ⟨.misalign, addr, 0, s.lc.pc, s.lc.vstart⟩))
    (∀ f : IF, (∀ p ∈ loadRules f, out p.1 [f.d, f.a] (s.lc.rd f.a + BitVec.ofInt 64 f.imm.toInt) p.2.1)
      ∧ ∀ p ∈ storeRules f, out p.1 [f.d, f.a] (s.lc.rd f.a + BitVec.ofInt 64 f.imm.toInt) p.2)
    ∧ ∀ f : AF, ∀ i ∈ [Instr.ldacq f, .strel f, .amoadd f, .amoswp f, .amocas f, .amomin f, .amomax f, .amoand f, .amoor f],
        first f i → out i [f.d, f.a, f.b] (s.lc.rd f.a) 8

/-- With no pending token among its registers, a scalar load whose access translates and meets no poison answers the
next state in which d holds the little-endian number of its bytes, each taken from the data cache of the core
where it holds the byte, else from memory, sign- or zero-extended; memory and every other register stay, and the
pc is at the next word. -/
def Obligations.ScalarLoadResults : Prop :=
  ∀ (f : IF) (p : Instr × Nat × Bool), p ∈ loadRules f → ∀ (s u v : State) (l : List ByteAt) (b : List Byte),
    s.Free [f.d, f.a] →
    (s.seen [f.d, f.a]).scalarAccess .plain .read (s.lc.rd f.a + BitVec.ofInt 64 f.imm.toInt) p.2.1 = (u, .ok l) →
    u.loadPlain l = (v, some b) →
    exec p.1 s = .next (v.put f.d
      (if p.2.2 then BitVec.ofInt 64 (signedOf (8 * p.2.1) (leNat b)) else BitVec.ofNat 64 (leNat b)))
    ∧ b = l.map (fun x => (Cells.get? v.dcache (cacheKey v.core x.key)).getD (Memory.get v.mem x.key))
    ∧ v.mem = u.mem ∧ v.lc = u.lc ∧ { u.lc with unseen := s.lc.unseen } = s.lc

/-- With no pending token among its registers, a scalar store whose access translates answers a next state whose
memory is that of the translation with the low bytes of d, least significant first, at the bytes of the address:
every byte outside them reads as before the store. No register changes but the pc, and the copies of those bytes
in the data cache of the core are updated. Beside the thread, the errors of the words that the store meets and
what was found of a barrier that it makes anew (log entry 103: the model's reading) nothing else of the device
differs; with no error present, only the words written whole lose their poison. -/
def Obligations.ScalarStoreResults : Prop :=
  ∀ (f : IF) (p : Instr × Nat), p ∈ storeRules f → ∀ (s u : State) (l : List ByteAt), s.Free [f.d, f.a] →
    (s.seen [f.d, f.a]).scalarAccess .plain .write (s.lc.rd f.a + BitVec.ofInt 64 f.imm.toInt) p.2 = (u, .ok l) →
    ∃ t : State, exec p.1 s = .next t
      ∧ t.mem = Memory.putAll u.mem ((l.map (·.key)).zip (leBytes p.2 (s.lc.rd f.d).toNat))
      ∧ u.MemoryOutside t (l.map (·.key)) ∧ t.lc = { u.lc with pc := s.lc.pc + 4 }
      ∧ { u.lc with unseen := s.lc.unseen } = s.lc
      ∧ (∀ n, n ≠ u.cur → t.thr n = u.thr n)
      ∧ { t with threads := u.threads, mem := u.mem, dcache := u.dcache, poison := u.poison, latent := u.latent, host := u.host,
                 seq := u.seq, msix := u.msix, bondCounts := u.bondCounts, unreach := u.unreach } = u
      ∧ (u.latent = [] → { t with threads := u.threads, mem := u.mem, dcache := u.dcache, poison := u.poison, unreach := u.unreach } = u
          ∧ t.poison = u.poison.filter (!(wholeWords (l.map (·.key))).contains ·))
      ∧ ∀ k x, (k, x) ∈ (l.map (·.key)).zip (leBytes p.2 (s.lc.rd f.d).toNat) → (l.map (·.key)).Nodup →
          (Cells.get? u.dcache (cacheKey u.core k)).isSome = true → Cells.get? t.dcache (cacheKey t.core k) = some x

/-- With no pending token among its registers, and its access translated and free of poison: AMOADD, AMOSWP, AMOMIN,
AMOMAX, AMOAND and AMOOR give d the old value of the cell and write the new value of R151; AMOCAS writes g[b]
only when the old value is g[d], read before d is written; LDACQ writes nothing; STREL writes g[b] and no
register. Every byte outside the cell reads as before, every other register is unchanged, and the pc is at the
next word. A release (STREL, and rel and ar) waits while an element that VSTP has pushed is on its way to
memory, on a stream that goes on by itself (log entry 6). The access leaves none of its bytes in the scalar data
cache of the core; LDACQ, a success order with acquire (acq, ar), and the failure order facq of an AMOCAS that
fails leave nothing of the core in it. -/
def Obligations.ScalarAtomicResults : Prop :=
  (∀ (f : AF) (s : State), s.Free [f.d, f.a, f.b] → s.owes = true →
    ∀ i, i = .strel f ∨ (f.succ.getLsbD 1 = true ∧ (i = .amocas f ∨ ∃ p ∈ atomicRules f, p.1 = i)) →
    let u := s.seen [f.d, f.a, f.b]
    exec i s = .next (u.setLc { u.lc with waitFor := .other }))
  ∧ ∀ (f : AF) (s u v : State) (l : List ByteAt) (b : List Byte), s.Free [f.d, f.a, f.b] →
    let ks := l.map (·.key)
    let old := BitVec.ofNat 64 (leNat b)
    let x := s.lc.rd f.b
    let stored (t : State) (n : Word) : Prop := t.mem = Memory.putAll v.mem (ks.zip (leBytes 8 n.toNat)) ∧ v.MemoryOutside t ks
    let goes (i : Instr) (d : Reg) (acquire : Bool) (p : State → Prop) : Prop := ∃ t : State, exec i s = .next t ∧ t.lc.pc = s.lc.pc + 4
      ∧ (∀ k ∈ ks, Cells.get? t.dcache (cacheKey s.core k) = none) ∧ (acquire = true → ∀ z ∈ t.dcache, z.1 / 2 ^ 64 ≠ s.core)
      ∧ (∀ z, z.1 / 2 ^ 64 ≠ s.core → (z ∈ t.dcache ↔ z ∈ v.dcache))
      ∧ (d ≠ 0 → t.lc.rd d = old) ∧ v.lc.OtherRegs t.lc d ∧ { t.lc with g := v.lc.g, pc := v.lc.pc } = v.lc ∧ p t
    let reached (acc : Acc) : Prop :=
      (s.seen [f.d, f.a, f.b]).scalarAccess .scalarAtomic acc (s.lc.rd f.a) 8 = (u, .ok l)
    b.length = 8 → (∀ k ∈ ks, k < 2 ^ 64) →
    (reached .rmw → (f.succ.getLsbD 1 = true → s.owes = false) → u.read ks = (v, some b) →
      (∀ p ∈ atomicRules f, goes p.1 f.d (f.succ.getLsbD 0) fun t => stored t (p.2 old x (s.lc.rd f.d)))
      ∧ goes (.amocas f) f.d (if old = s.lc.rd f.d then f.succ.getLsbD 0 else f.fail == 1) fun t => if old = s.lc.rd f.d then stored t x else t.mem = v.mem)
    ∧ (reached .read → u.read ks = (v, some b) → goes (.ldacq f) f.d true fun t => t.mem = v.mem)
    ∧ (reached .write → s.owes = false → v = u → goes (.strel f) 0 false fun t => stored t x)

/-- FENCE that selects engines, while a command of the thread is still to perform accesses of the selected classes,
waits; so does one that orders earlier stores, at CORE scope or wider before later loads or stores, or before
instruction fetch, while an element that VSTP has pushed is on its way to memory, on a stream that goes on by
itself (log entry 6). Otherwise it goes on: memory stays, no register changes but the pc; when later loads are
selected at CORE scope or wider the data cache of the core is empty, and when instruction fetch is selected its
instruction cache is empty; else the caches stay, and those of other cores always. -/
def Obligations.FenceResults : Prop :=
  ∀ (f : IF) (s : State),
    let busy : Prop := (f.imm.getLsbD 7 = true ∧ s.enginesBusy (f.imm.getLsbD 3) (f.imm.getLsbD 4) = true)
      ∨ (f.imm.getLsbD 4 = true ∧ s.owes = true
        ∧ (f.imm.getLsbD 8 = true ∨ (1 ≤ f.imm.toNat % 8 ∧ (f.imm.getLsbD 5 = true ∨ f.imm.getLsbD 6 = true))))
    (busy → exec (.fence f) s = .next (s.setLc { s.lc with waitFor := .other }))
    ∧ (¬ busy → ∃ t : State, exec (.fence f) s = .next t ∧ t.lc = { s.lc with pc := s.lc.pc + 4 }
      ∧ { t with threads := s.threads, dcache := s.dcache, icache := s.icache } = s
      ∧ (∀ n, n ≠ s.cur → t.thr n = s.thr n)
      ∧ (if f.imm.getLsbD 5 = true ∧ 1 ≤ f.imm.toNat % 8 then
          (∀ c ∈ t.dcache, c.1 / 2 ^ 64 ≠ s.core) ∧ (∀ c, c.1 / 2 ^ 64 ≠ s.core → (c ∈ t.dcache ↔ c ∈ s.dcache))
        else t.dcache = s.dcache)
      ∧ (if f.imm.getLsbD 8 = true then
          (∀ c ∈ t.icache, c.1 / 2 ^ 64 ≠ s.core) ∧ (∀ c, c.1 / 2 ^ 64 ≠ s.core → (c ∈ t.icache ↔ c ∈ s.icache))
        else t.icache = s.icache))

/-- A well-formed vector load (VLD, VLDS, VLDX, VLDT, VLDFF, VLDV) that issues alone, whose accesses all translate
and meet no poison (its plan, from the addresses of R156, runs to a VL), answers a next state in which each
active element from VSTART below that VL holds the value of the bytes of its place in its format (R131, R132,
R137: integers extended, floating values and E2M1B elements rounded once to the register format, a NaN
canonical, raw bits as they are); for a shape record, a point out of range holds FILL, and the bit of the
completion mask that the record names tells the two apart. Every other element of the group, the vector
registers where no element below VL lies, the other masks and mask bits, every g register, the other threads and
every byte of memory read as the plan left them; FFLAGS gains the flags of the conversions; the pc is at the
next word, VSTART is 0 and VL is the one of the plan. With no packet of the thread under way the plan itself
changes only what translation and reads change (TLBs, A and D bits, errors met), every active element that has
an address has its place, and the bytes of an element are those of memory at its place. Element e lies, for VLD
and its forms, in the row at the base: its own whole bytes, byte floor(e/2) or the 3 bytes from 3·floor(e/4) of
a 4- or 6-bit format, or its code byte and bytes 16 and 17 of its E2M1B block; for VLDS at e times g[x], for
VLDX at element e of the index; for VLDT as R163 walks the record. -/
def Obligations.VectorLoadResults : Prop :=
  ∀ (f : VMF) (i : Instr), i ∈ vectorLoads f → ∀ (s v : State) (x : Member) (o : VMemOp) (vl : Nat)
      (places : List (Nat × List Nat)) (data : List (Nat × List Byte)),
    i.wf = true → s.Issues i x → memOp s.lc none i = some o →
    let u := s.seen x.gs
    u.vmemPlan o u.lc = (v, .run vl none places data) →
    let c := v.lc
    let act := c.activeIn f.m c.vstart.toNat vl
    let names (y : Shape) (k : Nat) : Prop := o.mode = .shape y ∧ y.cmen = true ∧ y.cmk = k
    (∃ t : State, exec i s = .next t ∧ t.mem = v.mem ∧ v.SameDevice t ∧ t.lc.g = c.g ∧ t.lc.pc = c.pc + 4 ∧ t.lc.vstart = 0
      ∧ t.lc.vl = vl
      ∧ { t.lc with v := c.v, vext := c.vext, k := c.k, ksm := c.ksm, kext := c.kext, pc := c.pc, vl := c.vl,
                    vstart := c.vstart, fflags := c.fflags } = c
      ∧ t.lc.fflags = c.fflags ||| act.foldl (fun a e => a ||| (((FMap.get? data e).map fun b => (o.ofBytes c (o.bitOf c e) b).2)).getD 0) 0
      ∧ (∀ r, r < f.d.toNat ∨ f.d.toNat * 16384 + vl * Vtype.c c.vtype ≤ r * 16384 → t.lc.vreg r = c.vreg r)
      ∧ (∀ k, k < 9 → (∀ y, ¬ names y k) → t.lc.kreg k = c.kreg k)
      ∧ (∀ y k e, names y k → e < 4096 → t.lc.kbit k e = if e ∈ act then (FMap.get? data e).isSome else c.kbit k e)
      ∧ ∀ e, e < Vtype.vlmax c.vtype →
          (e ∉ act → t.lc.elem f.d.toNat (Vtype.c c.vtype) e = c.elem f.d.toNat (Vtype.c c.vtype) e)
          ∧ (e ∈ act →
              (∀ b, FMap.get? data e = some b →
                t.lc.elem f.d.toNat (Vtype.c c.vtype) e = contained c.sew (o.ofBytes c (o.bitOf c e) b).1)
              ∧ (∀ y, FMap.get? data e = none → o.mode = .shape y →
                t.lc.elem f.d.toNat (Vtype.c c.vtype) e = contained c.sew (fillValue y c.vtype))))
    ∧ ((∀ p ∈ s.spans, p.thr ≠ s.cur) → u.SameButMemory v ∧ v.lc = u.lc
        ∧ data = places.map (fun p => (p.1, p.2.map (Memory.get v.mem)))
        ∧ ∀ e ∈ act, (o.elemAt c e).isSome = true → (FMap.get? places e).isSome = true)
    ∧ o.base = s.lc.rd f.base ∧ (i = .vld f ∨ i = .vldff f ∨ i = .vldv f → o.mode = .unit)
    ∧ (i = .vlds f → o.mode = .strided (s.lc.rd f.x)) ∧ (i = .vldx f → o.mode = .indexed f.x.toNat)
    ∧ (i = .vldt f → o.mode = .shape (s.lc.shape f.x.toNat))
    ∧ ∀ e, o.Lies c e ∧ ∀ b, FMap.get? data e = some b → o.fmt.Loads c.vtype c.frm (o.bitOf c e) b (o.ofBytes c (o.bitOf c e) b)

/-- A well-formed vector store (VST, VSTS, VSTX, VSTT, VSTV, VSTXR) that issues alone and whose accesses all
translate answers the next state that stores its active elements in ascending order over the plan and completes.
In a format of whole bytes the bytes of an element take its code, raw bits as they are, integers saturated,
floating values rounded once and saturated (R137, R138), least significant first; in one of 4 or 6 bits the bits
of the element in its bytes take it, the other bits stay as they then stand; the flags of each conversion join
FFLAGS, a mark sets its bit of the register that SATK names, and a point of a shape record writes its completion
bit. In E2M1B each block with an active element from the resume point on that translates takes the 18 bytes of
EncodeBlock (R133, spelled as `EncodesBlock`) over all its active elements below VL, and those elements raise
its flags. The elements lie as for loads. A VSTXR with an element to perform waits while an element that VSTP
has pushed is on its way to memory, on a stream that goes on by itself (log entry 6). Every byte of memory
outside the places of its elements reads as the plan left it; the vector and g registers stay; the pc is at the
next word and VSTART is 0. With no packet of the thread under way the plan changes only what translation
changes. -/
def Obligations.VectorStoreResults : Prop :=
  (∀ (f : VMF) (s : State) (x : Member), (Instr.vstxr f).wf = true → s.Issues (.vstxr f) x → s.lc.vstart.toNat < s.lc.vl →
    s.owes = true → let u := s.seen x.gs; exec (.vstxr f) s = .next (u.setLc { u.lc with waitFor := .other }))
  ∧ ∀ (f : VMF) (i : Instr), i ∈ vectorStores f → ∀ (s v : State) (x : Member) (o : VMemOp) (vl : Nat)
      (places : List (Nat × List Nat)) (data : List (Nat × List Byte)),
    i.wf = true → s.Issues i x → (i = .vstxr f → s.lc.vstart.toNat < s.lc.vl → s.owes = false) → memOp s.lc none i = some o →
    let u := s.seen x.gs
    u.vmemPlan o u.lc = (v, .run vl none places data) →
    let c := v.lc
    let w := v.fullWindow vl places data (u.recordOf i)
    let t := (o.storeIn w v).finished vl
    let lo := if o.fmt = .e2m1b ∧ c.vstart.toNat < vl then c.vstart.toNat / 32 * 32 else c.vstart.toNat
    let act := c.activeIn f.m lo vl
    let code (e : Nat) : Narrowed := o.fmt.ofReg c.vtype c.frm (c.val f.d.toNat c.sew e)
    let n := o.fmt.width c.sew
    let stored (m : List Host.Cell) (e : Nat) : List Host.Cell :=
      match FMap.get? places e with
      | none => m
      | some ks =>
        let old := leNat (ks.map (Memory.get m))
        let bit := o.bitOf c e
        let new := if o.fmt.dense c.sew then old % 2 ^ bit + (code e).code % 2 ^ n * 2 ^ bit + old / 2 ^ (bit + n) * 2 ^ (bit + n)
          else (code e).code
        Memory.putAll m (ks.zip (leBytes ks.length new))
    let noted (a : LCore) (e : Nat) : LCore :=
      match FMap.get? places e with
      | none => o.complete a e false
      | some _ =>
        let b := a.raise (code e).flags
        o.complete (if (code e).mark ∧ a.satk.getLsbD 3 = true then b.setKbit (a.satk.extractLsb' 0 3).toNat e true else b) e true
    let block (e : Nat) : Nat := (o.blockOf e).1
    let vals (k : Nat) : List (Option FVal) :=
      let mine := (c.activeIn f.m 0 vl).filter fun e => (o.elemAt c e).isSome && block e == k
      (List.range 32).map fun j => (mine.find? fun e => (o.blockOf e).2 == j).map fun e =>
        (Vtype.fmt c.vtype).decode (c.val f.d.toNat c.sew e)
    let coded (k : Nat) : Block := encodeBlock (vals k) c.frm
    let firsts := (act.filter fun e => (FMap.get? places e).isSome).foldl
      (fun (l : List Nat) e => if l.any (block · == block e) then l else l ++ [e]) []
    exec i s = .next t ∧ v.MemoryOutside t (places.flatMap (·.2)) ∧ t.lc.v = c.v ∧ t.lc.g = c.g
      ∧ t.lc.pc = c.pc + 4 ∧ t.lc.vstart = 0 ∧ t.lc.vl = vl
      ∧ (o.fmt ≠ .e2m1b → (∀ p ∈ places, p.2.length ≤ 3 ∨ o.fmt.dense c.sew = false) →
          t.mem = act.foldl stored v.mem ∧ t.lc = { act.foldl noted c with pc := c.pc + 4, vstart := 0, vl := vl })
      ∧ (∀ e, o.fmt.Stores c.vtype c.frm (c.val f.d.toNat c.sew e) (code e))
      ∧ (o.fmt = .e2m1b → t.mem = firsts.foldl (fun m e => Memory.putAll m (((FMap.get? places e).getD []).zip (coded (block e)).bytes)) v.mem
        ∧ t.lc.fflags = (act.filter fun e => (o.elemAt c e).isSome && firsts.any (block · == block e)).foldl
            (fun a e => a ||| (coded (block e)).flags.getD (o.blockOf e).2 0) c.fflags
        ∧ ∀ e ∈ firsts, EncodesBlock (vals (block e)) c.frm (coded (block e)))
      ∧ o.base = s.lc.rd f.base ∧ (∀ e, o.Lies c e) ∧ (i = .vst f ∨ i = .vstv f → o.mode = .unit) ∧ (i = .vsts f → o.mode = .strided (s.lc.rd f.x))
      ∧ (i = .vstx f ∨ i = .vstxr f → o.mode = .indexed f.x.toNat) ∧ (i = .vstt f → o.mode = .shape (s.lc.shape f.x.toNat))
      ∧ ((∀ p ∈ s.spans, p.thr ≠ s.cur) → u.SameButMemory v ∧ v.lc = u.lc
        ∧ ∀ e ∈ act, c.vstart.toNat ≤ e → (o.elemAt c e).isSome = true → (FMap.get? places e).isSome = true)

/-- A well-formed vector atomic that issues alone and whose accesses translate answers the next state that updates
the cell of each active element in ascending order: VAMOADD the sum modulo 2^SEW, VAMOMIN and VAMOMAX the signed
lesser and greater, at FLT = 1 the FP32 operation rounded to nearest even, VAMOSWP the element; every byte
outside their places is as before; VAMOSWP puts the old values, as its cells then stood, on their way to d, the
others write no vector register. VLDXA answers the next state of a gather: each active element takes the bytes
of its place, and bit e of ksm is 1 exactly when its home lies outside the scope named by fmt; every other bit
of ksm and every other mask, the g registers and memory stay; with an acquiring element at CORE scope or wider
nothing of the core remains in the scalar data cache. -/
def Obligations.VectorAtomicResults : Prop :=
  (∀ (f : VMF) (s v : State) (x : Member) (o : VMemOp) (vl : Nat) (places : List (Nat × List Nat)) (data : List (Nat × List Byte))
      (i : Instr) (int float : Nat → Nat → Nat → Nat) (keeps : Bool),
    (i, int, float, keeps) ∈ [(Instr.vamoadd f, (fun n a b => (a + b) % 2 ^ n), (fun _ a b => (Fmt.fp32.fadd a b rne).1), false),
      (.vamomin f, (fun n a b => if signedOf n b < signedOf n a then b else a), (fun _ a b => Fmt.fp32.fmin a b), false),
      (.vamomax f, (fun n a b => if signedOf n a < signedOf n b then b else a), (fun _ a b => Fmt.fp32.fmax a b), false),
      (.vamoswp f, (fun _ _ b => b), (fun _ _ b => b), true)] →
    i.wf = true → s.Issues i x → memOp s.lc none i = some o →
    let u := s.seen x.gs
    u.vmemPlan o u.lc = (v, .run vl none places data) →
    let c := v.lc
    let one (p : List Host.Cell × List OldVal) (e : Nat) : List Host.Cell × List OldVal :=
      match FMap.get? places e with
      | none => p
      | some ks =>
        let old := leNat (ks.map (Memory.get p.1))
        let new := (if Vtype.flt c.vtype then float else int) c.sew old (c.val f.d.toNat c.sew e)
        (Memory.putAll p.1 (ks.zip (leBytes ks.length new)), if keeps then p.2 ++ [⟨f.d.toNat, e, c.sew, old⟩] else p.2)
    let r := (c.activeIn f.m c.vstart.toNat vl).foldl one (v.mem, c.oldVals)
    ∃ t : State, exec i s = .next t ∧ t.mem = r.1 ∧ v.MemoryOutside t (places.flatMap (·.2)) ∧ v.SameButMemory t
      ∧ t.lc = { c with oldVals := r.2, pc := c.pc + 4, vstart := 0, vl := vl }
      ∧ ((∀ p ∈ s.spans, p.thr ≠ s.cur) → u.SameButMemory v ∧ v.lc = u.lc))
  ∧ ∀ (f : VMF) (s v : State) (x : Member) (o : VMemOp) (vl : Nat) (places : List (Nat × List Nat))
      (data : List (Nat × List Byte)),
    (Instr.vldxa f).wf = true → s.Issues (.vldxa f) x → memOp s.lc none (.vldxa f) = some o →
    let u := s.seen x.gs
    u.vmemPlan o u.lc = (v, .run vl none places data) →
    let c := v.lc
    let act := c.activeIn f.m c.vstart.toNat vl
    let miss (k : Nat) : Bool := decide (f.fmt.toNat < homeScope v.core ⟨k, vldxaIn.kindOfKey k, k⟩)
    ∃ t : State, exec (.vldxa f) s = .next t ∧ t.mem = v.mem ∧ v.SameDevice t ∧ t.lc.g = c.g ∧ t.lc.pc = c.pc + 4 ∧ t.lc.vl = vl
      ∧ t.lc.vstart = 0 ∧ { t.lc with v := c.v, vext := c.vext, ksm := c.ksm, kext := c.kext, pc := c.pc, vl := c.vl, vstart := c.vstart } = c
      ∧ (∀ r, r < f.d.toNat ∨ f.d.toNat * 16384 + vl * Vtype.c c.vtype ≤ r * 16384 → t.lc.vreg r = c.vreg r)
      ∧ (∀ e, e < Vtype.vlmax c.vtype →
          (e ∉ act → t.lc.elem f.d.toNat (Vtype.c c.vtype) e = c.elem f.d.toNat (Vtype.c c.vtype) e)
          ∧ (e ∈ act → ∀ b, FMap.get? data e = some b →
              t.lc.elem f.d.toNat (Vtype.c c.vtype) e = contained c.sew (leNat b % 2 ^ c.sew)))
      ∧ (∀ e, e < 4096 →
          (e ∉ act → t.lc.kbit 8 e = c.kbit 8 e)
          ∧ (e ∈ act → ∀ k ks, FMap.get? places e = some (k :: ks) → t.lc.kbit 8 e = miss k))
      ∧ ((∃ e ∈ act, ∃ k ks, FMap.get? places e = some (k :: ks) ∧ miss k = false) → 1 ≤ f.fmt.toNat →
          ∀ z ∈ t.dcache, z.1 / 2 ^ 64 ≠ v.core)

/-- A well-formed CAPP that issues alone and whose plan runs to the end answers the next state of its completion:
with at least one active element below VL, each entry takes the number of its element, 4 bytes, then QTAIL rises
by their count; every byte outside the entries and QTAIL reads as the plan left it, and no vector, mask or g
register changes. When QOWNER names a logical core and, after the append, at least VLMAX (at most 4,096) entries
stand unconsumed, the event flag of that logical core of the launch is 1, on a thread or saved; else, and in
every other logical core, it stays. With an element to append it waits, being a release (R191), while an element
that VSTP has pushed is on its way to memory, on a stream that goes on by itself (log entry 6). -/
def Obligations.CappResults : Prop :=
  (∀ (f : VF) (s : State) (x : Member), (Instr.capp f).wf = true → s.Issues (.capp f) x → s.owes = true →
    (List.range s.lc.vl).filter (s.lc.active f.m) ≠ [] → let u := s.seen x.gs
    exec (.capp f) s = .next (u.setLc { u.lc with waitFor := .other }))
  ∧ ∀ (f : VF) (s v : State) (x : Member) (vl : Nat) (places : List (Nat × List Nat)) (data : List (Nat × List Byte)),
    (Instr.capp f).wf = true → s.Issues (.capp f) x →
    (s.seen x.gs).cappPlan (s.lc.rd f.s1) f.m (s.seen x.gs).lc = (v, .run vl none places data) →
    ∃ t : State, exec (.capp f) s = .next t ∧ t.lc.pc = v.lc.pc + 4 ∧ t.lc.vstart = 0 ∧ t.lc.vl = vl
      ∧ t.lc.v = v.lc.v ∧ t.lc.k = v.lc.k ∧ t.lc.g = v.lc.g
      ∧ v.MemoryOutside t (places.flatMap (·.2))
      ∧ (∀ b l, data = (0, b) :: l →
          let q := QueueObj.ofBytes b
          let pending := (q.tail + ((List.range vl).filter (v.lc.active f.m)).length + 2 ^ 64 - q.head) % 2 ^ 64
          let named (a : LCore) : Bool := decide (q.owner ≠ 0xFFFFFFFF ∧ min (Vtype.vlmax v.lc.vtype) 4096 ≤ pending)
            && a.job.launch == v.lc.job.launch && a.job.lcore == q.owner
          (∀ n, (v.thr n).occupied = true → (t.thr n).lc.evf = (named (v.thr n).lc || (v.thr n).lc.evf))
          ∧ t.saved.map (·.lc.evf) = v.saved.map fun z => named z.lc || z.lc.evf)
      ∧ ∀ b l, data = (0, b) :: l → let act := (List.range vl).filter (v.lc.active f.m)
          t.mem = Memory.putAll v.mem ((act.zipIdx.flatMap fun p =>
            ((FMap.get? places p.2).getD []).zip (leBytes 4 p.1))
              ++ ((FMap.get? places act.length).getD []).zip (leBytes 8 ((QueueObj.ofBytes b).tail + act.length)))

/-- QPOST waits, being a release (R185), while an element that VSTP has pushed is on its way to memory, on a stream
that goes on by itself (log entry 6); else QPOST, whose 64 bytes are read and leave the data cache, gives d the
first status that applies (2 no queue, 3 bad packet, 1 full, 0 posted) and appends the packet to its queue
exactly when it is 0. Once the device is READY, a 64-byte write at the port of an enabled slot counts a bad
packet in NBAD (to 65,535), is held behind a full FIFO, else joins the FIFO; a write of another size, alignment
or to a slot that is not enabled changes nothing. A write of QDESC with EN = 1 enables a slot whose CTX and QNUM
no other enabled slot has, whose context has fewer than 64 enabled slots and from which no launch runs, with
QDLVL 0 and CFLT 0, else its EN stays 0 and the other fields are taken; on an enabled slot EN = 1 clears CFLT,
and EN = 0 disables it and discards what it holds and has not started. Each is an event of the sequencer. That a
refused enable, and a disable, take the other fields (log entry 28), and that a QPOST that finds no room takes
no stamp (log entry 29), are the model's readings. -/
def Obligations.QueueWrites : Prop :=
  (∀ (f : SF) (s : State), s.Free [f.d, f.a, f.b] → s.owes = true →
    let u := s.seen [f.d, f.a, f.b]
    exec (.qpost f) s = .next (u.setLc { u.lc with waitFor := .other }))
  ∧   (∀ (f : SF) (s u v : State) (l : List ByteAt) (b : List Byte), s.Free [f.d, f.a, f.b] → s.owes = false →
    (s.seen [f.d, f.a, f.b]).scalarAccess .plain .read (s.lc.rd f.a) 64 = (u, .ok l) → u.load l = (v, .ok b) →
    let q := (s.lc.rd f.b).toNat
    let p := BitVec.ofNat 512 (leNat b)
    let r := v.dropLines v.core (l.map (·.key))
    let none (n : Word) : Prop := exec (.qpost f) s = .next (r.put f.d n)
    (63 < q ∨ v.queueOf v.lc.job.ctx q = .none → none 2)
    ∧ ∀ slot x, q ≤ 63 → v.queueOf v.lc.job.ctx q = some (slot, x) →
        (Packet.bad (v.kernelKnown v.lc.job.ctx) p = true → none 3)
        ∧ (Packet.bad (v.kernelKnown v.lc.job.ctx) p = false → 256 ≤ x.fifo.length → none 1)
        ∧ (Packet.bad (v.kernelKnown v.lc.job.ctx) p = false → x.fifo.length < 256 →
            exec (.qpost f) s = .next ((r.stamp.setQueue slot { x with fifo := x.fifo ++ [p] }).put f.d 0)))
  ∧ (∀ (s : State) (off size : Nat) (data : BitVec 512), s.host.bootState = 3 →
    let slot := off / 64
    let q := s.queue slot
    let known := s.kernelKnown q.ctx
    let fits : Prop := size = 64 ∧ off % 64 = 0 ∧ slot < 4096 ∧ q.en = true
    (¬ fits → exec (.launchPortWrite off size data) s = .next s)
    ∧ (fits → Packet.bad known data = true → exec (.launchPortWrite off size data) s
        = .next (s.stamp.setQueue slot { q with nbad := min (q.nbad + 1) 65535 }))
    ∧ (fits → Packet.bad known data = false → 256 ≤ q.fifo.length → exec (.launchPortWrite off size data) s
        = .next (s.stamp.setQueue slot { q with held := q.held ++ [data] }))
    ∧ (fits → Packet.bad known data = false → q.fifo.length < 256 → exec (.launchPortWrite off size data) s
        = .next (s.stamp.setQueue slot { q with fifo := q.fifo ++ [data] })))
  ∧ ∀ (s : State) (slot : Nat) (v : Word), s.host.bootState = 3 → slot < 4096 →
    let q := s.queue slot
    let ctx := v.toNat / 2 ^ 12 % 2 ^ 12
    let qnum := v.toNat / 2 ^ 32 % 64
    let prio := v.toNat % 128
    let others := s.queues.filter fun x => x.1 != slot && x.2.en && x.2.ctx == ctx
    let takes : Prop := (∀ x ∈ others, x.2.qnum ≠ qnum) ∧ others.length < 64 ∧ ∀ l ∈ s.launches, l.slot ≠ slot
    let fields : Queue := { q with ctx := ctx, qnum := qnum, prio := prio }
    (q.en = false → takes → exec (.qdescEnable slot v) s
      = .next (s.stamp.setQueue slot { fields with en := true, cflt := false, qdlvl := 0 }))
    ∧ (q.en = false → ¬ takes → exec (.qdescEnable slot v) s = .next (s.stamp.setQueue slot fields))
    ∧ (q.en = false → exec (.qdescDisable slot v) s = .next (s.stamp.setQueue slot fields))
    ∧ (q.en = true → exec (.qdescEnable slot v) s = .next (s.stamp.setQueue slot { q with cflt := false }))
    ∧ (q.en = true → exec (.qdescDisable slot v) s = .next (s.stamp.setQueue slot { q with en := false, fifo := [], held := [] }))

/-- When the head of a slot is a packet of its type: LAUNCH, its counters reached, leaves the FIFO and its launch,
with the level, priority, arguments and folios that R227 and R401 give it, is under way; WAITC, its counter
reached, leaves the FIFO, and with a counter not reached neither starts; COUNTER_REREAD does the same for a head
that waits; SIGNAL adds ARGS to the counter at SADDR modulo 2^64; SETDET, with no launch of the slot under way,
sets QDLVL to NLC; DRAIN then only starts; MARK writes its sequence number and tag in 16 bytes; an addition or a
write that the swap engine holds waits in its list, while the packet has started (the model's reading, log entry
21). A packet that starts leaves the FIFO, which takes one held write. -/
def Obligations.PacketStarts : Prop :=
  ∀ (s : State) (slot : Nat) (p : BitVec 512), s.headPacket slot = some p →
    let ctx := (s.queue slot).ctx
    let left (v : State) : Queue := let q := v.queue slot; { q with fifo := q.fifo.drop 1 ++ q.held.take 1, held := q.held.drop 1 }
    let launched (i : Instr) : Prop := ∀ (v : State) (k : Kernel), State.countersReach slot ctx (Packet.counters p) s = (v, true) →
      v.kernel? (Packet.kidx p) (v.queue slot).ctx = some k → 0 < k.folen →
      let l := Packet.toLaunch p (v.queue slot) slot v.seq k
      0 < l.points →
      ∃ t : State, exec i s = .next t ∧ t.launches = v.launches ++ [l] ∧ t.queue slot = left v ∧ t.mem = v.mem
        ∧ l.dlvl = (v.queue slot).qdlvl ∧ l.prio = (v.queue slot).prio ∧ l.nlc = Packet.nlc p ∧ l.args = Packet.args p
        ∧ l.folios = (l.points + k.folen - 1) / k.folen
    let passed (i : Instr) : Prop := ∀ v, State.countersReach slot ctx (Packet.counters p) s = (v, true) →
      exec i s = .next (v.stamp.setQueue slot (left v))
    let waits (i : Instr) : Prop := ∀ v, State.countersReach slot ctx (Packet.counters p) s = (v, false) → exec i s = .next v
    let started := s.stamp.setQueue slot (left s)
    (Packet.ptype p = 1 → launched (.launchPacket slot) ∧ waits (.launchPacket slot)
      ∧ (Packet.nw p ≠ 0 → launched (.counterReread slot) ∧ waits (.counterReread slot)))
    ∧ (Packet.ptype p = 2 → passed (.waitcPacket slot) ∧ waits (.waitcPacket slot)
      ∧ (Packet.nw p ≠ 0 → passed (.counterReread slot) ∧ waits (.counterReread slot)))
    ∧ (Packet.ptype p = 3 → ∀ u ks, started.counterKeys ctx .rmw (Packet.saddr p) 8 = (u, .ok ks) →
        (u.redirectAll true ks = none → exec (.signalPacket slot) s
          = .next { u with heldRemote := u.heldRemote ++ [.atomic ⟨.add, 8, ks.headD 0, Packet.args p, 0⟩] })
        ∧ ∀ v js b, u.redirectAll true ks = some js → u.read js = (v, some b) →
          ∃ t : State, exec (.signalPacket slot) s = .next t
            ∧ t.mem = Memory.putAll v.mem (js.zip (leBytes 8 (leNat b + (Packet.args p).toNat))) ∧ t.queue slot = left s)
    ∧ ((∀ l ∈ s.launches, l.slot ≠ slot) →
        (Packet.ptype p = 4 → exec (.setdetPacket slot) s = .next (started.setQueue slot { left s with qdlvl := Packet.nlc p }))
        ∧ (Packet.ptype p = 5 → exec (.drainPacket slot) s = .next started))
    ∧ (Packet.ptype p = 6 → ∀ u ks, started.counterKeys ctx .rmw (Packet.saddr p) 16 = (u, .ok ks) →
        let b := leBytes 8 s.seq ++ leBytes 8 (Packet.args p).toNat
        (u.redirectAll true ks = none → exec (.markPacket slot) s
          = .next { u with heldRemote := u.heldRemote ++ [.access ⟨true, ks.headD 0, 16, leNat b⟩] })
        ∧ ∀ js, u.redirectAll true ks = some js → ∃ t : State, exec (.markPacket slot) s = .next t
            ∧ t.mem = Memory.putAll u.mem (js.zip b) ∧ t.queue slot = left s)

/-- DISPATCH: the next ready logical core, not run before, takes its thread with the registers of R231 for its first
folio. RESTORE: the next ready logical core that has an image, copied to the slot of the thread and read back
without poison, runs on its thread (where it has streams: no poison and no error present) with EVF set, the data
cache dropped, and pc, level, g, mask, vector, trap and VL to FFLAGS registers as the image holds them (R429,
R430), of TVEC and TPC bits [50:2], and leaves the saved ones. PREEMPT and QUANTUM_EXPIRY: for the first ready
logical core that finds no thread, the chosen victim is asked to stop after some element groups and is freed for
that logical core; nothing else changes but the stamp. PREEMPT_SAVE: a stopped thread of a resident context
whose slot is or becomes free falls free, SSCR stays, and its logical core is saved in that slot: header, g,
CSR, mask, cursor, vector, Stick, attachment and staging parts at the offsets of R429; where poison stops a
write stream its context is killed, and nothing is saved. UNPARK: the first parked logical core whose condition
holds becomes ready. Where the image in a taken slot goes, and that PREEMPT_SAVE does nothing when no slot can
be cleared, are the model's choice (log entry 20). -/
def Obligations.SchedulerSteps : Prop :=
  ∀ s : State,
    (∀ (r : Ready) (n : Nat) (l : Launch) (k : Kernel), s.nextPlace = some (r, n) → r.image = none → s.launch? r.launch = some l →
      s.kernel? l.kidx l.ctx = some k → k.vaultb = 0 →
      ∃ t : State, exec .dispatch s = .next t ∧ (t.thr n).occupied = true ∧ (t.thr n).sscr = (s.thr n).sscr ∧ t.mem = s.mem
        ∧ let c := (t.thr n).lc
          let g := l.first r.lcore
          c.job.lcore = r.lcore ∧ c.job.launch = r.launch ∧ c.job.dlvl = l.dlvl ∧ c.folio = g ∧ c.folioEnd = l.first (r.lcore + 1)
          ∧ c.pc = k.entry ∧ c.vl = 0 ∧ c.vtype = 0x8000000000000000 ∧ c.rd 1 = l.args ∧ c.rd 2 = BitVec.ofNat 64 (g * k.folen)
          ∧ c.rd 3 = BitVec.ofNat 64 (min ((g + 1) * k.folen) l.points - g * k.folen) ∧ c.rd 8 = 0)
    ∧ (∀ (r : Ready) (n j : Nat) (x : SavedLc) (v : State) (c : LCore), s.nextPlace = some (r, n) → r.image = some j →
        (s.moveImage j (threadSlot n)).saved[j]? = some x → x.owed = none →
        (s.moveImage j (threadSlot n)).readImage x.at_ x.lc = (v, some c) → (∀ k ∈ v.kernels, k.vaultb = 0) →
        (x.lc.displaced = [] ∨ (v.poison = [] ∧ v.latent = [])) →
        let im (off len : Nat) : Nat := leNat ((List.range len).map fun o => Memory.get v.mem (v.imageOff x.at_ (off + o)))
        ∃ t : State, exec .restore s = .next t ∧ (t.thr n).occupied = true ∧ t.saved.length + 1 = s.saved.length ∧ (x.lc.displaced = [] → t.mem = v.mem)
          ∧ (∀ a ∈ t.dcache, a.1 / 2 ^ 64 ≠ n / 4)
          ∧ let e := (t.thr n).lc
            e.evf = true ∧ e.pc = BitVec.ofNat 64 (im 0x08 8) ∧ e.level = (if (im 0x06 2).testBit 0 then .s else .u)
            ∧ (∀ k : Reg, k ≠ 0 → e.rd k = BitVec.ofNat 64 (im (0x100 + 8 * k.toNat) 8))
            ∧ (∀ i, i < 9 → e.kreg i = BitVec.ofNat 4096 (im (0x500 + 512 * i) (16 * im (0x40 + i) 1)))
            ∧ (∀ i, i < 32 → e.vreg i = BitVec.ofNat 16384 (im (0x4000 + 2048 * i) (16 * im (0x20 + i) 1)))
            ∧ e.vl = im 0x200 8 ∧ e.vtype = BitVec.ofNat 64 (im 0x208 8) ∧ e.vstart = BitVec.ofNat 13 (im 0x210 8)
            ∧ e.frm = BitVec.ofNat 2 (im 0x220 8) ∧ e.fflags = BitVec.ofNat 5 (im 0x228 8)
            ∧ e.tvec = BitVec.ofNat 64 (im 0x400 8) &&& 0x7FFFFFFFFFFFC ∧ e.tcause = BitVec.ofNat 10 (im 0x408 8) ∧ e.tval = BitVec.ofNat 64 (im 0x410 8)
            ∧ e.tpc = BitVec.ofNat 64 (im 0x418 8) &&& 0x7FFFFFFFFFFFC ∧ ∀ a ∈ e.attach, a.displaced = true ∧ a.rows = im 0x1A 1)
    ∧ (∀ (g : Nat) (r : Ready) (n : Nat), (s.readyList s.inFlight).head? = some r → s.threadFor r = none →
        let asked (i : Instr) : Prop := ∃ t : State, exec i s = .next t ∧ (t.thr n).stopAsked = some g
          ∧ (t.thr n).incoming = some (r.launch, r.lcore) ∧ (t.thr n).lc = (s.thr n).lc
          ∧ { t with threads := s.threads, seq := s.seq } = s ∧ ∀ m, m ≠ n → t.thr m = s.thr m
        (s.victim r = some n → asked (.preempt g))
        ∧ (s.victim r = none → (∀ m ∈ s.takeable r, (s.prioOf m = r.prio ∧ (s.thr m).lc.placedAt + 20000 ≤ s.dtime) ↔ m = n) →
            n ∈ s.takeable r → asked (.quantumExpiry g)))
    ∧ (∀ (n : Nat) (u : State), (s.thr n).occupied = true → (s.thr n).stopped = true →
        s.clearSlot n = some u → u.contexts.contains (s.thr n).lc.job.ctx = true → u.poolReaches (threadSlot n) true = true →
        let w := u.quiesce n
        ((w.thr n).occupied = false → exec (.preemptSave n) s = .next w)
        ∧ ((w.thr n).occupied = true →
        let e := (w.thr n).lc
        let c := (s.thr n).lc
        let part (off : Nat) (b : List Byte) : List (Nat × Byte) := b.zipIdx.map fun x => (w.imageOff (threadSlot n) (off + x.2), x.1)
        let flags := bitsAt ([(c.level == .s, 0), (c.stickDirty, 1), (c.attach.isSome, 2), ((e.attach.map (·.wide01)).getD false, 3),
          ((e.attach.map (·.wide23)).getD false, 4)] ++ e.staging.map fun j => (true, 5 + j.2.area))
        let header := leBytes 4 0x53564C4F ++ leBytes 2 1 ++ leBytes 2 flags ++ leBytes 8 c.pc.toNat ++ leBytes 4 c.job.lcore
          ++ leBytes 2 c.job.ctx ++ leBytes 1 c.job.prio ++ leBytes 1 e.displaced.length ++ leBytes 2 c.stickSaved.length
          ++ leBytes 1 e.rowsHeld ++ [0] ++ leBytes 4 c.job.launch ++ e.vext.toList.map (BitVec.ofNat 8 ·)
          ++ c.kext.toList.map (BitVec.ofNat 8 ·) ++ List.replicate 183 0
        ∃ t : State, exec (.preemptSave n) s = .next t ∧ (t.thr n).occupied = false ∧ (t.thr n).sscr = (s.thr n).sscr
          ∧ (∃ x : SavedLc, t.saved.getLast? = some x ∧ x.at_ = threadSlot n ∧ x.ready = true ∧ x.parked = false ∧ x.thr = n
            ∧ x.lc.job = c.job ∧ x.lc.pc = c.pc)
          ∧ t.mem = Memory.putAll w.mem (part 0 header
            ++ part 0x100 (leBytes 8 0 ++ (c.g.toList.drop 1).flatMap fun x => leBytes 8 x.toNat)
            ++ part 0x200 ((List.range 96).flatMap fun a => leBytes 8 (if csrNotSaved a then 0 else (e.csr a).toNat))
            ++ part 0x3F00 (List.replicate 256 0) ++ part 0x1D200 (List.replicate 11776 0)
            ++ ((List.range 9).flatMap fun i => part (0x500 + 512 * i) (leBytes (16 * c.kext.toList.getD i 0) (c.kreg i).toNat))
            ++ (e.cursors.zipIdx.flatMap fun x => part (0x1700 + 128 * x.2) (x.1.1.cmd.cursor x.1.1.port x.1.2))
            ++ ((List.range 32).flatMap fun i => part (0x4000 + 2048 * i) (leBytes (16 * e.vext.toList.getD i 0) (e.vreg i).toNat))
            ++ part 0x14000 (c.stickSaved.flatMap fun r => r.bytes (c.skcfg.toNat % 16))
            ++ (((e.attach.map Attach.image).getD []).flatMap fun x => part x.1 x.2)
            ++ (e.staging.flatMap fun j => part (0x20000 + 16384 * j.2.area) (j.2.x.flatMap (leBytes (MgemvJob.xBytes j.1)))))))
    ∧ (∀ n : Nat, (s.thr n).occupied = true → (s.thr n).stopped = true → s.clearSlot n = none → exec (.preemptSave n) s = .next s)
    ∧ ∀ (j : Nat) (x : SavedLc), s.saved[j]? = some x → x.parked = true → s.isWaiting x.lc = false →
        (∀ (m : Nat) (y : SavedLc), m < j → s.saved[m]? = some y → ¬ (y.parked = true ∧ s.isWaiting y.lc = false)) →
        ∃ t : State, exec .unpark s = .next t ∧ ∃ y : SavedLc, t.saved[j]? = some y ∧ y.parked = false ∧ y.ready = true ∧ y.lc = x.lc

/-- At U level TLBINV and SWAPPG raise PRIV with their word. At S, with no pending token among its registers and,
for SWAPPG, memory canonical: after TLBINV no TLB entry that its operands name is left, every other entry stays,
and the thread waits until TLBINV_RETIRE, which, when no span packet is under way, drops the translation from
stream cursors and passes the thread to the next word. SWAPPG kills its context when a walk meets poison; else
it gives d 3 when both walks reach one entry or one frame (where a leaf gives no place: one kind, device and
address), else 2 for a faulting walk, a reserved operand bit or a leaf not at level 2, striped, or neither
GLOBAL nor per-core VAULT, else 1 for SWLK or four swaps in flight, and then nothing changes; else 0, both
entries hold SWLK, a swap of eight waiting sub-blocks is in flight and no other byte of memory changes. That its
walks ask no right and set neither A nor D (log entry 67), that a leaf whose frame lies outside the range of its
kind is refused as of neither kind (93), and that two walks faulting at one entry give 2 (94), are the model's
choice. -/
def Obligations.TlbAndSwapRequests : Prop :=
  ∀ (f : SF) (s : State),
    (s.lc.level = .u →
      exec (.tlbinv f) s = .next (s.deliver ⟨.priv, (packS 1 f.b f.a f.d 0x73).setWidth 64, 0, s.lc.pc, s.lc.vstart⟩)
      ∧ exec (.swappg f) s = .next (s.deliver ⟨.priv, (packS 0 f.b f.a f.d 0x73).setWidth 64, 0, s.lc.pc, s.lc.vstart⟩))
    ∧ (s.lc.level = .s → s.Free [f.a, f.b] →
      let va := s.lc.rd f.a
      let sel := s.lc.rd f.b
      let hit (e : TlbEntry) : Prop := sel.getLsbD 13 = true ∨ (e.ctx = sel.toNat % 4096
        ∧ (sel.getLsbD 12 = true ∨ va.toNat % 2 ^ 51 / 2 ^ e.shift = e.vpn))
      ∃ t : State, exec (.tlbinv f) s = .next t ∧ (∀ e, e ∈ t.tlb ↔ e ∈ s.tlb ∧ ¬ hit e) ∧ t.lc.pc = s.lc.pc
        ∧ t.lc.waitFor = .tlbinv va sel ∧ t.mem = s.mem ∧ t.lc.g = s.lc.g)
    ∧ (∀ n va sel, s.invalidating = some (n, va, sel) → s.spans = [] →
      ∃ t : State, exec .tlbinvRetire s = .next t ∧ (t.thr n).lc = { (s.thr n).lc with pc := (s.thr n).lc.pc + 4, waitFor := .none }
        ∧ t.mem = s.mem ∧ (∀ e ∈ t.tlb, invalidated va sel e = false)
        ∧ ∀ q ∈ t.ports, ∀ x ∈ q.2.cmds, x.xlat.any (invalidated va sel) = false)
    ∧ (s.lc.level = .s → s.Free [f.d, f.a, f.b] → Memory.wf s.mem = true →
      let a := s.lc.rd f.a
      let b := s.lc.rd f.b
      let page (x : Word) : Word := x &&& 0x7FFFFFFFF8000
      let p := (s.seen [f.d, f.a, f.b]).walk (a.toNat % 4096) (page a)
      let q := p.1.walk (b.toNat % 4096) (page b)
      let u := q.1
      let status (n : Word) : Prop := exec (.swappg f) s = .next (u.put f.d n)
      let frame (x : Word) (l : Leaf) : Except Stop Nat := (leafPlace u.who u.dev l.pte (l.pa (page x)) (page x)).map (·.base)
      let absent (x : Word) (l : Leaf) : Prop := ∀ n, frame x l ≠ .ok n
      let reserved (x : Word) : Prop := x.toNat / 2 ^ 51 ≠ 0 ∨ x.toNat / 2 ^ 12 % 8 ≠ 0
      let fixed (l : Leaf) : Prop := l.shift ≠ 15 ∨ Pte.striped l.pte = true
        ∨ ¬ ((Pte.kind l.pte = .global ∧ inGlobal (Pte.frame l.pte) = true) ∨ (Pte.kind l.pte = .vault ∧ inVault (Pte.frame l.pte) = true))
      (p.2 = .error .poison ∨ q.2 = .error .poison → exec (.swappg f) s = .next (u.kill u.lc.job.ctx Cause.poison.code u.cur))
      ∧ (p.2 ≠ .error .poison → q.2 ≠ .error .poison → ((∃ e, p.2 = .error e) ∨ ∃ e, q.2 = .error e) → status 2)
      ∧ ∀ l m, p.2 = .ok l → q.2 = .ok m →
          let same : Prop := l.key = m.key ∨ (∃ n, frame a l = .ok n ∧ frame b m = .ok n)
            ∨ (absent a l ∧ absent b m ∧ Pte.kind l.pte = Pte.kind m.pte ∧ Pte.devid l.pte = Pte.devid m.pte ∧ l.pa (page a) = m.pa (page b))
          let bad : Prop := reserved a ∨ reserved b ∨ fixed l ∨ fixed m
          let busy : Prop := Pte.swlk l.pte = true ∨ Pte.swlk m.pte = true ∨ 4 ≤ s.swaps.length
          (same → status 3) ∧ (¬ same → bad → status 2) ∧ (¬ same → ¬ bad → busy → status 1)
          ∧ (¬ same → ¬ bad → ¬ busy → ∃ t : State, exec (.swappg f) s = .next t
              ∧ (f.d ≠ 0 → t.lc.rd f.d = 0) ∧ u.lc.OtherRegs t.lc f.d ∧ t.lc.pc = s.lc.pc + 4
              ∧ BitVec.ofNat 64 (t.num l.key 8) = l.pte ||| 0x400 ∧ BitVec.ofNat 64 (t.num m.key 8) = m.pte ||| 0x400
              ∧ s.MemoryOutside t (keysFrom l.key 8 ++ keysFrom m.key 8)
              ∧ ∃ id, t.swaps = s.swaps ++ [⟨id, l.key, m.key, Pte.frame l.pte, Pte.frame m.pte, Pte.kind l.pte, Pte.kind m.pte, List.replicate 8 .waiting⟩]))

/-- SWAP_SUBBLOCK_MOVE on a swap in flight: the first sub-block that has not landed begins to move when it waits,
with nothing else changed; when it moves it lands: over a canonical memory, with the two frames apart and
nothing held for other devices, the 4 KiB at its two places have changed places, every other byte of memory
reads as before, and it is landed. SWAP_COMPLETE, once every sub-block has landed and no packet under way
reaches either frame: the swap is gone, no TLB entry filled from either entry is left, and only the two entries
of memory differ: where memory is canonical and the entries do not overlap, each holds the FRAME and the KIND of
the other, with SWLK and DEVID 0 and V, R, W, X, U, A, D, STRIPED and SW as it held them at that moment. -/
def Obligations.SwapEngineSteps : Prop :=
  let code (k : MemKind) : Nat := match k with | .global => 0 | .vault => 1 | .domain => 2 | .host => 3
  let entry (old : Word) (k : MemKind) (frame : Nat) : Word :=
    (old &&& 0x7C0000000000027F) ||| BitVec.ofNat 64 (128 * code k) ||| BitVec.ofNat 64 frame
  ∀ (s : State) (w : Swap), s.swaps.find? (·.id == w.id) = some w →
    (∀ j, w.blocks.findIdx? (· != .landed) = some j →
      (w.blocks[j]? ≠ some .moving →
        exec (.swapSubblockMove w.id) s = .next (s.setSwap { w with blocks := w.blocks.set j .moving }))
      ∧ (w.blocks[j]? = some .moving → s.heldRemote = [] → Memory.wf s.mem = true →
          (w.frameA + 0x8000 ≤ w.frameB ∨ w.frameB + 0x8000 ≤ w.frameA) → j < 8 →
        ∃ t : State, exec (.swapSubblockMove w.id) s = .next t
          ∧ (∀ o, o < 4096 →
              Memory.get t.mem (w.frameA + 4096 * j + o) = Memory.get s.mem (w.frameB + 4096 * j + o)
              ∧ Memory.get t.mem (w.frameB + 4096 * j + o) = Memory.get s.mem (w.frameA + 4096 * j + o))
          ∧ s.MemoryOutside t (keysFrom (w.frameA + 4096 * j) 4096 ++ keysFrom (w.frameB + 4096 * j) 4096)
          ∧ ∀ x ∈ t.swaps, x.id = w.id → x.blocks = w.blocks.set j .landed))
    ∧ ((∀ b ∈ w.blocks, b = .landed) → s.packetIn w.frameA = false → s.packetIn w.frameB = false →
      ∃ t : State, exec (.swapComplete w.id) s = .next t ∧ (∀ x ∈ t.swaps, x.id ≠ w.id)
        ∧ (∀ e ∈ t.tlb, e.leaf ≠ w.entryA ∧ e.leaf ≠ w.entryB)
        ∧ s.MemoryOutside t (keysFrom w.entryA 8 ++ keysFrom w.entryB 8)
        ∧ (Memory.wf s.mem = true → (w.entryA + 8 ≤ w.entryB ∨ w.entryB + 8 ≤ w.entryA) →
            BitVec.ofNat 64 (t.num w.entryA 8) = entry (BitVec.ofNat 64 (s.num w.entryA 8)) w.kindB w.frameB
            ∧ BitVec.ofNat 64 (t.num w.entryB 8) = entry (BitVec.ofNat 64 (s.num w.entryB 8)) w.kindA w.frameA))

/-- HOME_ATOMIC on a legal cell free of poison answers the old value and writes the new one there only: the sum
modulo 2 to its width, the signed lesser or greater, the bitwise and or or, the FP32 sum, lesser or greater, or
the operand (STREL, AMOSWP, AMOCAS); LDACQ and an AMOCAS that fails write nothing; on poison it answers so.
REMOTE_DOMAIN_ACCESS writes its bytes at its physical address, or answers those that it reads; one outside
GLOBAL and the visible vaults changes nothing. One that the swap engine holds waits in its list.
CLUSTER_SPAN_PACKET: the owner reads the elements of a gather request into its response, or writes those of a
scatter packet, which then is gone; poison kills the context; a packet of the same core to the same owner sent
earlier, of no lower priority, is served first (R113, R114). GATHER_RESPONSE unpacks a response into the element
positions of its thread. That what is refused is answered with nothing (log entry 96) is the model's choice.
VAMOSWP_OLD_VALUE writes the first old value on its way to a thread into its element. -/
def Obligations.ArrivingAccesses : Prop :=
  (∀ (s : State) (r : RemoteAtomic), (remoteCell r = none → exec (.homeAtomic r) s = .next s) ∧ ∀ l, remoteCell r = some l →
    (s.redirectAll true l = none → exec (.homeAtomic r) s = .next { s with heldRemote := s.heldRemote ++ [.atomic r] })
    ∧ ∀ ks v, s.redirectAll true l = some ks →
      (s.read ks = (v, none) → exec (.homeAtomic r) s = .next { v with outbox := v.outbox ++ [.answer r.addr none] })
      ∧ ∀ b, s.read ks = (v, some b) → ∃ t : State, exec (.homeAtomic r) s = .next t ∧ t.threads = v.threads
      ∧ t.outbox = v.outbox ++ [.answer r.addr (some b)]
      ∧ t.mem = if r.op = .ldacq ∨ (r.op = .cas ∧ leNat b ≠ r.expect.toNat % 2 ^ (8 * r.width)) then v.mem
          else
            let n := 8 * r.width
            let old := leNat b
            let x := r.operand.toNat % 2 ^ n
            Memory.putAll v.mem (ks.zip (leBytes r.width (match r.op with
              | .add => (old + x) % 2 ^ n
              | .min => if signedOf n x < signedOf n old then x else old
              | .max => if signedOf n old < signedOf n x then x else old
              | .and => old &&& x
              | .or => old ||| x
              | .fadd => (Fmt.fp32.fadd old x rne).1
              | .fmin => Fmt.fp32.fmin old x
              | .fmax => Fmt.fp32.fmax old x
              | _ => x))))
  ∧ (∀ (s : State) (r : RemoteAccess), (remoteKeys r.addr r.bytes = none → exec (.remoteDomainAccess r) s = .next s)
    ∧ ∀ l, remoteKeys r.addr r.bytes = some l →
        (s.redirectAll r.write l = none → exec (.remoteDomainAccess r) s = .next { s with heldRemote := s.heldRemote ++ [.access r] })
        ∧ ∀ ks, s.redirectAll r.write l = some ks →
          (r.write = true → ∃ t : State, exec (.remoteDomainAccess r) s = .next t ∧ t.threads = s.threads
            ∧ t.mem = Memory.putAll s.mem (ks.zip (leBytes r.bytes r.data)))
          ∧ (r.write = false → ∀ v b, s.read ks = (v, b) → v.mem = s.mem
            ∧ exec (.remoteDomainAccess r) s = .next { v with outbox := v.outbox ++ [.answer r.addr b] }))
  ∧ (∀ (s : State) (n : Nat) (x : SpanPacket) (ks : List (List Nat)), s.packets.find? (fun x => x.id == n && !x.response && !s.behind x) = some x →
    s.packetKeys x = some ks →
    (x.scatter = false →
      ((∃ k ∈ ks, k.any (readAll (s.spanGroup x) (x.keyed ks) s).1.poisoned = true) → ∃ v : State,
        exec (.clusterSpanPacket n) s = .next (v.kill (v.thr x.thr).lc.job.ctx Cause.poison.code x.thr) ∧ v.mem = s.mem ∧ v.threads = s.threads)
      ∧ (∀ v d, readAll (s.spanGroup x) (x.keyed ks) s = (v, some d) → d.map (·.2) = ks.map (fun k => k.map (Memory.get s.mem))
        ∧ v.mem = s.mem ∧ exec (.clusterSpanPacket n) s = .next { v with packets := v.packets.map fun y =>
            if y.id == n then { x with response := true, data := ks.map fun k => k.map (Memory.get s.mem) } else y }))
    ∧ (x.scatter = true → ∃ t : State, exec (.clusterSpanPacket n) s = .next t ∧ (∀ y ∈ t.packets, y.id ≠ n)
        ∧ t.mem = Memory.putAll s.mem ((ks.zip x.data).flatMap fun p => p.1.zip p.2)))
  ∧ (∀ (s : State) (x y : SpanPacket), x ∈ s.packets → y ∈ s.packets → x.response = false → y.response = false →
    (∀ z ∈ s.packets, z.id = x.id → z = x) → y.thr / 4 = x.thr / 4 → y.owner = x.owner → y.id < x.id →
    (s.thr x.thr).lc.job.prio ≤ (s.thr y.thr).lc.job.prio → exec (.clusterSpanPacket x.id) s = .next s)
  ∧ (∀ (s : State) (n : Nat) (x : SpanPacket), s.packets.find? (fun x => x.id == n && x.response) = some x →
    ∃ t : State, exec (.gatherResponse n) s = .next t ∧ t.packets = s.packets.filter (·.id != n) ∧ t.mem = s.mem
      ∧ t.spans = s.spans.map fun o => if o.thr = x.thr then
          { o with vals := o.vals ++ (x.elems.map (·.1)).zip x.data, left := o.left - 1 } else o)
  ∧ ∀ (s : State) (n : Nat) (o : OldVal) (l : List OldVal), (s.thr n).lc.oldVals = o :: l →
    ∃ t : State, exec (.vamoswpOldValue n) s = .next t ∧ (t.thr n).lc = { (s.thr n).lc.setVal o.reg o.sew o.elem o.val with oldVals := l }
      ∧ { t with threads := s.threads } = s ∧ ∀ m, m ≠ n → t.thr m = s.thr m

/-- SAVECTX raises PRIV at U; at S it gives d 1 for an operand that names no resident context and 2 when too few
whole pool blocks are free, changing nothing else; for another resident context with no logical core running or
saved it gives d 0 and the context is no longer resident. A SAVECTX for the own context of the only logical core
stops the thread with d not written, at TPC and the level of PPRV when TACT is 1, else at the next word. Once
READY: CTXCTL with OP 1 makes a context that R82 accepts resident with ERR 0, and refuses another with ERR 1; OP
2 kills it; TFWD marks a thread that serves a trap and is midway in an instruction, forwards one that is not,
and leaves any other alone; a read of CKILL clears its valid bit and nothing else. -/
def Obligations.ContextOperations : Prop :=
  (∀ (f : SF) (s : State), s.lc.level = .u →
    exec (.savectx f) s = .next (s.deliver ⟨.priv, (packS 2 f.b f.a f.d 0x73).setWidth 64, 0, s.lc.pc, s.lc.vstart⟩))
  ∧ (∀ (f : SF) (s : State), s.lc.level = .s → s.Free [f.d, f.a] →
    let u := s.seen [f.d, f.a]
    let x := s.lc.rd f.a
    let ctx := x.toNat
    let free := (s.wholeBlocks.filter s.imageFree).length
    let images := (s.threadsIn ctx).length + (s.saved.filter (·.lc.job.ctx == ctx)).length
    let resident : Prop := ctx < 4096 ∧ ctx ∈ s.contexts
    (¬ resident → exec (.savectx f) s = .next (u.put f.d 1))
    ∧ (resident → free < images → exec (.savectx f) s = .next (u.put f.d 2))
    ∧ (resident → images ≤ free → s.saved.filter (·.lc.job.ctx == ctx) = [] →
        (s.threadsIn ctx = [] → s.lc.job.ctx ≠ ctx → ∃ t : State, exec (.savectx f) s = .next t ∧ t.lc.pc = s.lc.pc + 4
          ∧ (f.d ≠ 0 → t.lc.rd f.d = 0) ∧ u.lc.OtherRegs t.lc f.d ∧ t.contexts = s.contexts.filter (· != ctx) ∧ t.mem = s.mem)
        ∧ (s.threadsIn ctx = [s.cur] → s.lc.job.ctx = ctx → (s.thr s.cur).stopAsked = none → ∃ t : State,
          exec (.savectx f) s = .next t ∧ (t.thr s.cur).stopped = true ∧ t.lc.g = s.lc.g ∧ t.mem = s.mem
          ∧ t.contexts = s.contexts.filter (· != ctx)
          ∧ (s.lc.tact = true → t.lc.pc = s.lc.tpc ∧ t.lc.tact = false ∧ t.lc.level = if s.lc.pprv then .s else .u)
          ∧ (s.lc.tact = false → t.lc.pc = s.lc.pc + 4))))
  ∧ ∀ (s : State) (v : Word), s.host.bootState = 3 →
    let ctx := v.toNat % 4096
    let told (t : State) (err : Bool) : State := { t with host := { t.host with ctxctlCtx := BitVec.ofNat 12 ctx, ctxctlErr := err } }
    (s.host.ctxtb.getLsbD 0 = false → exec (.ctxctlMakeResident v) s = .next (told s.stamp true))
    ∧ (s.host.ctxtb.getLsbD 0 = true → ∀ u b, s.stamp.read (keysFrom (s.descKey ctx) 16) = (u, some b) →
      let croot := leNat (b.take 8)
      let cflags := leNat (b.drop 8)
      let refused : Prop := croot % 2 = 0 ∨ croot / 2 % 2 ^ 14 ≠ 0 ∨ croot / 2 ^ 48 ≠ 0 ∨ cflags / 2 ≠ 0 ∨ u.poolBlocks < 1536
        ∨ (ctx ∉ u.contexts ∧ 64 ≤ u.contexts.length)
      (refused → exec (.ctxctlMakeResident v) s = .next (told u true))
      ∧ (¬ refused → ∃ t : State, exec (.ctxctlMakeResident v) s = .next t ∧ ctx ∈ t.contexts
        ∧ t.host.ctxctlErr = false ∧ t.mem = s.mem ∧ t.threads = s.threads ∧ t.saved.length = s.saved.length
        ∧ ∀ x ∈ t.saved, x.lc.job.ctx = ctx → x.parked = true ∨ x.ready = true))
    ∧ exec (.ctxctlKill v) s = .next (told (s.stamp.kill ctx 0 0) false)
    ∧ (let n := v.toNat % 1024
      let serves : Prop := (s.thr n).occupied = true ∧ (s.thr n).lc.serving = true
      (¬ serves → exec (.tfwd v) s = .next s)
      ∧ (serves → s.midway n = true → exec (.tfwd v) s = .next (s.setThr n { s.thr n with fwd := true }))
      ∧ (serves → s.midway n = false → exec (.tfwd v) s = .next (s.abandon n)))
    ∧ exec .ckillRead s = .next { s with host := { s.host with ckill := s.host.ckill &&& 0x7FFFFFFFFFFFFFFF } }

/-- STRM that passes its checks with an accepted record trims VL to the points; with VL 0 it gives its token 0,
else, on a port that is free or its own with a place free, it appends a command with that VL, the captured VTYPE
and SATK and a pending token, which makes no access before what VSTP has pushed on the other ports is in memory
(R189). It waits for a port of another thread and for a place. VLDP and VSTP whose plan runs complete over it:
VLDP writes each active element from the buffer of the head, VSTP appends each element to that buffer, an
inactive one as a skip, converted with its flags and marks but for E2M1B; neither changes memory or a g
register. SAVAIL gives d the state of the head (0x80000 without a command). SWAIT goes on when every command has
finished, and raises the recorded fault of one that holds it, or STREAM when the first command not complete has
elements to move and the head is suspended, has no room, or the head or that command wants pushes or room, or
that command waits for what VSTP has pushed on another port that needs the thread; else it waits. With no
command SCANCEL, SSUSP and SRESM only go on; with one that does not run SCANCEL frees the port and a token takes
the elements done, 0 behind the head, SSUSP suspends it, SRESM resumes it; SCANCEL and SSUSP wait for a running
one to stop. That SWAIT waits for a head which the governor has suspended is the model's reading (log entry
100). -/
def Obligations.StreamInstructions : Prop :=
  (∀ (f : VF) (s : State), let word := encode (.strm f)
    let u := s.seen [f.s2]
    let r := s.lc.shape f.s1.toNat
    let p := f.d.toNat
    let q := s.port s.core p
    let vl := min s.lc.vl r.points
    let x : Member := { Member.base word false with ill := s.lc.notAny, vr := [(f.s1.toNat, 1)], gr := [f.s2] }
    (r.malformed s.lc.sew = true ∨ r.startsFit = false → s.Passes x →
      exec (.strm f) s = .next (u.deliver ⟨.stream, r.e1, 0, s.lc.pc, s.lc.vstart⟩))
    ∧ (r.malformed s.lc.sew = false → r.startsFit = true → r.accepted s.lc.vtype = false → s.lc.awaits x.groups = false →
        exec (.strm f) s = .next (s.deliver ⟨.vtypeIll, word.setWidth 64, 0, s.lc.pc, s.lc.vstart⟩))
    ∧ (r.malformed s.lc.sew = false → r.startsFit = true → r.accepted s.lc.vtype = true → s.Passes x →
        (vl = 0 → ∃ t : State, exec (.strm f) s = .next t ∧ t.lc.vl = 0 ∧ (f.s2 ≠ 0 → t.lc.rd f.s2 = 0) ∧ t.lc.pc = s.lc.pc + 4
          ∧ t.ports = s.ports)
        ∧ (∀ o, vl ≠ 0 → q.owner = some o → o ≠ s.cur →
            exec (.strm f) s = .next (u.setLc { u.lc with vl := vl, waitFor := .port p }))
        ∧ (vl ≠ 0 → (q.owner = none ∨ q.owner = some s.cur) → (∀ d ∈ s.lc.displaced, d.port ≠ p) → 5 ≤ placesTaken q.cmds →
            ∃ t : State, exec (.strm f) s = .next t ∧ t.port s.core p = ⟨some s.cur, q.cmds⟩ ∧ t.lc.waitFor = .other
              ∧ t.lc.pc = s.lc.pc ∧ t.lc.g = s.lc.g ∧ t.mem = s.mem)
        ∧ (vl ≠ 0 → (q.owner = none ∨ q.owner = some s.cur) → (∀ d ∈ s.lc.displaced, d.port ≠ p) → liveCmds q.cmds = q.cmds →
            placesTaken q.cmds < 5 →
            ∃ (t : State) (x : Cmd), exec (.strm f) s = .next t ∧ t.port s.core p = ⟨some s.cur, q.cmds ++ [x]⟩ ∧ t.lc.vl = vl
              ∧ t.lc.pc = s.lc.pc + 4 ∧ t.lc.g = s.lc.g ∧ t.mem = s.mem ∧ x.exp = vl ∧ x.mem = 0 ∧ x.reg = 0 ∧ x.shape = r
              ∧ x.token = f.s2 ∧ x.tokenPending = decide (f.s2 ≠ 0) ∧ x.satk = s.lc.satk ∧ x.vt = s.lc.vtype &&& 0x3FF
              ∧ x.started = false ∧ x.done = false
              ∧ (∀ n, n < 16 → n ≠ p → (FMap.get? x.after n).getD 0 = ((s.myCmds n).map fun z => if z.isWrite then z.reg - z.mem else 0).sum))))
  ∧ (∀ (f : VF) (s v : State) (x : Member) (vl : Nat), (Instr.vldp f).wf = true → s.Issues (.vldp f) x →
    (s.seen x.gs).portPlan (encode (.vldp f)) f.s1.toNat false = (v, .run vl none [] []) →
    ∃ t : State, exec (.vldp f) s = .next t ∧ t.mem = v.mem ∧ t.lc.g = v.lc.g ∧ t.lc.pc = v.lc.pc + 4 ∧ t.lc.vstart = 0
      ∧ t.lc.vl = vl ∧ ∀ h, headCmd (v.myCmds f.s1.toNat) = some h → ∀ e, e < Vtype.vlmax v.lc.vtype →
          (¬ (v.lc.vstart.toNat ≤ e ∧ e < vl ∧ v.lc.active f.m e = true) →
            t.lc.elem f.d.toNat (Vtype.c v.lc.vtype) e = v.lc.elem f.d.toNat (Vtype.c v.lc.vtype) e)
          ∧ (v.lc.vstart.toNat ≤ e → e < vl → v.lc.active f.m e = true → ∀ y fl, h.buf[e - v.lc.vstart.toNat]? = some ⟨some y, fl⟩ →
              t.lc.elem f.d.toNat (Vtype.c v.lc.vtype) e = contained v.lc.sew y))
  ∧ (∀ (f : VF) (s v : State) (x : Member) (vl : Nat), (Instr.vstp f).wf = true → s.Issues (.vstp f) x →
    (s.seen x.gs).portPlan (encode (.vstp f)) f.s1.toNat true = (v, .run vl none [] []) →
    let c := v.lc
    let lo := c.vstart.toNat
    let es := (List.range (vl - lo)).map (lo + ·)
    let on := es.filter (c.active f.m)
    ∃ t : State, exec (.vstp f) s = .next t ∧ t.mem = v.mem ∧ t.lc.g = c.g ∧ t.lc.v = c.v ∧ t.lc.pc = c.pc + 4
      ∧ t.lc.vstart = 0 ∧ t.lc.vl = vl
      ∧ (vl ≤ lo → t.ports = v.ports ∧ t.lc.k = c.k ∧ t.lc.fflags = c.fflags)
      ∧ ∀ h, headCmd (v.myCmds f.s1.toNat) = some h → h.isWrite = true → h.done = false → lo < vl →
          let raw (e : Nat) : Nat := c.elem f.s2.toNat c.sew e
          let x (e : Nat) : Narrowed := h.shape.fmt.ofReg h.vt c.frm (raw e)
          let block : Prop := h.shape.fmt = .e2m1b
          let pushed (b : List PortElem) : Prop := ∃ y ∈ (t.port v.core f.s1.toNat).cmds,
            y = { h with reg := h.reg + (vl - lo), buf := h.buf ++ b }
          (block → pushed (es.map fun e => if c.active f.m e then ⟨some (raw e), 0⟩ else ⟨none, 0⟩) ∧ t.lc.k = c.k ∧ t.lc.fflags = c.fflags)
          ∧ (¬ block → pushed (es.map fun e => if c.active f.m e then ⟨some (x e).code, 0⟩ else ⟨none, 0⟩)
            ∧ t.lc.fflags = on.foldl (fun a e => a ||| (x e).flags) c.fflags
            ∧ ∀ j e, j < 9 → e < 4096 → t.lc.kbit j e =
                if c.satk.getLsbD 3 = true ∧ j = (c.satk.extractLsb' 0 3).toNat ∧ e ∈ on ∧ (x e).mark = true then true else c.kbit j e))
  ∧ ∀ (f : VF) (s : State), let p := f.s1.toNat
    let goes (i : Instr) (q : State → Prop) : Prop := ∃ t : State, exec i s = .next t ∧ t.lc.pc = s.lc.pc + 4 ∧ t.mem = s.mem ∧ q t
    (s.Free [f.d] → exec (.savail f) s = .next ((s.seen [f.d]).put f.d (BitVec.ofNat 64 (availOf (s.myCmds p))))
      ∧ (s.myCmds p = [] → availOf (s.myCmds p) = 0x80000)
      ∧ ∀ h, headCmd (s.myCmds p) = some h → availOf (s.myCmds p) = ((s.myCmds p).length - headAt (s.myCmds p) - 1) * 2 ^ 20
          + (if h.fault.isSome then 2 ^ 18 else 0) + (if h.suspended || h.paused then 2 ^ 17 else 0) + (if h.isWrite then 2 ^ 16 else 0)
          + (if h.isWrite then min (h.exp - h.reg) ((65536 - ((s.myCmds p).map fun y => y.buf.length * y.c).foldl (· + ·) 0) / h.c)
              else h.mem - h.reg))
    ∧ ((∀ d ∈ s.lc.displaced, d.port ≠ p) →
      ((∀ x ∈ s.myCmds p, x.done = true) → goes (.swait f) fun t => t.lc.g = s.lc.g)
      ∧ ((∃ x ∈ s.myCmds p, x.done = false) → ∀ x r, (s.myCmds p).find? (·.fault.isSome) = some x → x.fault = some r →
          ∃ v : State, exec (.swait f) s = .next (v.deliver ⟨r.cause, r.addr, 0, s.lc.pc, s.lc.vstart⟩) ∧ v.lc = s.lc ∧ v.mem = s.mem)
      ∧ ((∃ x ∈ s.myCmds p, x.done = false) → (∀ x ∈ s.myCmds p, x.fault = none) →
          ∀ h x, headCmd (s.myCmds p) = some h → (s.myCmds p).find? (!·.done) = some x →
          let moved : Prop := x.exp ≤ x.mem ∧ (x.isWrite = true → x.exp ≤ x.reg)
          let alone : Prop := h.suspended = true ∨ (h.isWrite = false ∧ (freeElems (s.myCmds p) h = 0 ∨ freeElems (s.myCmds p) x = 0))
            ∨ (h.isWrite = true ∧ h.reg < h.exp) ∨ (x.isWrite = true ∧ x.reg < x.exp) ∨ s.stuck 16 x.after = true
          (¬ moved → alone →
            exec (.swait f) s = .next (s.deliver ⟨.stream, (encode (.swait f)).setWidth 64, 0, s.lc.pc, s.lc.vstart⟩))
          ∧ (moved ∨ ¬ alone → ∃ t : State, exec (.swait f) s = .next t ∧ t.lc = { s.lc with waitFor := .other } ∧ t.mem = s.mem))
      ∧ (s.myCmds p = [] → goes (.scancel f) (fun t => t.lc.g = s.lc.g ∧ t.ports = s.ports)
          ∧ goes (.ssusp f) (fun t => t.lc.g = s.lc.g ∧ t.ports = s.ports)
          ∧ goes (.sresm f) (fun t => t.lc.g = s.lc.g ∧ t.ports = s.ports))
      ∧ (∀ h y, s.port s.core p = ⟨some s.cur, [h, y]⟩ → h.regDone = false → (h.suspended = true ∨ h.started = false ∨ h.done = true) →
          y.token ≠ h.token → goes (.scancel f) fun t => t.port s.core p = ⟨none, []⟩ ∧ (y.token ≠ 0 → t.lc.rd y.token = 0)
            ∧ (h.token ≠ 0 → t.lc.rd h.token = BitVec.ofNat 64 h.mem))
      ∧ ∀ h, s.port s.core p = ⟨some s.cur, [h]⟩ → h.over = false →
          ((h.suspended = true ∨ h.started = false ∨ h.done = true) →
            goes (.scancel f) (fun t => t.port s.core p = ⟨none, []⟩
              ∧ (h.token ≠ 0 → t.lc.rd h.token = BitVec.ofNat 64 h.mem))
            ∧ goes (.ssusp f) (fun t => t.port s.core p = ⟨some s.cur, [{ h with suspended := true }]⟩ ∧ t.lc.g = s.lc.g))
          ∧ goes (.sresm f) (fun t => t.port s.core p = ⟨some s.cur, [{ h with suspended := false, stopAsked := false }]⟩
              ∧ t.lc.g = s.lc.g)
          ∧ (h.suspended = false → h.started = true → h.done = false → ∀ i ∈ [Instr.scancel f, .ssusp f],
              ∃ t : State, exec i s = .next t ∧ t.port s.core p = ⟨some s.cur, [{ h with stopAsked := true }]⟩ ∧ t.lc.pc = s.lc.pc
                ∧ t.lc.waitFor = .other))

/-- On a port with one command that has not finished on the memory side: STREAM_DISPATCH starts one that waits, at
once when it needs no leave, else it asks for leave once. STREAM_ELEMENT_GROUP moves the group that a command
may move: up to 2,048 bits of elements, each in order, while there is one; with no error present and nothing
that stops it, MEM rises by their number, a read command's buffer gains the element of the bytes at each point's
place in its format, or FILL out of range, and changes no other byte of memory than its translation does; a
write command in an element format puts each pushed code at its point's place, and no other byte. It notes the
turn of its port and what VSTP's elements have reached memory (R189), and puts it back as it then stands, with
the fault that stopped it recorded; poison kills the context of the owner; where another port of the core has
something to move at a higher priority, or at the same and was served longer ago, nothing happens. STREAM_STOP
suspends one whose stop is asked. STREAM_COMPLETE of a command whose every element has moved, be it suspended,
gives its pending token the element count and its completion mask the in-range bits, and the port falls free
when the register side has finished too. PORT_DISPLACE (of a write stream: with no error present, since poison
kills the context) gives the port of a thread of lower priority to the thread that waits for it, with the
commands of the owner kept with the owner and, in a free save slot, its cursor of R219. That of ports of equal
priority the one served longest ago is next is the model's reading of 'in turn' (log entry 81). -/
def Obligations.StreamEngineSteps : Prop :=
  ∀ (s : State) (core p o : Nat) (x : Cmd), s.port core p = ⟨some o, [x]⟩ → x.done = false →
    let only (t : State) (y : Cmd) : Prop := t.port core p = ⟨some o, [y]⟩ ∧ t.threads = s.threads ∧ t.mem = s.mem
    (x.started = false → x.suspended = false → x.mgemv = none → x.needsLeave = false →
      ∃ t : State, exec (.streamDispatch core p) s = .next t ∧ only t { x with started := true })
    ∧ (x.started = false → x.suspended = false → x.mgemv = none → x.needsLeave = true → s.gov.reqs = [] → s.gov.grants = [] →
      ∃ t : State, exec (.streamDispatch core p) s = .next t ∧ only t x
        ∧ t.gov.reqs.map (fun q => (q.ref, q.charge)) = [(portLeave .strm x.owner core p, 2000)])
    ∧ (s.canMove core p x = true → s.outranked core p x = false →
      ∀ v y h, State.moveGroup core [x] false (if x.isWrite && x.shape.fmt == .e2m1b then 2048 / x.c / 32 else 2048 / x.c) s x = (v, y, h) →
      let last := ((List.range 16).map fun q => (FMap.get? v.streamTurns (portKey core q)).getD 0).foldl max 0
      let turn : State := State.written { v with streamTurns := FMap.set v.streamTurns (portKey core p) (last + 1) } x.owner p
        (if x.isWrite then y.mem - x.mem else 0)
      let ends (z : Cmd) : Prop := exec (.streamElementGroup core p) s = .next (turn.updMemHead core p fun _ => z)
      (h = none ∨ h = some .wait → ends y)
      ∧ (∀ cause a, h = some (.record cause a) → ends { y with fault := some ⟨cause, a⟩ })
      ∧ (h = some .poison → exec (.streamElementGroup core p) s
          = .next (turn.kill (turn.thr y.owner).lc.job.ctx Cause.poison.code y.owner))
      ∧ (∀ c e, (x.op.Lies (x.view c) e))
      ∧ (h = none → s.latent = [] → (x.isWrite = true → x.shape.fmt ≠ .e2m1b) → ∃ (n : Nat) (t : State), y.mem = x.mem + n ∧ n ≤ 2048 / x.c
          ∧ v.mem = t.mem ∧ (if x.isWrite then s.Writes core n x t y else s.Lands core n x t y)
          ∧ (n = 2048 / x.c ∨ (x.isWrite = true ∧ y.reg ≤ y.mem) ∨ (x.isWrite = false ∧ (y.exp ≤ y.mem ∨ 65536 < (y.buf.length + 1) * y.c)))))
    ∧ (∀ q y, q < 16 → memHead (s.port core q).cmds = some y → s.canMove core q y = true → s.hasWork core q y = true →
      (s.prioOf x.owner < s.prioOf y.owner ∨ (s.prioOf x.owner = s.prioOf y.owner
        ∧ (FMap.get? s.streamTurns (portKey core q)).getD 0 < (FMap.get? s.streamTurns (portKey core p)).getD 0)) →
      exec (.streamElementGroup core p) s = .next s)
    ∧ (∃ t : State, exec (.streamStop core p) s = .next t
        ∧ only t (if x.stopAsked then { x with stopAsked := false, suspended := true } else x))
    ∧ (x.exp ≤ x.mem → (x.isWrite = true → x.exp ≤ x.reg) →
      ∃ t : State, exec (.streamComplete core p) s = .next t ∧ t.mem = s.mem
        ∧ (x.tokenPending = true → x.token ≠ 0 → (t.thr x.owner).lc.rd x.token = BitVec.ofNat 64 x.exp)
        ∧ (x.mgemv = none → x.shape.cmen = true → ∀ e, e < 4096 → (t.thr x.owner).lc.kbit x.shape.cmk e
            = if e < x.exp then x.shape.inRange (x.shape.coords (List.range x.shape.rank) e) else (s.thr x.owner).lc.kbit x.shape.cmk e)
        ∧ (x.exp ≤ x.reg ∨ x.isWrite = true → t.port core p = ⟨none, []⟩)
        ∧ (x.isWrite = false → x.reg < x.exp → t.port core p
            = ⟨some o, [{ x with done := true, tokenPending := false, wrote := [], xlat := none }]⟩))
    ∧ ∀ thr, o ≠ thr → x.owner = o → (s.thr o).occupied = true → (x.isWrite = true → s.poison = [] ∧ s.latent = []) → thr / 4 = core → (s.thr thr).occupied = true → (s.thr thr).lc.waitFor = .port p →
        s.prioOf o < s.prioOf thr → ∃ t : State, exec (.portDisplace core p thr) s = .next t
          ∧ t.port core p = ⟨some thr, []⟩ ∧ (t.thr thr).lc = (s.thr thr).lc
          ∧ ∃ y l, (t.thr o).lc.displaced = l ++ [⟨p, y⟩] ∧ (x.isWrite = false → l = (s.thr o).lc.displaced) ∧ y.token = x.token ∧ y.exp = x.exp
            ∧ l.map (fun z => { z with cmd := { z.cmd with after := [] } })
                = (s.thr o).lc.displaced.map (fun z => { z with cmd := { z.cmd with after := [] } })
            ∧ (x.isWrite = false → y.mem = x.reg ∧ y.reg = x.reg ∧ y.buf = [] ∧ ((s.thr o).lc.displaced = [] → p < 16 →
              s.imageFree (.slot (o / 4) (o % 4)) = true → t.mem = Memory.putAll s.mem ((keysFrom (slotKey (o / 4) (o % 4) + 0x1700) 128).zip
                (leBytes 8 x.shape.e0.toNat ++ leBytes 4 x.shape.e1.toNat ++ leBytes 2 x.vtype.toNat ++ leBytes 1 x.token.toNat
                  ++ leBytes 1 ((if x.suspended || x.paused then 2 else 1) + (if x.tokenPending then 4 else 0)
                    + (if x.fault.isSome then 8 else 0) + (if x.mgemv.isSome then 16 else 0))
                  ++ ((List.range 5).flatMap fun k => leBytes 4 (x.shape.ext.getD k 0).toNat)
                  ++ ((List.range 5).flatMap fun k => leBytes 4 (x.shape.start.getD k 0).toNat)
                  ++ ((List.range 5).flatMap fun k => leBytes 8 (x.shape.stride.getD k 0).toNat)
                  ++ leBytes 2 x.exp ++ leBytes 2 x.reg ++ leBytes 2 x.reg ++ leBytes 2 p
                  ++ leBytes 8 ((x.fault.map (·.addr.toNat)).getD 0) ++ leBytes 1 ((x.fault.map (·.cause.code.toNat)).getD 0)
                  ++ List.replicate 15 0))))

/-- HVSET, with nothing of the thread to complete, sets HVW to a multiple of 64 from 64 to 131,072 when it is 0 or
the same, else raises CASE with the value. HVSTAT gives d HVOUT and clears its bits 8 and 9. HVRAND that passes
its checks writes the hypervector of R314: its 64-bit word j is Mix(Mix(HVSEED xor g[a]) + j). A member that
issues alone completes with: for HVBIND the bitwise XOR, for HVPERM each bit moved up by g[s2] modulo HVW, for
HVMAJ bit i set where counter i is positive, or 0 and the tie-break bit is set; HVSIM gives d the number of
differing bits; HVBUND adds the signed weight g[s2], or its negative, to every counter, clamped to its width,
sets SAT when a counter clamps, adds |weight| to HVN (saturating) and sets OVER beyond the capacity. The bits of
a written group above HVW are 0; the elements of HVBUND from HVW up, the vector registers outside the group, and
all g registers else, masks and memory stay. -/
def Obligations.HypervectorResults : Prop :=
  (∀ (f : VF) (s : State), s.notDrained = false →
    (s.Free [f.s1] → let v := s.lc.rd f.s1
      let ok : Prop := v.toNat % 64 = 0 ∧ 64 ≤ v.toNat ∧ v.toNat ≤ 131072 ∧ (s.lc.hvw = 0 ∨ s.lc.hvw = v)
      let u := s.seen [f.s1]
      (ok → exec (.hvset f) s = .next (u.setLc { u.lc with hvw := v, pc := s.lc.pc + 4 }))
      ∧ (¬ ok → exec (.hvset f) s = .next (u.deliver ⟨.case, v, 0, s.lc.pc, s.lc.vstart⟩)))
    ∧ (s.Free [f.d] → ∃ t : State, exec (.hvstat f) s = .next t ∧ (f.d ≠ 0 → t.lc.rd f.d = s.lc.hvout) ∧ s.lc.OtherRegs t.lc f.d
        ∧ t.lc.hvout = s.lc.hvout &&& ~~~(0x300 : Word) ∧ t.lc.pc = s.lc.pc + 4 ∧ t.mem = s.mem))
  ∧ (∀ (f : VF) (s : State), s.Passes { Member.base (encode (.hvrand f)) false with
      ill := s.lc.notHv, gr := [f.s1], vw := [s.lc.grp f.d] } →
    let mix (x0 : Word) : Word :=
      let x1 := (x0 ^^^ (x0 >>> 31)) * 0x8F3A51C72B6E94D5
      let x2 := (x1 ^^^ (x1 >>> 27)) * 0xC619E47B05A3D2F1
      x2 ^^^ (x2 >>> 33)
    ∃ t : State, exec (.hvrand f) s = .next t
      ∧ (∀ j, j < s.lc.hvw.toNat / 64 → t.lc.hv f.d.toNat / 2 ^ (64 * j) % 2 ^ 64
          = (mix (mix (s.lc.hvseed ^^^ s.lc.rd f.s1) + BitVec.ofNat 64 j)).toNat)
      ∧ (∀ n, n < f.d.toNat ∨ f.d.toNat + Vtype.gm s.lc.vtype ≤ n → t.lc.vreg n = s.lc.vreg n)
      ∧ (∀ i, s.lc.hvw.toNat ≤ i → i < 16384 * Vtype.gm s.lc.vtype → (t.lc.vreg (f.d.toNat + i / 16384)).getLsbD (i % 16384) = false)
      ∧ t.lc.g = s.lc.g ∧ t.lc.pc = s.lc.pc + 4 ∧ t.mem = s.mem)
  ∧ ∀ (f : VF) (s : State) (x : Member), let c := s.lc
    let w := c.hvw.toNat
    let out (i : Instr) (p : LCore → Prop) : Prop := i.wf = true → s.Issues i x →
      ∃ t : State, exec i s = .next t ∧ s.SameDevice t ∧ c.Completes t.lc ∧ (∀ r, t.lc.rd r = c.rd r) ∧ t.lc.k = c.k ∧ t.lc.ksm = c.ksm
        ∧ { t.lc with v := c.v, vext := c.vext, pc := c.pc, vstart := c.vstart, unseen := c.unseen, hvn := c.hvn, hvout := c.hvout } = c
        ∧ p t.lc
    let group (e : LCore) : Prop := (∀ n, n < f.d.toNat ∨ f.d.toNat + Vtype.gm c.vtype ≤ n → e.vreg n = c.vreg n)
      ∧ (∀ i, w ≤ i → i < 16384 * Vtype.gm c.vtype → (e.vreg (f.d.toNat + i / 16384)).getLsbD (i % 16384) = false)
      ∧ e.hvout = c.hvout ∧ e.hvn = c.hvn
    out (.hvbind f) (fun e => group e ∧ e.hv f.d.toNat = c.hv f.s1.toNat ^^^ c.hv f.s2.toNat)
    ∧ out (.hvperm f) (fun e => group e ∧ ∀ i, i < w → (e.hv f.d.toNat).testBit i
        = (c.hv f.s1.toNat).testBit (((i : Int) - (c.rd f.s2).toInt) % w).toNat)
    ∧ out (.hvmaj f) (fun e => group e ∧ ∀ i, i < w → ((e.hv f.d.toNat).testBit i = true ↔
        0 < signedOf c.sew (c.val f.s1.toNat c.sew i)
          ∨ (signedOf c.sew (c.val f.s1.toNat c.sew i) = 0 ∧ (c.hv f.s2.toNat).testBit i = true)))
    ∧ ((Instr.hvsim f).wf = true → s.Issues (.hvsim f) x → s.RegisterResult (.hvsim f) f.d
        (BitVec.ofNat 64 ((List.range w).filter fun i => (c.hv f.s1.toNat ^^^ c.hv f.s2.toNat).testBit i).length) 0)
    ∧ out (.hvbund f) (fun e =>
        let a := (c.rd f.s2).toInt
        let sum (i : Nat) : Int := signedOf c.sew (c.val f.d.toNat c.sew i) + if (c.hv f.s1.toNat).testBit i then a else -a
        let clamped (i : Nat) : Int := max (-(2 ^ (c.sew - 1))) (min (2 ^ (c.sew - 1) - 1) (sum i))
        (∀ i, i < w → signedOf c.sew (e.val f.d.toNat c.sew i) = clamped i)
        ∧ (∀ n, n < f.d.toNat ∨ f.d.toNat * 16384 + w * Vtype.containerOf c.sew ≤ n * 16384 → e.vreg n = c.vreg n)
        ∧ (∀ i, w ≤ i → f.d.toNat * 16384 + (i + 1) * Vtype.containerOf c.sew ≤ 32 * 16384 →
            e.elem f.d.toNat (Vtype.containerOf c.sew) i = c.elem f.d.toNat (Vtype.containerOf c.sew) i)
        ∧ e.hvn.toNat = min (c.hvn.toNat + a.natAbs) (2 ^ 64 - 1)
        ∧ (a = 0 → e.hvout = c.hvout)
        ∧ (a ≠ 0 → (e.hvout.getLsbD 9 = true ↔ c.hvout.getLsbD 9 = true ∨ ∃ i, i < w ∧ sum i ≠ clamped i)
          ∧ (e.hvout.getLsbD 8 = true ↔ c.hvout.getLsbD 8 = true ∨ c.cap < e.hvn.toNat)))

/-- HVCLEAN that passes its checks raises CASE with CASEN when the Case breaks R320, and completes on an empty Case
(d all ones, outcome 4) and wherever the sorts left lie in one block of 16 that reads; each block keeps best
index, best and runner-up distance. HVFACT raises CASE with the first value that breaks R324, waits for leave
and for a factoring buffer of another thread. With leave, and its work area and sorts readable: with a stop
asked it writes the run to the work area, VSTART 1, and gives up buffer and leave; where its leave was withdrawn
it stops so too, and its request for leave stays as it stands (R412); else it processes up to 16 sorts, and goes
on from the run so reached, or, when that was the last of the clean-up, completes: g[d] the indexes, period and
outcome of R327, HVDIST, HVNEXT, SWEEPS, MARGIN, OP 2 and OUT, VSTART 0, the estimates in the work area, buffer
and leave given back. What a block does to the run (R326): counters gain each sort with weight 1 at the start,
HVW − 2·Hamming(u, sort) in a sweep; at the end of a part the estimate takes their signs, the tie-break where 0;
the last part of the start leads to the sweeps, that of a sweep counts it, updates residual and stagnation, and
leads to clean-up on convergence, cycle, stagnation or limit, else shifts the history. FACTORING_BUFFER_TAKE
hands the buffer of a holder of lower priority to the thread that waits for it; an HVFACT under way there stops. -/
def Obligations.CaseSearchResults : Prop :=
  (∀ (f : VF) (s : State), s.Passes { Member.base (encode (.hvclean f)) false with
      ill := s.lc.notHv, vr := [s.lc.grp f.s1], gw := [f.d] } →
    let u := s.seen [f.d]
    let c := s.lc
    let lo := c.vstart.toNat
    let hi := min c.casen.toNat (lo / 16 * 16 + 16)
    let c0 : LCore := if lo = 0 then
        { u.lc.wr f.d 0 with hvdist := BitVec.ofNat 64 (c.hvw.toNat + 1), hvnext := BitVec.ofNat 64 c.hvw.toNat } else u.lc
    (c.caseBad = true → exec (.hvclean f) s = .next (u.deliver ⟨.case, c.casen, 0, c.pc, c.vstart⟩))
    ∧ (c.caseBad = false → c.casen = 0 → ∃ t : State, exec (.hvclean f) s = .next t ∧ (f.d ≠ 0 → t.lc.rd f.d = BitVec.allOnes 64)
        ∧ t.lc.hvdist = c.hvw ∧ t.lc.hvnext = c.hvw ∧ t.lc.hvout.toNat % 16 = 4 ∧ t.lc.vstart = 0 ∧ t.lc.pc = c.pc + 4)
    ∧ (c.caseBad = false → c.casen ≠ 0 → c.casen.toNat ≤ lo / 16 * 16 + 16 → (u.setLc c0).SortsRead (rangeFrom lo c.casen.toNat) →
        ∃ t : State, exec (.hvclean f) s = .next t ∧ t.lc.vstart = 0 ∧ t.lc.pc = c.pc + 4 ∧ t.mem = s.mem ∧ u.lc.OtherRegs t.lc f.d)
    ∧ (c.caseBad = false → c.casen ≠ 0 → ∀ v l, State.readSorts (rangeFrom lo hi) (u.setLc c0) = (v, .ok l) →
        let b := l.foldl (Best.see c.hvw.toNat (c0.hv f.s1.toNat)) ⟨(c0.rd f.d).toNat, c0.hvdist.toNat, c0.hvnext.toNat⟩
        let e : LCore := { c0.wr f.d (BitVec.ofNat 64 b.idx) with
          hvdist := BitVec.ofNat 64 b.dist, hvnext := BitVec.ofNat 64 b.next }
        (hi < c.casen.toNat → lo < c.casen.toNat →
          exec (.hvclean f) s = .next (v.setLc { e with vstart := BitVec.ofNat 13 hi }))
        ∧ (c.casen.toNat ≤ hi →
          exec (.hvclean f) s = .next (v.setLc { e.cleaned with vstart := 0, pc := c.pc + 4 })
          ∧ (e.tau ≤ e.hvdist.toNat → e.cleaned.hvout.toNat % 16 = 5)
          ∧ (e.hvdist.toNat < e.tau → e.hvnext = e.hvdist → e.cleaned.hvout.toNat % 16 = 3)
          ∧ (e.hvdist.toNat < e.tau → e.hvnext ≠ e.hvdist → (e.cleaned.hvout.toNat % 16 = 1 ↔
              (max e.hvmth.toNat 1 : Int) ≤ (e.hvnext.toNat : Int) - e.hvdist.toNat)))))
  ∧ (∀ (f : VF) (s : State), s.Passes { Member.base (encode (.hvfact f)) false with
      ill := s.lc.notHv, vr := [s.lc.grp f.s1], gw := [f.d] } →
    let u := s.seen [f.d]
    let x := s.lc.hv f.s1.toNat
    let ref := factLeave s.cur
    (∀ v, s.lc.factBad = some v → exec (.hvfact f) s = .next (u.deliver ⟨.case, v, 0, s.lc.pc, s.lc.vstart⟩))
    ∧ (s.lc.factBad = none →
      (∀ h, FMap.get? s.factHolder s.core = some h → h.thr ≠ s.cur →
        exec (.hvfact f) s = .next (u.setLc { u.lc with waitFor := .fact }))
      ∧ (FMap.get? s.factHolder s.core = none → s.hasLeave ref = false →
        exec (.hvfact f) s = .next ((u.askLeave ref 0 s.lc.job.prio).waiting .other))
      ∧ (∀ r0, FMap.get? s.factHolder s.core = some ⟨s.cur, some r0⟩ → s.hasLeave ref = false → (s.thr s.cur).stopAsked = none →
        ∀ v area w r, u.span .ownVault .rmw s.lc.work (49 * s.lc.sst) = (v, .ok area) → v.factRun area = (w, .ok r) →
          ∃ t : State, exec (.hvfact f) s = .next t ∧ FMap.get? t.factHolder s.core = none ∧ t.gov = s.gov ∧ t.lc.vstart = 1 ∧ t.lc.pc = s.lc.pc)
      ∧ ((∀ h, FMap.get? s.factHolder s.core = some h → h.thr = s.cur) → s.hasLeave ref = true →
        ∀ v area w r, u.span .ownVault .rmw s.lc.work (49 * s.lc.sst) = (v, .ok area) → v.factRun area = (w, .ok r) →
          let sst := s.lc.sst
          let bytes (n : Nat) : List Byte := leBytes (s.lc.hvw.toNat / 8) n
          let slots (q : Fact) : List (Nat × List Byte) := q.est.zipIdx.map (fun p => (p.2 * sst, bytes p.1))
            ++ q.hist.zipIdx.flatMap (fun g => g.1.zipIdx.map fun p => ((3 + 3 * g.2 + p.2) * sst, bytes p.1)) ++ [(15 * sst, bytes q.tie)]
          let put (m : List Host.Cell) (l : List (Nat × List Byte)) : List Host.Cell := Memory.putAll m
            (l.flatMap fun p => (((area.drop p.1).take p.2.length).map (·.key)).zip p.2)
          let given (t : State) : Prop := FMap.get? t.factHolder s.core = none ∧ t.hasLeave ref = false
          ((s.thr s.cur).stopAsked ≠ none → ∃ t : State, exec (.hvfact f) s = .next t ∧ given t ∧ t.lc.pc = s.lc.pc ∧ t.lc.vstart = 1
            ∧ t.lc.g = u.lc.g ∧ t.mem = put w.mem (slots r ++ [(16 * sst, r.counters.flatMap fun i => leBytes 4 (wrap 32 i)),
                (48 * sst, [r.phase, r.fact, r.sort, r.sweep, r.rbest, r.stag, if r.chg then 1 else 0, r.marg, r.idx.getD 0 0,
                  r.idx.getD 1 0, r.idx.getD 2 0].flatMap (leBytes 4))]))
          ∧ ((s.thr s.cur).stopAsked = none → ∀ y l, State.readSorts (r.block w.lc) w = (y, .ok l) →
            let q := r.after w.lc x l
            (¬ (q.phase = 2 ∧ q.fact = s.lc.nf) → ∃ t : State, exec (.hvfact f) s = .next t
              ∧ FMap.get? t.factHolder s.core = some ⟨s.cur, some q⟩ ∧ t.lc.pc = s.lc.pc ∧ t.lc.g = u.lc.g ∧ t.mem = put y.mem (slots q))
            ∧ (q.phase = 2 ∧ q.fact = s.lc.nf → y.SortsRead (q.idx.take s.lc.nf) →
              ∃ t : State, exec (.hvfact f) s = .next t ∧ t.lc.pc = s.lc.pc + 4 ∧ t.lc.vstart = 0 ∧ given t)
            ∧ (q.phase = 2 ∧ q.fact = s.lc.nf → ∀ z m, State.readSorts (q.idx.take s.lc.nf) y = (z, .ok m) →
              ∃ (t : State) (out p : Nat), exec (.hvfact f) s = .next t ∧ t.lc.pc = s.lc.pc + 4 ∧ t.lc.vstart = 0 ∧ given t
                ∧ t.mem = put z.mem (slots q) ∧ u.lc.OtherRegs t.lc f.d
                ∧ (q.chg = false → p = 0 ∧ out = if q.marg = 0 then 12 else 8)
                ∧ (q.chg = true →
                    (2 ≤ p ∧ p ≤ 4 ∧ out = 10 ∧ q.hist[p - 1]? = some q.est ∧ ∀ k, 2 ≤ k → k < p → q.hist[k - 1]? ≠ some q.est)
                    ∨ (p = 0 ∧ (∀ k, 2 ≤ k → k ≤ 4 → q.hist[k - 1]? ≠ some q.est)
                      ∧ out = if (if s.lc.hvstw = 0 then 8 else s.lc.hvstw.toNat) ≤ q.stag then 11 else 9))
                ∧ (let i (j : Nat) : Nat := q.idx.getD j 0 % 4096
                  f.d ≠ 0 → t.lc.rd f.d = BitVec.ofNat 64
                    (i 0 + i 1 * 2 ^ 16 + (if s.lc.nf = 3 then i 2 else 0) * 2 ^ 32 + p * 2 ^ 48 + out * 2 ^ 60))
                ∧ t.lc.hvdist = BitVec.ofNat 64 (hamming s.lc.hvw.toNat x ((m.map (·.2)).foldl Nat.xor 0))
                ∧ t.lc.hvnext = BitVec.ofNat 64 (hamming s.lc.hvw.toNat x (q.est.foldl Nat.xor 0))
                ∧ (q.sweep < 2 ^ 16 → t.lc.hvout = (s.lc.hvout &&& ~~~(0x3FFFFFFFF00FF : Word))
                    ||| BitVec.ofNat 64 (q.marg % 2 ^ 18 * 2 ^ 32 + q.sweep * 2 ^ 16 + 2 * 16 + out)))))))
  ∧ (∀ (c : LCore) (x : Nat) (r : Fact) (l : List (Nat × Nat)),
    let hvw := c.hvw.toNat
    let j := r.fact
    let n := r.sort + l.length
    let q := r.after c x l
    let whole : Prop := c.bound (j + 1) - c.bound j ≤ n
    let limit := if c.hvitl = 0 then 256 else c.hvitl.toNat
    let window := if c.hvstw = 0 then 8 else c.hvstw.toNat
    let bit (v i : Nat) : Bool := v.testBit i
    let weight (sort : Nat) : Int := if r.phase = 0 then 1
      else (hvw : Int) - 2 * hamming hvw (Nat.xor x ((r.est.eraseIdx j).foldl Nat.xor 0)) sort
    let cnt := r.counters.zipIdx.map fun k => k.1 + (l.map fun p => if bit p.2 k.2 then weight p.2 else -weight p.2).sum
    (r.phase ≠ 2 → ¬ whole → q = { r with counters := cnt, sort := n })
    ∧ (r.phase ≠ 2 → whole → ∃ e : Nat, (∀ i, bit e i = decide (∃ k, cnt[i]? = some k ∧ (0 < k ∨ (k = 0 ∧ bit r.tie i = true))))
        ∧ let chg := r.chg || (r.phase == 1 && e != r.est.getD j 0)
          let s1 : Fact := { r with counters := List.replicate hvw 0, sort := 0, est := r.est.set j e, chg := chg }
          (j + 1 < c.nf → q = { s1 with fact := j + 1 })
          ∧ (c.nf ≤ j + 1 → r.phase = 0 → q = { s1 with phase := 1, fact := 0 })
          ∧ (c.nf ≤ j + 1 → r.phase ≠ 0 →
            let d := hamming hvw x (s1.est.foldl Nat.xor 0)
            let s2 : Fact := { s1 with fact := 0, sweep := r.sweep + 1, rbest := min r.rbest d, stag := if d < r.rbest then 0 else r.stag + 1 }
            let done : Prop := chg = false ∨ (∃ p, 2 ≤ p ∧ p ≤ 4 ∧ r.hist[p - 1]? = some s1.est) ∨ window ≤ s2.stag ∨ s2.sweep = limit
            (done → q = { s2 with phase := 2, dist := hvw + 1, next := hvw })
            ∧ (¬ done → q = { s2 with hist := (s1.est :: r.hist).take 4, chg := false })))
    ∧ (r.phase = 2 →
      let b := l.foldl (Best.see hvw (r.est.getD j 0)) ⟨r.idx.getD j 0, r.dist, r.next⟩
      (¬ whole → q = { r with idx := r.idx.set j b.idx, dist := b.dist, next := b.next, sort := n })
      ∧ (whole → q = { r with idx := r.idx.set j b.idx, marg := min r.marg (b.next - b.dist), sort := 0, fact := j + 1,
                              dist := hvw + 1, next := hvw })))
  ∧ ∀ (s : State) (core thr : Nat) (h : FactHold), FMap.get? s.factHolder core = some h → h.thr / 4 = core → thr / 4 = core → h.thr ≠ thr →
    (s.thr thr).occupied = true → (s.thr thr).lc.waitFor = .fact → s.prioOf h.thr < s.prioOf thr →
    let passed (t : State) : Prop := exec (.factoringBufferTake core thr) s = .next t ∧ FMap.get? t.factHolder core = some ⟨thr, none⟩
      ∧ t.cur = s.cur ∧ t.hasLeave (factLeave h.thr) = false
    (h.run = none → ∃ t, passed t ∧ t.threads = s.threads ∧ t.mem = s.mem)
    ∧ ∀ r u area, h.run = some r →
      ({ s with cur := h.thr } : State).span .ownVault .rmw (s.thr h.thr).lc.work (49 * (s.thr h.thr).lc.sst) = (u, .ok area) →
      ∃ t, passed t ∧ (t.thr h.thr).lc.vstart = 1 ∧ (t.thr h.thr).lc.pc = (s.thr h.thr).lc.pc ∧ ∀ m, m ≠ h.thr → t.thr m = s.thr m

/-- With nothing of the thread to complete and g[a] ready, SKSET writes SKCFG, SKCNT 0 and empty records when the
value is legal for R334 and the kernel's depth, else it raises STICK with the value; SKCLR empties the records
and SKCNT. SKFEED, SKEST and SKSTAT that pass the checks of R78 raise STICK with 0 when H is 0, and STICK with
VL when VL exceeds NMAX. Otherwise, with no stop asked, they complete: SKFEED counts the feed and, where its
number is a multiple of CINT, makes the checkpoint of each active element from VSTART to VL − 1 on its term,
other records unchanged: the term joins the entries, the oldest leaving at H; from three on the estimate is that
of Eps (R339) or Lsq (R340), with their fallbacks, else the newest entry; READY, FALLBACK, FBC, and after a
first estimate CC, BEST and SC, follow from it, CONVERGED and STAGNANT from those (R338), all in FP32 to nearest
even whatever FRM holds, no flag raised (R341); SKEST gives each such element of d its EST; SKSTAT writes the
class bit of each element below VL into k[d], the other bits unchanged, and the summary of R343 to g[s1], VSTART
unchanged. Registers they do not name, and memory, are unchanged. -/
def Obligations.StickResults : Prop :=
  (∀ (f : VF) (s : State), s.notDrained = false →
    (s.Free [f.s1] → let v := s.lc.rd f.s1
      let u := s.seen [f.s1]
      let h := v.toNat % 16
      let legal : Prop := v.toNat < 2 ^ 24 ∧ v.toNat / 32 % 8 = 0 ∧ 3 ≤ h ∧ h ≤ 8 ∧ v.toNat / 2 ^ 8 % 2 ^ 16 ≠ 0 ∧ h ≤ s.lc.job.skdepth
      (legal → exec (.skset f) s = .next (u.setLc { u.lc with skcfg := v, skcnt := 0, stick := [], pc := s.lc.pc + 4 }))
      ∧ (¬ legal → exec (.skset f) s = .next (u.deliver ⟨.stick, v, 0, s.lc.pc, s.lc.vstart⟩)))
    ∧ exec (.skclr f) s = .next (s.setLc { s.lc with skcnt := 0, stick := [], pc := s.lc.pc + 4 }))
  ∧ ∀ (f : VF) (s : State),
    let c := s.lc
    let refuses (i : Instr) (u : State) : Prop :=
      (c.skH = 0 → exec i s = .next (u.deliver ⟨.stick, 0, 0, c.pc, c.vstart⟩))
      ∧ (c.skH ≠ 0 → min 512 (4096 / (c.skH + 3)) < c.vl → exec i s = .next (u.deliver ⟨.stick, BitVec.ofNat 64 c.vl, 0, c.pc, c.vstart⟩))
    let serves : Prop := c.skH ≠ 0 ∧ c.vl ≤ min 512 (4096 / (c.skH + 3))
    (s.Passes { Member.base (encode (.skfeed f)) f.m with ill := c.notE32f, vr := [c.grp f.s1] } →
      refuses (.skfeed f) s ∧ (serves → (s.thr s.cur).stopAsked = none →
        let n := if c.vstart = 0 then c.skcnt + 1 else c.skcnt
        let chk : Prop := n ≠ 0 ∧ n.toNat % c.skInt = 0
        ∃ t : State, exec (.skfeed f) s = .next t ∧ s.SameDevice t ∧ c.Completes t.lc
          ∧ { t.lc with stick := c.stick, skcnt := c.skcnt, pc := c.pc, vstart := c.vstart } = c
          ∧ (c.vstart.toNat < c.vl ∨ c.vl = 0 → t.lc.skcnt = n)
          ∧ (∀ e, chk → c.Written f.m e → c.Checkpoints (c.record e) (c.elem f.s1.toNat 32 e) (t.lc.record e))
          ∧ (∀ e, ¬ (chk ∧ c.Written f.m e) → t.lc.record e = c.record e)))
    ∧ (s.Passes { Member.base (encode (.skest f)) f.m with ill := c.notE32f, vw := [c.grp f.d] } →
      refuses (.skest f) s ∧ (serves → (s.thr s.cur).stopAsked = none →
        s.VectorResult (.skest f) f.d.toNat 32 (Vtype.vlmax c.vtype) (c.whenWritten f.m fun e => (c.record e).est.toNat) 0))
    ∧ ((Instr.skstat f).wf = true → s.Passes { Member.base (encode (.skstat f)) false with ill := c.notE32f, kw := [f.d.toNat], gw := [f.s1] } →
      refuses (.skstat f) (s.seen [f.s1]) ∧ (serves →
        let cls (e : Nat) : Bool := let r := c.record e
          if f.s2 = 0 then r.ready else if f.s2 = 1 then r.converged else if f.s2 = 2 then r.stagnant else r.fallback
        ∃ t : State, exec (.skstat f) s = .next t ∧ s.SameDevice t ∧ s.lc.SameButVector t.lc ∧ t.lc.pc = c.pc + 4 ∧ t.lc.vstart = c.vstart
          ∧ t.lc.vl = c.vl ∧ t.lc.v = c.v ∧ c.OtherRegs t.lc f.s1
          ∧ (∀ e, e < 4096 → t.lc.kbit f.d.toNat e = if e < c.vl then cls e else c.kbit f.d.toNat e)
          ∧ (∀ j, j < 8 → j ≠ f.d.toNat → t.lc.kreg j = c.kreg j)
          ∧ (f.s1 ≠ 0 → let r := (t.lc.rd f.s1).toNat
              let count := ((List.range c.vl).filter cls).length
              r % 2 ^ 13 = count ∧ r / 2 ^ 16 % 2 ^ 13 = ((List.range c.vl).filter fun e => (c.record e).ready).length
              ∧ r / 2 ^ 32 % 2 ^ 16 = min ((List.range c.vl).map fun e => (c.record e).fbc).sum 65535
              ∧ (2 ^ 63 ≤ r ↔ 1 ≤ c.vl ∧ count = c.vl))))

/-- MATT of a thread with no attachment, its registers ready: with q = min(g[a], 32) = 0 it writes 0; without leave
it asks for leave of q rows and waits; with leave it takes the lowest free slots up to q, then, holders of lower
priority being displaced, the lowest of those so freed: d and ROWS are their number, tiles read 0 and buffers
have no format. MDET, with no pass of the thread left, frees the attachment and its leave. MZERO, MLDB, MMA and
MST of a thread with no attachment raise NOATTACH with the word, and of a displaced one wait. MZERO clears the
rows of tile d and its pair's width bit, other tiles unchanged. ATTACHMENT_REACQUIRE: the one waiting holder of
a cluster, with leave and enough free slots, takes ROWS slots and goes on with its tiles as they were. -/
def Obligations.MatrixAttachments : Prop :=
  (∀ (f : VF) (s : State), s.Free [f.d, f.s1] → s.lc.attach = none →
    let u := s.seen [f.d, f.s1]
    let q := min (s.lc.rd f.s1).toNat 32
    let v := State.makeRoom (clusterOf s.cur) q (u.victims (clusterOf s.cur) s.lc.job.prio) u
    let first := (u.freeSlots (clusterOf s.cur)).take q
    let more := ((v.freeSlots (clusterOf s.cur)).filter (!first.contains ·)).take (q - first.length)
    let slots := (List.range 32).filter fun i => first.contains i || more.contains i
    (q = 0 → exec (.matt f) s = .next (u.put f.d 0))
    ∧ (q ≠ 0 → s.hasLeave (mattLeave s.cur) = false →
      exec (.matt f) s = .next ((u.askLeave (mattLeave s.cur) q s.lc.job.prio).waiting .other))
    ∧ (q ≠ 0 → s.hasLeave (mattLeave s.cur) = true → ∃ t : State, exec (.matt f) s = .next t
        ∧ (f.d ≠ 0 → t.lc.rd f.d = BitVec.ofNat 64 slots.length) ∧ s.lc.OtherRegs t.lc f.d ∧ t.lc.pc = s.lc.pc + 4
        ∧ t.lc.rowsHeld = slots.length ∧ (slots = [] → t.lc.attach = none ∧ t.hasLeave (mattLeave s.cur) = false)
        ∧ (slots ≠ [] → ∃ a : Attach, t.lc.attach = some a ∧ a.slots = slots ∧ a.displaced = false ∧ a.wide01 = false ∧ a.wide23 = false
            ∧ (∀ (j : Nat), j < 4 → a.tile j = List.replicate slots.length 0) ∧ ∀ b ∈ a.bbufs, b.fmt = none)))
  ∧ (∀ (f : VF) (s : State), (∀ p ∈ s.passes, p.thr ≠ s.cur) →
    (s.lc.attach = none → exec (.mdet f) s = .next (s.setLc { s.lc with pc := s.lc.pc + 4 }))
    ∧ (s.lc.attach ≠ none → ∃ t : State, exec (.mdet f) s = .next t ∧ t.lc = { s.lc with attach := none, pc := s.lc.pc + 4 }
        ∧ t.hasLeave (mattLeave s.cur) = false ∧ t.mem = s.mem))
  ∧ (∀ (s : State) (f : VF) (g : TF),
    let needs (i : Instr) : Prop :=
      (s.lc.attach = none → exec i s = .next (s.deliver ⟨.noattach, (encode i).setWidth 64, 0, s.lc.pc, s.lc.vstart⟩))
      ∧ ∀ (a : Attach) (n : Nat), s.lc.attach = some a → a.displaced = true → a.waits = some n → exec i s = .next (s.waiting .tiles)
    needs (.mzero f)
    ∧ (s.lc.notTile g.fmt = false → s.Free [g.s1] → s.seen [g.s1] = s →
        needs (.mldb g) ∧ (¬ (g.fmt = 0 ∧ g.d.toNat % 2 = 1) → needs (.mma g)))
    ∧ (s.lc.notTile g.fmt = false → s.Free [g.s1, g.s2] → s.seen [g.s1, g.s2] = s →
        ¬ (g.fmt = 0 ∧ g.d.toNat % 2 = 1) → needs (.mst g)))
  ∧ (∀ (f : VF) (s : State) (a : Attach), (Instr.mzero f).wf = true → s.lc.attach = some a → a.displaced = false → a.tiles.length = 4 →
    s.tileBusy f.d.toNat = false →
    ∃ b : Attach, exec (.mzero f) s = .next (s.setLc { s.lc with attach := some b, pc := s.lc.pc + 4 })
      ∧ b.tile f.d.toNat = List.replicate a.rows 0 ∧ b.wide f.d.toNat = false ∧ (∀ j, j ≠ f.d.toNat → b.tile j = a.tile j)
      ∧ { b with tiles := a.tiles, wide01 := a.wide01, wide23 := a.wide23 } = a
      ∧ ∀ j, j / 2 ≠ f.d.toNat / 2 → j < 4 → b.wide j = a.wide j)
  ∧ ∀ (s : State) (n w : Nat) (a : Attach), (s.thr n).occupied = true → (s.thr n).lc.waitFor = .tiles → (s.thr n).lc.attach = some a →
    a.waits = some w → (∀ m, m / 16 = n / 16 → m ≠ n → (s.thr m).lc.waitFor ≠ .tiles) →
    ((s.freeSlots (clusterOf n)).length < a.rows → exec (.attachmentReacquire n) s = .next s)
    ∧ (a.rows ≤ (s.freeSlots (clusterOf n)).length → s.hasLeave (mattLeave n) = false →
        exec (.attachmentReacquire n) s = .next (s.askLeave (mattLeave n) a.rows (s.prioOf n)))
    ∧ (a.rows ≤ (s.freeSlots (clusterOf n)).length → s.hasLeave (mattLeave n) = true →
        ∃ (t : State) (b : Attach), exec (.attachmentReacquire n) s = .next t ∧ (t.thr n).lc = { (s.thr n).lc with attach := some b, waitFor := .none }
          ∧ b.slots = (s.freeSlots (clusterOf n)).take a.rows ∧ b.displaced = false ∧ b.tiles = a.tiles ∧ b.bbufs = a.bbufs
          ∧ b.rows = a.rows ∧ b.wide01 = a.wide01 ∧ b.wide23 = a.wide23 ∧ (∀ m, m ≠ n → t.thr m = s.thr m) ∧ t.mem = s.mem)

/-- With an attachment not displaced, operands ready and aligned, and bytes that translate and read without poison:
MLDB latches the B buffer with its format; MMA adds a pass with the A rows and the buffer's bytes and sets or
clears the pair's width bit; MST stores each row of the tile, or of the wide pair, at g[a] + i·g[b], higher rows
last, each element narrowed to nearest even and packed in its format (R134; E2M1B as a block of R133; format 0
as it is), with the flags and marks of its elements. MATRIX_PASS starts the first four ready passes of the
cluster, one per thread, by priority and then arrival; TILE_WRITE makes each element (i, j) of the oldest
started pass's tile the DotRound (the exact sum of products rounded once to FP32, then added to its old value
with one rounding, R145), or of its pair in FP64 the SliceDot (the sum of the digit pairs i + j below S, R146),
of its old value, A row i and B column j, and raises their flags. MGEMV with VL = 0 does nothing, with a bad
descriptor raises STREAM with its address, else waits for a port of another thread or appends its command.
MGEMV_ROW does nothing while what VSTP had pushed before the MGEMV is not in memory (R189), without leave asks
for it; with leave it forms the y of its row (the exact sum of products rounded once), which enters the buffer,
or is kept until the rows before it have landed. That the pc is past the MMA once A is read, before its pass
starts, is the model's reading of R357 (log entry 49). -/
def Obligations.MatrixResults : Prop :=
  (∀ (f : TF) (s : State) (a : Attach), s.lc.attach = some a → a.displaced = false → s.lc.notTile f.fmt = false →
    (let u := s.seen [f.s1]
      let addr := s.lc.rd f.s1
      s.Free [f.s1] → addr.toNat < 2 ^ 51 → addr.toNat % (if f.fmt = 13 then 2 else 64) = 0 → f.d.toNat < a.bbufs.length →
      ∀ v l w b, u.span .plain .read addr (32 * rowBytes f.fmt) = (v, .ok l) → v.load l = (w, .ok b) →
      ∃ (t : State) (e : Attach), exec (.mldb f) s = .next t ∧ t.lc = { w.lc with attach := some e, pc := w.lc.pc + 4 } ∧ t.mem = w.mem
        ∧ e.bbufs[f.d.toNat]? = some ⟨some f.fmt, b⟩ ∧ (∀ j, j ≠ f.d.toNat → e.bbufs[j]? = a.bbufs[j]?) ∧ { e with bbufs := a.bbufs } = a)
    ∧ (let u := s.seen [f.s1]
      let addr := s.lc.rd f.s1
      ¬ (f.fmt = 0 ∧ f.d.toNat % 2 = 1) → s.Free [f.s1] → addr.toNat % 256 = 0 →
      ∀ buf v l w bytes, a.bbufs[f.s2.toNat]? = some buf → buf.fmt = some f.fmt →
        u.span .ownVault .read addr (a.rows * rowBytes f.fmt) = (v, .ok l) → v.load l = (w, .ok bytes) →
      ∃ (t : State) (e : Attach) (p : Pass), exec (.mma f) s = .next t ∧ t.lc = { w.lc with attach := some e, pc := w.lc.pc + 4 }
        ∧ t.mem = w.mem ∧ t.passes = s.passes ++ [p] ∧ p.thr = s.cur ∧ p.prio = s.lc.job.prio ∧ p.tile = f.d.toNat ∧ p.fmt = f.fmt
        ∧ p.slc = Vtype.slc s.lc.vtype ∧ p.b = buf.bytes ∧ p.rows = chunks (rowBytes f.fmt) a.rows bytes ∧ p.started = false
        ∧ e.wide f.d.toNat = decide (f.fmt = 0) ∧ { e with wide01 := a.wide01, wide23 := a.wide23 } = a)
    ∧ (let u := s.seen [f.s1, f.s2]
      let wide := a.wide f.d.toNat
      let even := f.d.toNat / 2 * 2
      let code (i j : Nat) : Nat := if wide then
          tileElem ((a.tile even).getD i 0) j + tileElem ((a.tile (even + 1)).getD i 0) j * 2 ^ 32
        else tileElem ((a.tile f.d.toNat).getD i 0) j
      let width := if wide then 64 else 32
      let out (i : Nat) : List Byte × List (BitVec 5) × List Bool := tileRowOut f.fmt width ((List.range 32).map (code i))
      let row (i : Nat) : List Byte := (out i).1
      let addrs := (List.range a.rows).map fun i => s.lc.rd f.s1 + BitVec.ofNat 64 i * s.lc.rd f.s2
      ¬ (f.fmt = 0 ∧ f.d.toNat % 2 = 1 ∧ wide = true) → s.Free [f.s1, f.s2] → (∀ p ∈ s.passes, p.thr ≠ s.cur) →
      ∀ v l, u.placeRows (tileAlign f.fmt width) (((List.range a.rows).map fun i => (row i).length).headD 0) addrs = (v, .ok l) →
      ∃ t : State, exec (.mst f) s = .next t ∧ t.lc.pc = s.lc.pc + 4 ∧ t.lc.attach = some a ∧ t.lc.g = u.lc.g
        ∧ (∀ i, i < a.rows → TileRow f.fmt width ((List.range 32).map (code i)) (out i))
        ∧ t.mem = (l.zip (List.range a.rows)).foldl (fun m p => Memory.putAll m ((p.1.map (·.key)).zip (row p.2))) v.mem
        ∧ t.lc.fflags = ((List.range a.rows).flatMap fun i => ((out i).2.1.zip (out i).2.2).map (·.1)).foldl (· ||| ·) u.lc.fflags
        ∧ ∀ j e, j < 9 → e < 4096 → (t.lc.kbit j e = true ↔ u.lc.kbit j e = true
            ∨ s.lc.satk.getLsbD 3 = true ∧ j = (s.lc.satk.extractLsb' 0 3).toNat
              ∧ ∃ i k, i < a.rows ∧ e = 32 * i + k ∧ ((out i).2.1.zip (out i).2.2)[k]?.any (·.2) = true)))
  ∧ (∀ (s : State) (cl : Nat), let ready (i : Nat) : Prop := ∃ p, s.passes[i]? = some p ∧ clusterOf p.thr = cl ∧ p.started = false
        ∧ ∀ (j : Nat) q, j < i → s.passes[j]? = some q → q.thr = p.thr → q.started = true
    ∃ t : State, exec (.matrixPass cl) s = .next t ∧ { t with passes := s.passes } = s ∧ t.passes.length = s.passes.length
      ∧ (∀ (i : Nat) p q, s.passes[i]? = some p → t.passes[i]? = some q → q = p ∨ (q = { p with started := true } ∧ ready i))
      ∧ (t.passes.filter (·.started)).length ≤ (s.passes.filter (·.started)).length + 4
      ∧ (∀ (i : Nat) q, ready i → t.passes[i]? = some q →
          let ahead (j : Nat) : Prop := ready j ∧ ∃ x y, s.passes[j]? = some x ∧ s.passes[i]? = some y
            ∧ (y.prio < x.prio ∨ (x.prio = y.prio ∧ j < i))
          (q.started = true ↔ ∃ l : List Nat, l.Nodup ∧ (∀ j, j ∈ l ↔ ahead j) ∧ l.length < 4)))
  ∧ (∀ (s : State) (cl i : Nat) (p : Pass) (a : Attach), s.passes[i]? = some p → clusterOf p.thr = cl → p.started = true →
    (∀ (j : Nat) q, j < i → s.passes[j]? = some q → ¬ (clusterOf q.thr = cl ∧ q.started = true)) →
    (s.thr p.thr).lc.attach = some a → p.tile < a.tiles.length → (p.fmt = 0 → p.tile + 1 < a.tiles.length) →
    let lo (r j : Nat) : Nat := tileElem ((a.tile p.tile).getD r 0) j
    let hi (r j : Nat) : Nat := tileElem ((a.tile (p.tile + 1)).getD r 0) j
    let col (j : Nat) : List FVal := rowVals p.fmt ((p.b.drop (j * rowBytes p.fmt)).take (rowBytes p.fmt))
    ∃ (t : State) (b : Attach) (out : Nat → Nat → Nat × BitVec 5), exec (.tileWrite cl) s = .next t ∧ t.passes = s.passes.eraseIdx i ∧ (t.thr p.thr).lc.attach = some b
      ∧ { b with tiles := a.tiles } = a ∧ (∀ j, j ≠ p.tile → ¬ (p.fmt = 0 ∧ j = p.tile + 1) → b.tile j = a.tile j)
      ∧ (b.tile p.tile).length = p.rows.length
      ∧ (∀ (r j : Nat) (x : List Byte), p.rows[r]? = some x → j < 32 →
          (p.fmt ≠ 0 → DotRounds (decide (p.fmt = 1)) (lo r j) ((rowVals p.fmt x).zip (col j)) (out r j))
          ∧ (p.fmt = 0 → 6 ≤ p.slc → p.slc ≤ 8 → SliceDots (lo r j + hi r j * 2 ^ 32) (rowVals p.fmt x) (col j) p.slc (out r j))
          ∧ tileElem ((b.tile p.tile).getD r 0) j = (out r j).1 % 2 ^ 32
          ∧ (p.fmt = 0 → tileElem ((b.tile (p.tile + 1)).getD r 0) j = (out r j).1 / 2 ^ 32 % 2 ^ 32))
      ∧ (∀ k, k < 5 → ((t.thr p.thr).lc.fflags.getLsbD k = true ↔ (s.thr p.thr).lc.fflags.getLsbD k = true
          ∨ ∃ r j x, p.rows[r]? = some x ∧ j < 32 ∧ (out r j).2.getLsbD k = true))
      ∧ (∀ n, n ≠ p.thr → t.thr n = s.thr n) ∧ t.mem = s.mem)
  ∧ (∀ (f : TF) (s : State), s.Passes { Member.base (encode (.mgemv f)) false with
      ill := s.lc.notGemv, vr := [s.lc.grp f.s2], gr := [f.s1] } →
    let u := s.seen [f.s1]
    let addr := s.lc.rd f.s1
    (s.lc.vl = 0 → exec (.mgemv f) s = .next (u.setLc { u.lc with pc := s.lc.pc + 4 }))
    ∧ (s.lc.vl ≠ 0 → ∀ v l w bytes, u.scalarAccess .plain .read addr 64 = (v, .ok l) → v.load l = (w, .ok bytes) →
        let b := BDesc.ofBytes bytes
        let x := (List.range s.lc.vl).map fun e => s.lc.val f.s2.toNat s.lc.sew e
        (b.bad f.fmt s.lc.vl = true → exec (.mgemv f) s = .next (w.deliver ⟨.stream, addr, 0, s.lc.pc, s.lc.vstart⟩))
        ∧ (b.bad f.fmt s.lc.vl = false → let p := f.d.toNat
            let q := w.port w.core p
            (∀ o, q.owner = some o → o ≠ w.cur → exec (.mgemv f) s = .next (w.setLc { w.lc with waitFor := .port p }))
            ∧ ((q.owner = none ∨ q.owner = some w.cur) → (∀ d ∈ w.lc.displaced, d.port ≠ p) → liveCmds q.cmds = q.cmds →
              placesTaken q.cmds < 5 → w.gemvs.length < 2 →
              ∃ (t : State) (y : Cmd) (j : MgemvJob), exec (.mgemv f) s = .next t ∧ t.port w.core p = ⟨some w.cur, q.cmds ++ [y]⟩
                ∧ t.lc.pc = s.lc.pc + 4 ∧ t.lc.g = w.lc.g ∧ t.mem = w.mem ∧ y.exp = leNat ((bytes.drop 8).take 4) ∧ y.mem = 0 ∧ y.reg = 0
                ∧ y.tokenPending = false ∧ y.started = false ∧ y.done = false
                ∧ (∀ n, n < 16 → n ≠ p →
                    (FMap.get? y.after n).getD 0 = ((w.myCmds n).map fun z => if z.isWrite then z.reg - z.mem else 0).sum)
                ∧ y.mgemv = some j ∧ j.fmt = f.fmt ∧ j.x = x ∧ j.rowsDone = []
                ∧ j.desc = [BitVec.ofNat 64 (leNat (bytes.take 8)), BitVec.ofNat 64 (leNat ((bytes.drop 8).take 4)),
                    BitVec.ofNat 64 (leNat ((bytes.drop 16).take 8))]))))
  ∧ ∀ (s : State) (core port row : Nat) (x : Cmd) (j : MgemvJob), memHead (s.port core port).cmds = some x → x.mgemv = some j →
    x.suspended = false → x.stopAsked = false → x.fault = none → x.hold = false → x.done = false →
    let ref := portLeave .mgemv x.owner core port
    let b : BDesc := ⟨j.desc.getD 0 0, x.exp, j.desc.getD 2 0, true⟩
    (x.after ≠ [] → exec (.mgemvRow core port row) s = .next s)
    ∧ (x.after = [] → s.hasLeave ref = false → exec (.mgemvRow core port row) s = .next (s.askLeave ref 0 (s.prioOf x.owner)))
    ∧ (x.after = [] → s.hasLeave ref = true → x.mem ≤ row → row < x.exp → row < x.mem + freeElems (s.port core port).cmds x → j.rowsDone = [] →
        ∀ v bytes, s.gemvRowBytes core (s.streamWho core x) b j.fmt j.xElems row = (v, .ok bytes) →
        ∃ y : Nat × BitVec 5, SumsTo false ((rowVals j.fmt bytes).zip (j.x.map (Vtype.fmt (x.shape.stride' 2)).decode)) y
        ∧ (row = x.mem → exec (.mgemvRow core port row) s = .next (v.updMemHead core port fun _ =>
            { x with started := true, mem := x.mem + 1, buf := x.buf ++ [⟨some y.1, y.2⟩] }))
        ∧ (row ≠ x.mem → exec (.mgemvRow core port row) s = .next (v.updMemHead core port fun _ =>
            { x with started := true, mgemv := some { j with rowsDone := [(row, y.1, y.2)] } })))

/-- CSET, alone and ready, sets CGRP, CSTR, COP and gives d N when the group, membership and stride are legal, else
clears them and gives d 0; a poisoned entry kills its context. VSTC, once the last round is released, sends one
packet to every home with the active elements that are its own; its report follows the last acceptance, and what
VSTP had pushed before it (R189); it raises XFAIL 1 without a group and MISALIGN by rule. CWAIT completes with
no unreleased round, waits for the release, and then writes the bitmap in 15 ordered stores, CCNT, and raises
CLATE or XFAIL 2 for a member outside S. VLDC gives each active element the bytes of the round at its offset. A
home accepts a packet, or notes it late; a contribution counts once in LATE, however many homes have discarded
its packets; a leader adds a report and fixes S when all have arrived, but for killed ones, or the deadline has
passed; a home writes its combined results; a leader releases the round once every live home has written. That
VLDC reads the identity where nothing was supplied, CWAIT's reading of an unreleased round, that no round waits
for the homes of dead members, that homes tell what they have discarded with the end of their work, and that the
engines use a group entry as it stands, poisoned or not, are the model's (log entries 19, 18, 75, 51, 106). -/
def Obligations.CollectiveResults : Prop :=
  (∀ (f : KF) (s : State), s.notDrained = false → s.Free [f.d, f.a, f.b] →
    let gid := (s.lc.rd f.a).toNat
    let str := (s.lc.rd f.b).toNat
    let gives (n grp : Word) (st : BitVec 31) (op : BitVec 3) : Prop := ∃ t : State, exec (.cset f) s = .next t ∧ t.lc.pc = s.lc.pc + 4
      ∧ t.lc.cgrp = grp ∧ t.lc.cstr = st ∧ t.lc.cop = op ∧ (f.d ≠ 0 → t.lc.rd f.d = n) ∧ s.lc.OtherRegs t.lc f.d ∧ t.mem = s.mem
    let legal (g : Group) : Prop := g.isMember s.dev s.lc = true ∧ str % 64 = 0 ∧ 64 ≤ str ∧ str ≤ g.gwlen
    (∀ v, (s.seen [f.d, f.a, f.b]).readEntry gid = (v, none) → exec (.cset f) s = .next (v.kill v.lc.job.ctx Cause.poison.code v.cur))
    ∧ (((s.seen [f.d, f.a, f.b]).readEntry gid).2 = some () →
      (∀ g, s.group? gid = some g → legal g → gives (BitVec.ofNat 64 g.n) (BitVec.ofNat 64 (2 ^ 63 + gid)) (BitVec.ofNat 31 str) f.cop)
      ∧ ((∀ g, s.group? gid = some g → ¬ legal g) → gives 0 0 0 0)))
  ∧ (∀ (f : VF) (s : State), s.Passes { Member.base (encode (.vstc f)) f.m with
      ill := s.lc.notColl || (s.lc.cop == 3 && Vtype.flt s.lc.vtype), vr := [s.lc.grp f.s2], gr := [f.s1] } →
    let c := s.lc
    let u := s.seen [f.s1]
    let a := c.rd f.s1
    let off (e : Nat) : Nat := (a + BitVec.ofNat 64 (e * (c.sew / 8))).toNat
    (c.cgrp.getLsbD 63 = false → exec (.vstc f) s = .next (u.deliver ⟨.xfail, 1, 0, c.pc, c.vstart⟩))
    ∧ (∀ gid g rank, c.cgrp.getLsbD 63 = true → s.myGroup = some (gid, g, rank) →
      let q := s.collIn c gid
      (q.next % 2 ^ 32 ≠ 0 → s.released? gid (q.next - 1) = none → exec (.vstc f) s = .next (u.waiting .other))
      ∧ ((q.next % 2 ^ 32 ≠ 0 → (s.released? gid (q.next - 1)).isSome = true) →
        (a.toNat % (c.sew / 8) ≠ 0 → exec (.vstc f) s = .next (u.deliver ⟨.misalign, a, 0, c.pc, c.vstart⟩))
        ∧ (a.toNat % (c.sew / 8) = 0 → (∀ e, e < c.vl → c.active f.m e = true → off e < g.gwlen) →
          ∃ (t : State) (sent : List CollPacket) (r : CollPacket), exec (.vstc f) s = .next t
            ∧ t.outbox = s.outbox ++ sent.map OutMsg.contribution ∧ sent.length = g.n
            ∧ t.pushes = s.pushes ++ [⟨c.job.launch, c.job.lcore, r, s.liveRanks g, s.owed none⟩]
            ∧ (∀ (h : Nat) p, sent[h]? = some p → p.gid = gid ∧ p.home = h ∧ p.round = q.next ∧ p.rank = rank ∧ p.cop = c.cop.toNat
                ∧ p.cstr = c.cstr.toNat ∧ p.sew = c.sew ∧ p.cdl = c.cdl.toNat ∧ p.dlvl = c.job.dlvl
                ∧ ∀ e v, (e, v) ∈ p.elems ↔ ∃ k, k < c.vl ∧ c.active f.m k = true ∧ e = off k ∧ v = c.val f.s2.toNat c.sew k
                    ∧ e / c.cstr.toNat % g.n = h)
            ∧ r.gid = gid ∧ r.round = q.next ∧ r.rank = rank ∧ (t.collIn t.lc gid).next = q.next + 1
            ∧ t.lc.pc = c.pc + 4 ∧ t.lc.vstart = c.vstart ∧ t.lc.g = c.g ∧ t.lc.v = c.v ∧ t.lc.k = c.k ∧ t.mem = s.mem))))
  ∧ (∀ (f : VF) (s : State), let c := s.lc
    (c.cgrp.getLsbD 63 = false → exec (.cwait f) s = .next (s.deliver ⟨.xfail, 1, 0, c.pc, c.vstart⟩))
    ∧ ∀ gid g rank, c.cgrp.getLsbD 63 = true → s.myGroup = some (gid, g, rank) →
      let q := s.collIn c gid
      (q.next = q.waited → exec (.cwait f) s = .next (s.setLc { c with pc := c.pc + 4 }))
      ∧ (q.next ≠ q.waited → s.released? gid (q.next - 1) = none → exec (.cwait f) s = .next (s.waiting .other))
      ∧ ∀ r, q.next ≠ q.waited → s.released? gid (q.next - 1) = some r →
        let ccnt := BitVec.ofNat 64 (r.info.late * 2 ^ 32 + (if r.info.part then 2 ^ 16 else 0) + r.info.set.length)
        let ends (v : State) : Prop :=
          (rank ∈ r.info.set → ∃ t : State, exec (.cwait f) s = .next t ∧ t.lc.ccnt = ccnt ∧ t.lc.pc = c.pc + 4 ∧ t.mem = v.mem
            ∧ t.lc.g = c.g ∧ (t.collIn t.lc gid).waited = q.next)
          ∧ (rank ∉ r.info.set → let w := v.setLc { v.lc with ccnt := ccnt, coll := FMap.set c.coll gid { q with waited := q.next } }
            exec (.cwait f) s = .next (w.deliver (if rank ∈ r.info.removed then ⟨.xfail, 2, 0, c.pc, c.vstart⟩
              else ⟨.clate, BitVec.ofNat 64 ((q.next - 1) % 2 ^ 32), 0, c.pc, c.vstart⟩)))
        (c.cmapb = 0 → ends s)
        ∧ (c.cmapb ≠ 0 →
          let word (i : Nat) : List Byte := leBytes 8 (((List.range 64).map fun k => if r.info.set.contains (64 * i + k) then 2 ^ k else 0).sum)
          (∀ u, s.StoresAll c.cmapb ((List.range 15).map word) u → ends u)
          ∧ ∀ (i : Nat) (u v : State) (cause : Cause) (a : Word), i < 15 → s.StoresAll c.cmapb ((List.range i).map word) u →
            u.span .plain .write (c.cmapb + BitVec.ofNat 64 (8 * i)) 8 = (v, .error (.trap cause a)) →
            exec (.cwait f) s = .next (v.deliver ⟨cause, a, 0, c.pc, c.vstart⟩)))
  ∧ (∀ (f : VF) (s : State), s.Passes { Member.base (encode (.vldc f)) f.m with ill := s.lc.notColl, vw := [s.lc.grp f.d], gr := [f.s1] } →
    let c := s.lc
    ∀ gid g rank, c.cgrp.getLsbD 63 = true → s.myGroup = some (gid, g, rank) → (s.thr s.cur).stopAsked = none →
      s.latent = [] → s.poison = [] → s.retired = [] → c.vl ≤ Vtype.vlmax c.vtype →
      let a := c.rd f.s1
      let off (e : Nat) : Nat := (a + BitVec.ofNat 64 (e * (c.sew / 8))).toNat
      let ident := identityOf c.cop.toNat c.sew (Vtype.flt c.vtype)
      let reads (v : Nat → Nat) : Prop := s.VectorResult (.vldc f) f.d.toNat c.sew (Vtype.vlmax c.vtype) (c.whenWritten f.m v) 0
      a.toNat % (c.sew / 8) = 0 → (∀ e, c.Written f.m e → off e < g.gwlen) →
      ((s.collIn c gid).next % 2 ^ 32 = 0 → reads fun _ => ident)
      ∧ ∀ r x, (s.collIn c gid).next = r + 1 → (r + 1) % 2 ^ 32 ≠ 0 → s.released? gid r = some x → s.released? gid (r + 2) = none →
        let n := x.info.sew / 8
        let none' (o : Nat) : Byte := (leBytes n (identityOf x.info.cop x.info.sew x.info.flt)).getD (o % n) 0
        let here (o : Nat) : Byte := if o / n * n ∈ (s.homeAt gid r).written.getD [] then Memory.get s.mem (g.gwin + r % 2 * g.gwlen + o)
          else none' o
        let there (h o : Nat) : Byte := match (((x.homes.find? (·.home == h)).map (·.results)).getD []).find? (·.1 == o) with
          | some b => b.2
          | none => none' o
        reads fun e => leNat ((List.range (c.sew / 8)).map fun i =>
          if off e / c.cstr.toNat % g.n = rank then here (off e + i) else there (off e / c.cstr.toNat % g.n) (off e + i)))
  ∧ (∀ (p : CollPacket) (s : State) (g : Group), s.group? p.gid = some g → p.rank < g.n →
    (g.rankOf s.dev = some p.rank → p.home ≠ p.rank → ∀ x, s.pushes = [x] → x.report.gid = p.gid → x.report.round = p.round →
      let left := x.left.filter (· != p.home)
      (left = [] → x.after = [] → exec (.collectivePacket p) s = .next { s with pushes := [], outbox := s.outbox ++ [.report x.report] })
      ∧ (left ≠ [] ∨ x.after ≠ [] → exec (.collectivePacket p) s = .next { s with pushes := [{ x with left := left }] }))
    ∧ (g.rankOf s.dev = some p.home → p.home ≠ p.rank →
    let h := s.homeAt p.gid p.round
    (∀ q ∈ h.packets, q.rank ≠ p.rank) →
    (h.set = none → s.released? p.gid p.round = none → exec (.collectivePacket p) s = .next (s.setHome { h with packets := h.packets ++ [p] }))
    ∧ (∀ x, h.set = some x → p.rank ∉ x.1 → exec (.collectivePacket p) s = .next
        { s with late := FMap.set s.late p.gid ((FMap.get? s.late p.gid).getD [] ++ [(p.round, p.rank)]) })))
  ∧ (∀ (p : CollPacket) (s : State) (g : Group), s.group? p.gid = some g → p.gone = true →
    ∃ t : State, exec (.arrivalReport p) s = .next t ∧ t.gone = s.gone ++ [⟨p.gid, p.rank, p.round⟩] ∧ t.mem = s.mem
      ∧ ∀ l ∈ s.leaders, l.gid = p.gid → l.fixed = none → l.reports ≠ [] →
        (∀ r, r < g.n → (∃ q ∈ l.reports, q.rank = r) ∨ ∃ x ∈ t.gone, x.gid = l.gid ∧ x.rank = r
          ∧ x.round / 2 ^ 32 = l.round / 2 ^ 32 ∧ x.round ≤ l.round) →
        ∃ m ∈ t.leaders, m.gid = l.gid ∧ m.round = l.round ∧ m.fixed.isSome = true)
  ∧ (∀ (p : CollPacket) (s : State) (g : Group) (l : LeaderRound), s.group? p.gid = some g → p.gone = false → p.rank < g.n →
    (s.leaders.find? (fun x => x.gid == p.gid && x.round == p.round) = some l
      ∨ (s.leaders.find? (fun x => x.gid == p.gid && x.round == p.round) = none ∧ g.rankOf s.dev = (s.liveRanks g).head?
          ∧ l = ⟨p.gid, p.round, [], s.dtime, none, [], 0, false, false⟩)) →
    l.fixed = none → (∀ q ∈ l.reports, q.rank ≠ p.rank) →
    ∃ (t : State) (m : LeaderRound), exec (.arrivalReport p) s = .next t ∧ m ∈ t.leaders ∧ m.gid = p.gid ∧ m.round = p.round
      ∧ m.reports = l.reports ++ [p] ∧ m.firstAt = l.firstAt ∧ (m.fixed.isSome = true ↔ ∀ r, r < g.n → r = p.rank ∨ (∃ q ∈ l.reports, q.rank = r)
          ∨ ∃ x ∈ s.gone, x.gid = p.gid ∧ x.rank = r ∧ x.round / 2 ^ 32 = p.round / 2 ^ 32 ∧ x.round ≤ p.round)
      ∧ t.mem = s.mem)
  ∧ (∀ (s : State) (gid : Nat) (l : LeaderRound) (p : CollPacket), s.leaders.find? (fun x => x.gid == gid && x.fixed.isNone) = some l →
    l.reports.head? = some p → (l.reports.map (·.rank)).Nodup →
    ((p.cdl = 0 ∨ s.dtime < l.firstAt + p.cdl) → exec (.collectiveDeadline gid) s = .next s)
    ∧ (p.cdl ≠ 0 → l.firstAt + p.cdl ≤ s.dtime → ∃ (t : State) (m : LeaderRound) (set : List Nat), exec (.collectiveDeadline gid) s = .next t
        ∧ m ∈ t.leaders ∧ m.gid = l.gid ∧ m.round = l.round ∧ m.part = true ∧ m.fixed = some set
        ∧ (∀ r ∈ set, ∃ q ∈ l.reports, q.rank = r) ∧ (∀ q ∈ l.reports, q.rank ∈ set → m.dlvl ≤ q.dlvl)
        ∧ .fixedSet gid ⟨l.round, set, m.dlvl, false⟩ ∈ t.outbox))
  ∧ (∀ (s : State) (gid home : Nat) (g : Group) (h : HomeRound) (set : List Nat) (dlvl : Nat) (p : CollPacket), s.group? gid = some g →
    s.homes.find? (fun x => x.gid == gid && x.set.isSome && x.written.isNone) = some h → h.set = some (set, dlvl) → g.rankOf s.dev = some home →
    s.poison = [] → s.latent = [] → let ps := h.packets.filter fun q => set.contains q.rank
    (∀ r ∈ set, ∃ q ∈ ps, q.rank = r) → ps.head? = some p →
    let offs := ((ps.flatMap (·.elems)).map (·.1)).eraseDups
    let vals (o : Nat) : List (Nat × Nat) := ps.filterMap fun q => (q.elems.find? (·.1 == o)).map fun e => (q.rank, e.2)
    ∃ t : State, exec (.homeCombine gid home none) s = .next t
      ∧ t.mem = Memory.putAll s.mem (offs.flatMap fun o => (keysFrom (g.gwin + h.round % 2 * g.gwlen + o) (p.sew / 8)).zip
          (leBytes (p.sew / 8) (combineAt p.cop p.sew p.flt dlvl (vals o))))
      ∧ t.homeAt gid h.round = { h with written := some offs } ∧ t.outbox = s.outbox ++ [.homeDone gid h.round home ((FMap.get? s.late gid).getD [])])
  ∧ (∀ (s : State) (gid home : Nat) (g : Group) (m : SetMsg), s.group? gid = some g → m.poison = true →
    exec (.homeCombine gid home (some m)) s = .next (s.kill g.ctx Cause.poison.code 0))
  ∧ ∀ (s : State) (gid : Nat) (homes : List HomeMsg),
    (∀ m : ReleaseMsg, ∃ t : State, exec (.roundRelease gid (some m) homes) s = .next t ∧ (t.released? gid m.round).isSome = true
      ∧ (s.released? gid m.round = none → (t.released? gid m.round) = some ⟨gid, m, homes⟩))
    ∧ ∀ (l : LeaderRound) (g : Group), s.leaders.find? (fun x => x.gid == gid && x.fixed.isSome && !x.released) = some l → s.group? gid = some g →
      let wrote (h : Nat) : Prop := (g.rankOf s.dev = some h ∧ (s.homeAt gid l.round).written.isSome = true)
        ∨ (g.rankOf s.dev ≠ some h ∧ ∃ x ∈ homes, x.home = h)
      ((∃ h ∈ s.liveRanks g, ¬ wrote h) → exec (.roundRelease gid none homes) s = .next s)
      ∧ ((∀ h ∈ s.liveRanks g, wrote h) →
      ∃ (t : State) (m : ReleaseMsg), exec (.roundRelease gid none homes) s = .next t ∧ m.round = l.round ∧ some m.set = l.fixed
        ∧ m.removed = l.removed ∧ m.part = l.part
        ∧ (∃ l : List (Nat × Nat), l.Nodup ∧ (∀ q, q ∈ l ↔ q ∈ (FMap.get? s.late gid).getD [] ∨ ∃ x ∈ homes, q ∈ x.late) ∧ m.late = min 65535 l.length)
        ∧ t.outbox = s.outbox ++ [.release gid m] ∧ (t.released? gid l.round).isSome = true)

/-- For a member of its group whose checks of R78 pass: DPOST and DPOSTA with a bad VL or own element raise XFAIL 3,
and else, as releases, wait for what VSTP has pushed (log entry 6); then DPOST over a running exchange that it
posted XFAIL 5, over one that it did not post NOROW, else it takes the control area and sends its row, with the
last generation that the device has seen in the group (log entry 104: the model's reading); DPOSTA without DPOST
raises XFAIL 8, else it sends a row to add, or with grants already here discards it and sets DROP. XTRIM trims a
future sheet of the member to n bytes, else sets NOTRIM. XGO arms, asks for leave, or raises XFAIL 6 when XRLEN
is too small; with nothing to arm it passes. XWAIT raises XFAIL 7 for a rank out of range, gives 0 without an
exchange, waits for its sources, then gives d the bytes that arrived, or raises XFAIL 4 for a dead source that
fell short. XSTAT gives d the status of R394. Both first deliver what the engine has recorded, XFAIL 6 before a
fault (an order that is the model's, log entry 51). MEMBER_DEAD marks a device dead, lets no contribution wait
for its home, sets DEAD, completes its sources, lets the next one send in the loose tail, and fixes a calendar
that waited for it alone; DTIME_DISCIPLINE never moves DTIME back and sets SKEW beyond 125 ns. -/
def Obligations.ExchangeMemberResults : Prop :=
  (∀ (f : VF) (s : State) (gid : Nat) (g : Group) (rank : Nat), s.lc.cgrp.getLsbD 63 = true → s.myGroup = some (gid, g, rank) →
    let c := s.lc
    let x := c.xchIn gid
    let ill := Vtype.vill c.vtype || Vtype.flt c.vtype || c.sew != 64
    let row := (List.range g.n).map fun j => c.val f.s1.toNat 64 j
    let lost (r : Nat) : Prop := (g.members.getD r (0, 0)).1 ∈ s.dead
    let sound : Prop := c.vl = g.n ∧ c.val f.s1.toNat 64 rank = 0
    let fails (i : Instr) (n : Word) : Prop := exec i s = .next (s.deliver ⟨.xfail, n, 0, c.pc, c.vstart⟩)
    let sends (add : Bool) : OutMsg := .row ⟨gid, rank, add, row, c.cdl.toNat, max x.gen ((FMap.get? s.xgens gid).getD 0), false, []⟩
    (s.Passes { Member.base (encode (.dpost f)) false with ill := ill, vr := [c.grp f.s1] } →
      (¬ sound → fails (.dpost f) 3)
      ∧ (sound → s.owes = true → exec (.dpost f) s = .next (s.waiting .other))
      ∧ (sound → s.owes = false → x.active = true → x.complete = false → x.posted = true → fails (.dpost f) 5)
      ∧ (sound → s.owes = false → x.active = true → x.complete = false → x.posted = false → exec (.dpost f) s = .next (s.setLc
          { c with pc := c.pc + 4, xchs := FMap.set c.xchs gid { x with flags := x.flags ||| 64, dposted := true } }))
      ∧ (sound → s.owes = false → (x.active = false ∨ x.complete = true) → ∀ u area v sb rb rl,
          State.areaBlocks s.who c.xbase (List.range 6) s = (u, .ok area) → u.areaHead area = (v, some (sb, rb, rl)) →
          ∃ (t : State) (y : XchMember), exec (.dpost f) s = .next t ∧ t.lc = { v.lc with xchs := FMap.set v.lc.xchs gid y, pc := v.lc.pc + 4 } ∧ t.mem = v.mem
            ∧ t.outbox = v.outbox ++ [sends false] ∧ y.active = true ∧ y.posted = true ∧ y.dposted = true ∧ y.gid = gid ∧ y.area = area
            ∧ y.sbuf = sb ∧ y.rbuf = rb ∧ y.rlen = rl ∧ y.armed = false ∧ y.granted = false
            ∧ y.core = s.core ∧ y.gen = x.gen ∧ y.faults = x.faults ∧ y.fail6 = x.fail6
            ∧ y.flags = (if 125 < s.dtOffset.natAbs then 4 else 0) ||| (if ∃ r, r < g.n ∧ lost r then 0x80 else 0)))
    ∧ (s.Passes { Member.base (encode (.dposta f)) false with ill := ill, vr := [c.grp f.s1] } →
      (¬ sound → fails (.dposta f) 3)
      ∧ (sound → s.owes = true → exec (.dposta f) s = .next (s.waiting .other))
      ∧ (sound → s.owes = false → x.dposted = false → fails (.dposta f) 8)
      ∧ (sound → s.owes = false → x.dposted = true → x.granted = true → exec (.dposta f) s = .next
          (s.setLc { c with pc := c.pc + 4, xchs := FMap.set c.xchs gid { x with flags := x.flags ||| 8 } }))
      ∧ (sound → s.owes = false → x.dposted = true → x.granted = false → exec (.dposta f) s = .next
          (({ s with outbox := s.outbox ++ [sends true] } : State).setLc { c with pc := c.pc + 4 }))))
  ∧ (∀ (f : VF) (s : State) (gid : Nat) (g : Group) (rank : Nat), s.lc.cgrp.getLsbD 63 = true → s.myGroup = some (gid, g, rank) →
    let c := s.lc
    let x := c.xchIn gid
    let moved (u : State) (y : XchMember) : State := u.setLc { u.lc with pc := c.pc + 4, xchs := FMap.set u.lc.xchs gid y }
    let need := (x.sources.map fun y => 256 * ((y.exp + 255) / 256)).foldl (· + ·) 0
    (s.Free [f.s1, f.s2] → let u := s.seen [f.s1, f.s2]
      let k := (c.rd f.s1).toNat
      let n := (c.rd f.s2).toNat
      let may : Prop := ∃ h, x.grants[k]? = some h ∧ x.active = true ∧ h.dst ≠ 0xFFFF ∧ k ∉ x.started ∧ s.dtime < h.tstart
        ∧ n < h.sbytes
      (may → exec (.xtrim f) s = .next (moved u { x with trims := (k, n) :: x.trims.filter (·.1 != k) }))
      ∧ (¬ may → exec (.xtrim f) s = .next (moved u { x with flags := x.flags ||| 16 })))
    ∧ ((x.active = false ∨ x.armed = true) → exec (.xgo f) s = .next (s.setLc { c with pc := c.pc + 4 }))
    ∧ (x.active = true → x.armed = false →
        (x.granted = true → x.rlen.toNat < need → exec (.xgo f) s = .next (s.deliver ⟨.xfail, 6, 0, c.pc, c.vstart⟩))
        ∧ (x.granted = false → exec (.xgo f) s = .next (moved (s.askLeave (xgoLeave gid) 0 c.job.prio) { x with armed := true, after := s.owed none }))
        ∧ (x.granted = true → need ≤ x.rlen.toNat →
          ∃ t : State, exec (.xgo f) s = .next t ∧ (t.lc.xchIn gid).armed = true ∧ t.lc.pc = c.pc + 4 ∧ t.lc.g = c.g ∧ t.mem = s.mem
            ∧ (x.complete = false → t.gov = (s.askLeave (xgoLeave gid) 0 c.job.prio).gov)))
    ∧ (let told (i : Instr) (u : State) : Prop :=
        (x.fail6 = true → exec i s = .next ((u.setLc (u.lc.setXch gid { x with fail6 := false })).deliver ⟨.xfail, 6, 0, c.pc, c.vstart⟩))
        ∧ ∀ r l, x.fail6 = false → x.faults = r :: l →
          exec i s = .next ((u.setLc (u.lc.setXch gid { x with faults := l })).deliver ⟨r.cause, r.addr, 0, c.pc, c.vstart⟩)
      (s.Free [f.d, f.s1] → (c.rd f.s1 = BitVec.allOnes 64 ∨ (c.rd f.s1).toNat < g.n) → told (.xwait f) (s.seen [f.d, f.s1]))
      ∧ (s.notDrained = false → s.Free [f.d] → told (.xstat f) (s.seen [f.d])))
    ∧ (s.Free [f.d, f.s1] → x.fail6 = false → x.faults = [] → let u := s.seen [f.d, f.s1]
      let v := c.rd f.s1
      let all : Prop := v = BitVec.allOnes 64
      (¬ all → g.n ≤ v.toNat → exec (.xwait f) s = .next (u.deliver ⟨.xfail, 7, 0, c.pc, c.vstart⟩))
      ∧ ((all ∨ v.toNat < g.n) → x.active = false → exec (.xwait f) s = .next (u.put f.d 0))
      ∧ ((all ∨ v.toNat < g.n) → x.active = true → ∀ mine, (all → mine = x.sources) → (¬ all → mine = (x.sources[v.toNat]?).toList) →
        ((x.granted = false ∨ ∃ y ∈ mine, y.complete = false) → exec (.xwait f) s = .next (u.waiting .other))
        ∧ (x.granted = true → (∀ y ∈ mine, y.complete = true) →
          let n := BitVec.ofNat 64 ((mine.map (·.arr)).foldl (· + ·) 0)
          ((∀ y ∈ mine, ¬ (y.dead = true ∧ y.arr < y.exp)) → exec (.xwait f) s = .next ((u.dropLines u.core (mine.flatMap (·.keys))).put f.d n))
          ∧ ((∃ y ∈ mine, y.dead = true ∧ y.arr < y.exp) → ∀ w : State, w = (u.dropLines u.core (mine.flatMap (·.keys))).setLc (u.lc.wr f.d n) →
              exec (.xwait f) s = .next (w.deliver ⟨.xfail, 4, 0, c.pc, c.vstart⟩)))))
    ∧ (s.notDrained = false → s.Free [f.d] → x.fail6 = false → x.faults = [] →
      ∃ (t : State) (r : Nat), exec (.xstat f) s = .next t ∧ t = (s.seen [f.d]).put f.d (BitVec.ofNat 64 r)
        ∧ r % 2 ^ 8 = x.flags.toNat % 2 ^ 8 ∧ (r.testBit 8 = true ↔ x.active = true ∧ x.complete = true)
        ∧ ((x.active = false ∨ x.granted = true) → r / 2 ^ 32 % 2 ^ 16 = (x.sources.filter (·.complete)).length % 2 ^ 16)
        ∧ (x.active = true → x.granted = false →
            r / 2 ^ 32 % 2 ^ 16 = ((List.range g.n).filter fun r => s.dead.contains (g.members.getD r (0, 0)).1).length % 2 ^ 16)
        ∧ signedOf 16 (r / 2 ^ 48 % 2 ^ 16) = max (-32768) (min 32767 s.dtOffset)))
  ∧ (∀ (s : State) (dev : Nat), dev ≠ s.dev → dev ∉ s.dead →
    ∃ t : State, exec (.memberDead dev) s = .next t ∧ t.dead = s.dead ++ [dev] ∧ t.mem = s.mem
      ∧ (∀ y ∈ t.pushes, ∀ g, s.group? y.report.gid = some g → ∀ h ∈ y.left, (g.members.getD h (0, 0)).1 ≠ dev)
      ∧ (∀ n, (∀ p ∈ (s.thr n).lc.xchs, p.2.active = false) → t.thr n = s.thr n)
      ∧ (∀ (n gid j : Nat) (g : Group), ((s.thr n).lc.xchIn gid).active = true → s.group? gid = some g → j < g.n →
          (g.members.getD j (0, 0)).1 = dev →
          let x := (s.thr n).lc.xchIn gid
          let z := (t.thr n).lc.xchIn gid
          z.flags.getLsbD 7 = true
          ∧ (∀ y, x.sources[j]? = some y → z.sources[j]? = some { y with complete := true, dead := true })
          ∧ ∀ rank i, x.granted = true → x.tend ≤ s.dtime → g.rankOf s.dev = some rank →
              x.sources.findIdx? (!·.complete) = some j → z.sources.findIdx? (!·.complete) = some i →
              .ready ⟨x.gid, i, rank, none, x.gen⟩ ∈ t.outbox)
      ∧ ∀ (x : Imposition) (g : Group), s.imposers = [x] → s.group? x.gid = some g → x.fixedAt = none → (x.place = 0 ∨ x.lead = true) →
          x.rows ≠ [] → (∀ r, r < g.n → (g.members.getD r (0, 0)).1 ∉ t.dead → (FMap.get? x.rows r).isSome = true) →
          ∃ y, t.imposer? x.gid = some y ∧ y.fixedAt = some s.dtime)
  ∧ ∀ (s : State) (now : Nat) (off : Int),
    ∃ t : State, exec (.dtimeDiscipline now off) s = .next t ∧ t.dtime = max s.dtime now ∧ t.dtOffset = off ∧ t.mem = s.mem
      ∧ (off.natAbs ≤ 125 → ∀ n, t.thr n = s.thr n)
      ∧ (125 < off.natAbs → ∀ n gid, ((s.thr n).lc.xchIn gid).active = true → ((t.thr n).lc.xchIn gid).flags.getLsbD 2 = true)

/-- DEMAND_ROW: a row that missed the fix goes back to its member, which notes it (DROP, NOROW); any other is
recorded, and with the last live member's row, where this device leads, the calendar is fixed without dead
members at the next generation. CALENDAR_DEADLINE fixes it CDL ns after the first row, and takes the area of a
member with no row. GRANT_WRITE sends every other member its grants; a member accepts a calendar of a higher
generation and no other. IMPOSER_HEARTBEAT is sent by the Imposer and counted missed by the standby; after three
STANDBY_TAKEOVER rebuilds the calendar at a new generation. SHEET_START of a due sheet lets its source send, and
the member sends its own sheet once: trimmed where trimmed, as a 0-byte end flit when disarmed, after its ready
flit when the clock is off. LOOSE_TAIL_START after XTEND lets the first source send and sends the first transfer
that is ready; READY_FLIT is recorded and lets its transfer go, one of a calendar still to be accepted with it;
EXCHANGE_BYTES lands and counts the bytes of its source, waits behind what the swap engine holds, or, before the
grants, for them. An armed member with leave joins as it first may (R189, R389). That a row goes back, which
generation starts anew, that CALENDAR_DEADLINE takes the area also on a device that does not lead, that a device
keeps the last generation for later launches, and that early bytes are kept, are the model's (log entries 86,
88, 85, 104, 105). -/
def Obligations.ExchangeEngineSteps : Prop :=
  (∀ (m : DemandMsg) (s : State) (g : Group), s.group? m.gid = some g →
    let noted (w : Seat) : State := let x := s.xchAt w m.gid
      s.setXchAt w m.gid { x with flags := x.flags ||| if m.add then 8 else 64 }
    (m.back = true → g.rankOf s.dev ≠ some m.rank → exec (.demandRow m) s = .next s)
    ∧ (∀ w, m.back = true → g.rankOf s.dev = some m.rank → s.memberSeat m.gid g = some w → exec (.demandRow m) s = .next (noted w))
    ∧ (m.back = false → m.rank < g.n →
      let missed : Prop := (s.imposer? m.gid = none ∧ m.add = true) ∨ ∃ x, s.imposer? m.gid = some x
        ∧ (m.gen < x.firstGen ∨ (m.add = true ∧ (x.fixedAt.isSome = true ∨ FMap.get? x.rows m.rank = none)))
      (missed →
        (g.rankOf s.dev ≠ some m.rank → exec (.demandRow m) s = .next { s with outbox := s.outbox ++ [.row { m with back := true }] })
        ∧ ∀ w, g.rankOf s.dev = some m.rank → s.memberSeat m.gid g = some w → exec (.demandRow m) s = .next (noted w))
      ∧ (¬ missed →
        let place := if s.imposerAt g 0 then 0 else 1
        ∀ x : Imposition, (s.imposer? m.gid = none → x = ⟨m.gid, false, [], 0, 0, none, false, [], 0, m.gen, 0, [], [], false, place, m.gen⟩) →
          (∀ z, s.imposer? m.gid = some z → x = if z.fixedAt.isSome then
              ⟨m.gid, false, [], 0, 0, none, false, [], 0, max z.gen m.gen, 0, [], [], false, place, z.firstGen⟩ else { z with gen := max z.gen m.gen }) →
        let old := (FMap.get? x.rows m.rank).getD []
        let row := (if m.add then old.zipWith (fun a b => (a + b) % 2 ^ 64) m.row else m.row).map (· % 2 ^ 64)
        ∃ (t : State) (y : Imposition), exec (.demandRow m) s = .next t ∧ t.imposer? m.gid = some y ∧ t.mem = s.mem ∧ t.threads = s.threads
          ∧ let rows := FMap.set x.rows m.rank row
            let all : Prop := (∀ r ∈ s.liveRanks g, (FMap.get? rows r).isSome = true) ∧ (x.place = 0 ∨ x.lead = true)
            (¬ all → y.rows = rows ∧ y.fixedAt = none ∧ y.gen = x.gen ∧ (x.rows = [] → y.firstAt = s.dtime ∧ y.cdl = m.cdl))
            ∧ (all → y.fixedAt = some s.dtime ∧ y.gen = (x.gen + 1) % 2 ^ 32 ∧ y.t0 = 1000 * ((s.dtime + 999) / 1000) + 5000 ∧ y.written = false
                ∧ ∀ r, r < g.n → FMap.get? y.rows r = if r ∈ s.liveRanks g then (FMap.get? rows r).map fun l =>
                    l.zipIdx.map fun d => if s.isDead g d.2 then 0 else d.1 else none))))
  ∧ (∀ (s : State) (gid : Nat) (g : Group) (x : Imposition), s.group? gid = some g → s.imposer? gid = some x →
    let leads : Prop := x.place = 0 ∨ x.lead = true
    (let due : Prop := x.fixedAt = none ∧ x.rows ≠ [] ∧ x.cdl ≠ 0 ∧ x.firstAt + x.cdl ≤ s.dtime;
      (leads → ¬ due → exec (.calendarDeadline gid) s = .next s)
      ∧ (leads → due → ∃ (t : State) (y : Imposition), exec (.calendarDeadline gid) s = .next t ∧ t.imposer? gid = some y
        ∧ y.fixedAt = some s.dtime ∧ y.gen = (x.gen + 1) % 2 ^ 32 ∧ y.written = false
        ∧ ((∀ w, s.memberSeat gid g = some w → (s.xchAt w gid).active = true ∧ (s.xchAt w gid).complete = false) →
            t.mem = s.mem ∧ t.threads = s.threads ∧ t.saved = s.saved))
      ∧ ∀ w, (leads → due) → s.memberSeat gid g = some w → ((s.xchAt w gid).active = false ∨ (s.xchAt w gid).complete = true) →
        let v : State := if x.place = 0 ∨ x.lead = true then s.setImposer (s.fixNow g x) else s
        let c := s.seated w
        ∀ u area z sb rb rl, State.areaBlocks ⟨some (s.seatCore w), c.job.ctx, c.level⟩ c.xbase (List.range 6) v = (u, .ok area) →
          u.areaHead area = (z, some (sb, rb, rl)) → ∃ t : State, exec (.calendarDeadline gid) s = .next t ∧ t.mem = z.mem
            ∧ let y := t.xchAt w gid
              y.active = true ∧ y.posted = false ∧ y.area = area ∧ y.sbuf = sb ∧ y.rbuf = rb ∧ y.rlen = rl ∧ y.granted = false
              ∧ y.gen = (s.xchAt w gid).gen)
    ∧ (x.fixedAt.isSome = true → x.written = false → leads → (∀ e ∈ s.early, e.gid ≠ gid) → ∃ (t : State) (y : Imposition), exec (.grantWrite gid none) s = .next t
        ∧ t.imposer? gid = some y ∧ y.written = true
        ∧ ∀ r, r < g.n → g.rankOf s.dev ≠ some r → .grants gid r (x.grantsFor g.xrate g.n r) ∈ t.outbox)
    ∧ (leads → ∀ heard, exec (.imposerHeartbeat gid heard) s = .next { s with outbox := s.outbox ++ [.heartbeat gid] })
    ∧ (¬ leads → ∀ heard, exec (.imposerHeartbeat gid heard) s = .next (s.setImposer { x with missed := if heard then 0 else x.missed + 1 }))
    ∧ ((x.missed < 3 ∨ leads) → exec (.standbyTakeover gid) s = .next s)
    ∧ (3 ≤ x.missed → ¬ leads → ∃ (t : State) (y : Imposition), exec (.standbyTakeover gid) s = .next t
        ∧ t.imposer? gid = some y ∧ y.lead = true ∧ y.rebuilt = true ∧ y.fixedAt = some s.dtime ∧ y.gen = (x.gen + 1) % 2 ^ 32
        ∧ y.written = false ∧ y.missed = 0 ∧ t.mem = s.mem
        ∧ (x.layout = [] → t.outbox = s.outbox ++ x.rows.map fun r => .row ⟨gid, r.1, false, r.2, x.cdl, x.gen, false, []⟩)
        ∧ (x.layout ≠ [] → y.layout = x.layout
          ∧ t.outbox = s.outbox ++ x.layout.map fun r => .row ⟨gid, r.1, false, r.2, x.cdl, x.gen, false, (FMap.get? y.sent r.1).getD []⟩)))
  ∧ (∀ (s : State) (gid : Nat) (g : Group) (w : Seat) (rank : Nat) (m : GrantsMsg), s.group? gid = some g → s.imposer? gid = none →
    s.memberSeat gid g = some w → g.rankOf s.dev = some rank → (∀ e ∈ s.early, e.gid ≠ gid) → let x := s.xchAt w gid
    let seen := max x.gen ((FMap.get? s.xgens gid).getD 0)
    (m.gen ≤ seen → exec (.grantWrite gid (some m)) s = .next s)
    ∧ (seen < m.gen → m.gen < 2 ^ 32 → x.active = true → x.complete = false →
      ∃ t : State, exec (.grantWrite gid (some m)) s = .next t ∧ (s.latent = [] → t.seq = s.seq + 1) ∧ (t.seated w).xgen.toNat = m.gen
        ∧ FMap.get? t.xgens gid = some m.gen
        ∧ let y := t.xchAt w gid
          y.granted = true ∧ y.grants = m.grants ∧ y.t0 = m.t0 ∧ y.tend = m.tend ∧ y.gen = m.gen
          ∧ y.sources.length = g.n ∧ y.dests.length = g.n
          ∧ (∀ r, r ∈ y.ready ↔ ∃ q ∈ x.readyNext, q.gen = m.gen ∧ r = (q.dst, q.sheet))))
  ∧ ∀ (s : State) (gid : Nat) (w : Seat) (rank : Nat), s.exchanging gid = some (w, rank) → let now := s.joinExchange w gid
    let x := now.xchAt w gid
    let dest (y : XchMember) (j : Nat) : XDest := (y.dests[j]?).getD ⟨0, 0, []⟩
    let sends (i : Instr) (v : State) (dst n off : Nat) (short : Bool) (y : XchMember) : Prop :=
      ∀ u b, State.readUpTo ⟨some x.core, (s.seated w).job.ctx, if (s.seated w).job.priv then .s else .u⟩ (n / 0x8000 + 2) v
          (x.sbuf + BitVec.ofNat 64 ((dest x dst).soff + off)) n = (u, b, none) →
        ∃ (t : State) (m : ExchangeMsg), exec i s = .next t ∧ t.outbox = u.outbox ++ [.bytes m] ∧ m.gid = gid ∧ m.dst = dst ∧ m.src = rank
          ∧ m.off = off ∧ m.bytes = b ∧ m.short = (short || decide (b.length < n)) ∧ t.xchAt w gid = y ∧ t.mem = u.mem
          ∧ (m.last = true ↔ (∀ (k : Nat) h, y.grants[k]? = some h → h.dst = dst → k ∈ y.started) ∧ (dest y dst).tail = [])
    let sheet (i : Instr) (v : State) (z : XchMember) (k : Nat) : Prop := ∀ h, x.grants[k]? = some h →
      ((h.dst = 0xFFFF ∨ k ∈ x.started ∨ s.dtime < h.tstart) → exec i s = .next v)
      ∧ (h.dst ≠ 0xFFFF → k ∉ x.started → h.tstart ≤ s.dtime →
        let y : XchMember := { z with started := x.started ++ [k] }
        let off := h.soff - (dest x h.dst).soff
        let late : Prop := x.joined = false ∨ (125 < s.dtOffset.natAbs ∧ (h.dst, some k) ∉ z.ready)
        (x.disarmed = true → sends i v h.dst 0 off true y)
        ∧ (x.disarmed = false → late → exec i s = .next v)
        ∧ (x.disarmed = false → ¬ late → (∀ p, x.trims.find? (·.1 == k) = some p → sends i v h.dst p.2 off true y)
          ∧ (x.trims.find? (·.1 == k) = none → sends i v h.dst h.sbytes off false y)))
    let tail (i : Instr) (v : State) (z : XchMember) : Prop :=
      ((∀ d ∈ x.dests, d.tail = []) → exec i s = .next v)
      ∧ ∀ j p l, x.dests.findIdx? (!·.tail.isEmpty) = some j → (dest x j).tail = p :: l → x.tend ≤ s.dtime →
        let y : XchMember := { z with dests := x.dests.modify j fun d => { d with tail := l } }
        (x.disarmed = true → sends i v j 0 p.off true y)
        ∧ (x.disarmed = false → (x.joined = false ∨ (j, none) ∉ z.ready) → exec i s = .next v)
        ∧ (x.disarmed = false → x.joined = true → (j, none) ∈ z.ready → sends i v j p.n p.off p.short y)
    let lets : List OutMsg := match x.sources.findIdx? (!·.complete) with
      | some j => [.ready ⟨x.gid, j, rank, none, x.gen⟩]
      | none => []
    (∀ (k : Nat) (h : Grant), x.grants[k]? = some h →
      (s.dtime < h.tstart → exec (.sheetStart gid k) s = .next s)
      ∧ (h.tstart ≤ s.dtime → sheet (.sheetStart gid k)
          { now with outbox := s.outbox ++ if h.src = 0xFFFF then [] else [.ready ⟨gid, h.src, rank, some k, x.gen⟩] } x k))
    ∧ ((x.granted = false ∨ s.dtime < x.tend) → exec (.looseTailStart gid) s = .next s)
    ∧ (x.granted = true → x.tend ≤ s.dtime → tail (.looseTailStart gid) { now with outbox := s.outbox ++ lets } x)
    ∧ (∀ m : ReadyMsg, m.gid = gid →
        let z : XchMember := { x with ready := x.ready ++ [(m.dst, m.sheet)] }
        let goes : Prop := m.src = rank ∧ m.gen = x.gen ∧ x.granted = true
        (m.src ≠ rank → exec (.readyFlit m) s = .next s)
        ∧ (m.src = rank → x.gen < m.gen → exec (.readyFlit m) s = .next (s.setXchAt w gid
            { s.xchAt w gid with readyNext := (s.xchAt w gid).readyNext ++ [m] }))
        ∧ (m.src = rank → m.gen ≤ x.gen → (x.granted = false ∨ m.gen < x.gen) → exec (.readyFlit m) s = .next s)
        ∧ (∀ k, goes → m.sheet = some k → sheet (.readyFlit m) (now.setXchAt w gid z) z k)
        ∧ (goes → m.sheet = none → x.tend ≤ s.dtime → tail (.readyFlit m) (now.setXchAt w gid z) z)
        ∧ (goes → m.sheet = none → s.dtime < x.tend → exec (.readyFlit m) s = .next (now.setXchAt w gid z)))
    ∧ (s.xchAt w gid ≠ x → x = { s.xchAt w gid with joined := true, started := x.started, dests := x.dests, flags := x.flags } ∧ (s.xchAt w gid).joined = false
        ∧ x.armed = true ∧ x.granted = true ∧ x.disarmed = false ∧ x.after = [] ∧ s.hasLeave (xgoLeave gid) = true)
    ∧ (∀ m : ExchangeMsg, m.gid = gid → (s.xchAt w gid).granted = false ∨ (s.xchAt w gid).complete = true →
        exec (.exchangeBytes m) s = .next (if m.dst = rank then { s with early := s.early ++ [m] } else s))
    ∧ ∀ (m : ExchangeMsg) (y : XSource), let x := s.xchAt w gid
      m.gid = gid → x.granted = true → x.complete = false → x.sources[m.src]? = some y →
        (m.dst ≠ rank → exec (.exchangeBytes m) s = .next s)
        ∧ (m.dst = rank → s.heldFrom gid m.src = true → exec (.exchangeBytes m) s = .next { s with heldRemote := s.heldRemote ++ [.bytes m] })
        ∧ (m.dst = rank → s.heldFrom gid m.src = false → ∀ u ks h,
          s.landBytes ⟨some x.core, (s.seated w).job.ctx, if (s.seated w).job.priv then .s else .u⟩ x.rbuf (m.bytes.length / 0x8000 + 2)
            (y.roff + m.off) (m.bytes.take (x.rlen.toNat - (y.roff + m.off))) = (u, ks, h) → (h = none ∨ h = some .wait) →
          ∃ t : State, exec (.exchangeBytes m) s = .next t ∧ t.mem = (u.putArea' x.area (0x40 + 8 * m.src) 8 (y.arr + ks.length)).mem
            ∧ (h = some .wait → t.heldRemote = u.heldRemote ++ [.bytes { m with off := m.off + ks.length, bytes := m.bytes.drop ks.length }])
            ∧ let z := t.xchAt w gid
              z.sources[m.src]? = some { y with arr := y.arr + ks.length, complete := y.complete || (m.last && h.isNone), keys := y.keys ++ ks }
              ∧ (∀ j, j ≠ m.src → z.sources[j]? = x.sources[j]?) ∧ (z.flags.getLsbD 0 = true ↔ m.short = true ∨ x.flags.getLsbD 0 = true))

/-- LEAVE_GRANT: the first request not deferred, when its charge fits in 2,250 W (2,400 W in the band), holds leave
and is stamped; below the band, if it does not fit, nothing happens; in the band, holders below it lose leave,
lowest priority and newest first, just until it fits, each withdrawal stamped. LEAVE_EXPIRY queues a renewal for
a grant 20 us old. RENEWAL_TIMEOUT withdraws the leave of a renewal that waited 2 us, which stays queued; the
stream is paused, the attachment displaced. DECK_CURRENT_SAMPLE moves the ballast by 5 A and, above 6% for a
window, raises MC_DECK without a kill; above 5.5% one holder of the heavier deck loses its leave. Scrubs remove
a corrected error and count it, or poison an uncorrectable word. TSV_PARITY_RETRY counts its retries; LANE_TEST
takes a spare, or retires the channel; BOND_LANE_SWAP takes a spare, or serves the bank laterally;
REMAP_POISON_WALK kills exactly the contexts whose tables map the lost range. The four clears act once READY.
That the charge a renewal replaces is not counted in the sum (log entry 40), the 5 A fall (41) and the counting
of each retry (43) are the model's readings. -/
def Obligations.PowerAndRepairSteps : Prop :=
  (∀ (s : State),
    ((∀ r ∈ s.gov.reqs, s.gov.defers r = true) → exec .leaveGrant s = .next s)
    ∧ ∀ r : LeaveReq, s.gov.queue.find? (fun q => !s.gov.defers q) = some r →
      let total (l : List LeaveHeld) : Nat := ((l.filter (·.ref != r.ref)).map (·.charge)).foldl (· + ·) 0
      let granted (t : State) : Prop := (∀ q ∈ t.gov.reqs, q.ref ≠ r.ref)
        ∧ ((r.ref.kind = .xgo → ∀ g w, s.group? r.ref.port = some g → s.memberSeat r.ref.port g = some w →
              (s.xchAt w r.ref.port).granted = false ∨ (s.xchAt w r.ref.port).allIn = false) → t.hasLeave r.ref = true)
        ∧ (r.ref.kind = .strm → (s.port r.ref.core r.ref.port).owner = some r.ref.thr →
            ∀ i x, (t.port r.ref.core r.ref.port).cmds.findIdx? (!·.done) = some i →
              (t.port r.ref.core r.ref.port).cmds[i]? = some x → x.paused = false)
      (r.prio < 112 → 2250000 < s.gov.pm + total s.gov.grants + r.charge → exec .leaveGrant s = .next s)
      ∧ (s.gov.pm + total s.gov.grants + r.charge ≤ (if r.prio < 112 then 2250000 else 2400000) →
          ∃ t : State, exec .leaveGrant s = .next t ∧ granted t ∧ t.seq = s.seq + 1
            ∧ t.mem = s.mem ∧ (r.ref.kind ≠ .xgo → ∀ h ∈ s.gov.grants, h.ref ≠ r.ref → h ∈ t.gov.grants))
      ∧ ∀ l : List LeaveHeld, 112 ≤ r.prio → l.Perm (s.gov.grants.filter fun h => decide (h.prio < 112) && h.ref.kind != .xgo) →
          l.Pairwise (fun a b => a.prio < b.prio ∨ (a.prio = b.prio ∧ b.order < a.order)) → (s.gov.grants.map (·.ref)).Nodup →
          (∀ h ∈ s.gov.grants, h.ref.kind = .matt → h.ref = mattLeave h.ref.thr) → (∀ h ∈ l, h.ref ≠ r.ref) →
          let fits (k : Nat) : Prop := s.gov.pm + total (s.gov.grants.filter fun h => !(l.take k).contains h) + r.charge ≤ 2400000
          ∀ k, k ≤ l.length → (∀ j, j < k → ¬ fits j) → (fits k ∨ k = l.length) →
            ∃ t : State, exec .leaveGrant s = .next t
              ∧ (fits k → granted t ∧ t.seq = s.seq + k + 1) ∧ (¬ fits k → t.seq = s.seq + k)
              ∧ (∀ h ∈ l.take k, t.hasLeave h.ref = false)
              ∧ (r.ref.kind ≠ .xgo → ∀ h ∈ s.gov.grants, h.ref ≠ r.ref → h ∉ l.take k → h ∈ t.gov.grants))
  ∧ (∀ (s : State) (n : Nat) (h : LeaveHeld), s.gov.grants[n]? = some h →
    ((s.dtime < h.at_ + 20000 ∨ s.gov.reqs.any (·.ref == h.ref) = true) → exec (.leaveExpiry n) s = .next s)
    ∧ (h.at_ + 20000 ≤ s.dtime → s.gov.reqs.any (·.ref == h.ref) = false → h.ref.kind ≠ .xgo →
        ∃ (t : State) (r : LeaveReq), exec (.leaveExpiry n) s = .next t ∧ t.gov.reqs = s.gov.reqs ++ [r] ∧ r.ref = h.ref ∧ r.renewal = true
          ∧ r.charge = h.charge ∧ r.asked = s.dtime ∧ t.gov.grants = s.gov.grants)
    ∧ (h.at_ + 20000 ≤ s.dtime → s.gov.reqs.any (·.ref == h.ref) = false → h.ref.kind = .xgo →
        (∀ g w, s.group? h.ref.port = some g → s.memberSeat h.ref.port g = some w →
          (s.xchAt w h.ref.port).granted = false ∨ (s.xchAt w h.ref.port).allIn = false) →
        ∃ t : State, exec (.leaveExpiry n) s = .next t ∧ ∃ g ∈ t.gov.grants, g.ref = h.ref ∧ g.at_ = s.dtime))
  ∧ (∀ (s : State) (n : Nat) (r : LeaveReq) (h : LeaveHeld), s.gov.reqs[n]? = some r → s.gov.grants.find? (·.ref == r.ref) = some h →
    ((r.renewal = false ∨ s.dtime < r.asked + 2000) → exec (.renewalTimeout n) s = .next s)
    ∧ (r.renewal = true → r.asked + 2000 ≤ s.dtime → r.ref.kind ≠ .xgo → (r.ref.kind = .matt → r.ref = mattLeave r.ref.thr) →
        ∃ t : State, exec (.renewalTimeout n) s = .next t
        ∧ t.hasLeave r.ref = false ∧ t.gov.reqs = s.gov.reqs.filter (·.ref != r.ref) ++ [r] ∧ t.seq = s.seq + 1
        ∧ (r.ref.kind = .matt → ∀ a, (t.thr r.ref.thr).lc.attach = some a → a.displaced = true)
        ∧ (r.ref.kind = .strm → (s.port r.ref.core r.ref.port).owner = some r.ref.thr →
            ∀ i x, (t.port r.ref.core r.ref.port).cmds.findIdx? (!·.done) = some i →
              (t.port r.ref.core r.ref.port).cmds[i]? = some x → x.paused = true)
        ∧ (r.ref.kind ≠ .matt → t.mem = s.mem ∧ t.threads = s.threads)))
  ∧ (∀ (s : State) (ia ib : Nat), let sum := ia + ib
    let d := max ia ib - min ia ib
    (1000 * d ≤ 55 * sum → ∃ t : State, exec (.deckCurrentSample ia ib) s = .next t ∧ t.gov.ia = ia ∧ t.gov.ib = ib
        ∧ t.gov.grants = s.gov.grants ∧ t.msix = s.msix
        ∧ (40 * sum < 1000 * d → ib ≤ ia → t.gov.ballastB = min 60 (s.gov.ballastB + 5) ∧ t.gov.ballastA = s.gov.ballastA)
        ∧ (40 * sum < 1000 * d → ia < ib → t.gov.ballastA = min 60 (s.gov.ballastA + 5) ∧ t.gov.ballastB = s.gov.ballastB)
        ∧ (1000 * d < 20 * sum → t.gov.ballastA = s.gov.ballastA - 5 ∧ t.gov.ballastB = s.gov.ballastB - 5)
        ∧ (1000 * d ≤ 40 * sum → 20 * sum ≤ 1000 * d → 0 < sum → t.gov.ballastA = s.gov.ballastA ∧ t.gov.ballastB = s.gov.ballastB)
        ∧ (1000 * d < 40 * sum → t.gov.deckHold = none))
    ∧ (55 * sum < 1000 * d → 1000 * d ≤ 60 * sum → ∀ h ∈ s.gov.grants, h.prio < 112 → h.ref.kind ≠ .xgo →
        h.deck = some (if ib ≤ ia then 0 else 1) → (h.ref.kind = .matt → h.ref = mattLeave h.ref.thr) →
        (∀ g ∈ s.gov.grants, g.prio < 112 → g.ref.kind ≠ .xgo → g.deck = h.deck → g = h ∨ h.prio < g.prio ∨ (h.prio = g.prio ∧ g.order < h.order)) →
        ∃ t : State, exec (.deckCurrentSample ia ib) s = .next t ∧ t.gov.grants = s.gov.grants.filter (·.ref != h.ref) ∧ t.seq = s.seq + 1
          ∧ t.msix = s.msix)
    ∧ (60 * sum < 1000 * d → s.gov.deckAt ≤ s.dtime → ∃ t : State, exec (.deckCurrentSample ia ib) s = .next t
        ∧ t.gov.deckHold = some (if ib ≤ ia then 0 else 1) ∧ 0 ∈ t.msix ∧ t.contexts = s.contexts
        ∧ (s.host.mcrec0.getLsbD 63 = false → t.host.mcrec0.toNat / 2 ^ 48 % 2 ^ 8 = 0x63)))
  ∧ (∀ (s : State) (addr : Nat), s.remapErrors = [] → s.host.secnt.length = 10 →
    let scrubs (i : Instr) (one two : Nat) : Prop := ∃ t : State, exec i s = .next t ∧ t.mem = s.mem ∧ (∀ l ∈ t.latent, l.word ≠ wordOf addr)
      ∧ (∀ l ∈ s.latent, l.word ≠ wordOf addr → l ∈ t.latent)
      ∧ ((∀ l ∈ s.latent, l.word ≠ wordOf addr) → t = s)
      ∧ (∀ l b, s.latent.find? (·.word == wordOf addr) = some l → l.bit = some b → t.poison = s.poison
          ∧ ((t.host.secnt.getD one 0).toNat = min ((s.host.secnt.getD one 0).toNat + 1) 0xFFFFFFFF) ∧ t.host.mcrec0 = s.host.mcrec0)
      ∧ (∀ l, s.latent.find? (·.word == wordOf addr) = some l → l.bit = none → wordOf addr ∈ t.poison ∧ 0 ∈ t.msix
          ∧ (t.host.secnt.getD two 0).toNat = min ((s.host.secnt.getD two 0).toNat + 1) 0xFFFFFFFF)
    (addr < 0x6000000000 → scrubs (.hbmPatrolScrub addr) 0 1)
    ∧ (vaultKey 0 0 ≤ addr → addr < vaultKey 192 0 → scrubs (.vaultPatrolScrub addr) 4 5))
  ∧ (∀ (s : State) (stack chan lane addr : Nat) (write : Bool) (n : Nat), stack < 8 → chan < 32 → s.host.secnt.length = 10 →
    (1 ≤ n → n ≤ 3 → s.tsvLeft stack chan ≤ 4 → ∃ t : State, exec (.tsvParityRetry stack chan write n) s = .next t
        ∧ (t.host.secnt.getD 2 0).toNat = min ((s.host.secnt.getD 2 0).toNat + n) 0xFFFFFFFF ∧ t.host.llog0.getLsbD 63 = true
        ∧ { t with host := s.host } = s)
    ∧ (lane < 66 → 0 < s.tsvLeft stack chan → ∃ t : State, exec (.laneTest stack chan write lane addr true) s = .next t
        ∧ t.tsvLeft stack chan = s.tsvLeft stack chan - 1 ∧ t.retired = s.retired ∧ t.poison = s.poison ∧ t.msix = s.msix ∧ t.mem = s.mem)
    ∧ (lane < 66 → inGlobal addr = true → ∀ passed, (s.tsvLeft stack chan = 0 ∨ passed = false) →
        ∃ t : State, exec (.laneTest stack chan write lane addr passed) s = .next t ∧ .channel stack chan ∈ t.retired
          ∧ t.poisoned addr = true ∧ .channel stack chan ∈ t.remapWalks ∧ 0 ∈ t.msix))
  ∧ (∀ (s : State) (core bank lane : Nat), let key := 16 * core + bank
    let due : Prop := ∃ x ∈ s.bondCounts, x.core = core ∧ x.bank = bank ∧ x.lane = lane ∧ x.due = true
    let left := (FMap.get? s.bondSpares key).getD 2
    (¬ due → exec (.bondLaneSwap core bank lane) s = .next s)
    ∧ (due → key ∉ s.lateralBanks → 0 < left → ∃ t : State, exec (.bondLaneSwap core bank lane) s = .next t
        ∧ (FMap.get? t.bondSpares key).getD 2 = left - 1 ∧ t.lateralBanks = s.lateralBanks ∧ t.msix = s.msix ∧ t.mem = s.mem)
    ∧ (due → key ∉ s.lateralBanks → left = 0 → ∃ t : State, exec (.bondLaneSwap core bank lane) s = .next t
        ∧ key ∈ t.lateralBanks ∧ 0 ∈ t.msix ∧ t.mem = s.mem))
  ∧ (∀ (s : State) (v : Bool) (unit chan bank group : Nat), let r := Retired.range v unit chan bank group
    s.remapWalks.find? (fun q => q == r || (!v && q == .channel unit chan)) = some r →
    ∃ t : State, exec (.remapPoisonWalk v unit chan bank group) s = .next t ∧ r ∉ t.remapWalks
      ∧ ∀ ctx, ctx ∈ t.contexts ↔ ctx ∈ s.contexts ∧ s.tableMaps r 3 0 (s.rootOf ctx) = false)
  ∧ ∀ (s : State) (v : Word) (n : Nat),
    let cleared (old : Word) : Word := if v.getLsbD 63 then old &&& 0x3FFFFFFFFFFFFFFF else old
    (s.host.bootState = 3 →
      exec (.mcrec0Clear v) s = .next { s with host := { s.host with mcrec0 := cleared s.host.mcrec0 } }
      ∧ exec (.alog0Clear v) s = .next { s with host := { s.host with alog0 := cleared s.host.alog0 } }
      ∧ exec (.llog0Clear v) s = .next { s with host := { s.host with llog0 := cleared s.host.llog0 } }
      ∧ exec (.secntClear n) s = .next { s with host := { s.host with secnt := s.host.secnt.set n 0 } })
    ∧ (s.host.bootState ≠ 3 → ∀ i ∈ [Instr.mcrec0Clear v, .alog0Clear v, .llog0Clear v, .secntClear n], exec i s = .next s)

/-- CONFIG_WRITE: a write that is not 8 aligned bytes, and before READY one of a register other than ATTCMD and
ATTBUF, changes nothing; SSCRI of thread n is its SSCR; a write of CTXCTL with OP 0 or 3 takes a stamp (R415);
KLDDSC, KLDTXT, KLDVLT, CTXTB, RTVEC, SVPB, SVPN and GTBASE read back their writable bits. KERNEL_LOAD starts
one load; KERNEL_LOAD_DONE gives CODE 0A04 for an invalid context, 0A03 for an index loaded, else adds the
kernel of a sound descriptor with CODE 0, and sends MSI-X vector 3; KERNEL_UNLOAD removes an unused kernel or
gives its CODE. ATTCMD_GO takes a request; ATTESTATION_REPORT writes the report, sets DONE and sends vector 1. A
host access in GLOBAL writes, or reads, under the plain map. DEVICE_RESET stops every thread, keeps GLOBAL
memory and ends step 1 of the boot; each later step of R454 advances STATE to VERIFIED, TRAINING (with the
measurements taken) and READY, with the vaults clear, DMSIG and vector 1, or to the failure the package gives;
what a step found stays in BOOTST. The facts of the package (log entry 4), vector 3 for a failed load and none
for an unload (34), the plain map during a swap (39), the fault for a report at a place that does not exist (57)
and CODE 0A04 for a poisoned descriptor (84) are the model's readings. -/
def Obligations.HostInterfaceSteps : Prop :=
  (∀ (s : State) (off bytes : Nat) (v : Word),
    ((bytes ≠ 8 ∨ off % 8 ≠ 0) → exec (.configWrite off ⟨bytes, v⟩) s = .next s ∧ s.bar0Read off bytes = 0)
    ∧ bar2Read off bytes = 0
    ∧ (off % 8 = 0 → s.host.bootState ≠ 3 → off ≠ 0x10 → ¬ (0x1000 ≤ off ∧ off < 0x2000) →
        exec (.configWrite off ⟨8, v⟩) s = .next s ∧ (off ≠ 0 → s.bar0Read off 8 = 0))
    ∧ (off % 8 = 0 → 0x1000 ≤ off → off < 0x2000 → s.host.linked = true → ∃ t : State, exec (.configWrite off ⟨8, v⟩) s = .next t
        ∧ { t with host := s.host } = s ∧ (Memory.wf s.host.attbuf = true → t.bar0Read off 8 = v))
    ∧ (s.bar0Read 0 8).toNat =
        (let h := s.host
         h.bootState.toNat + h.fwver.toNat * 2 ^ 16 + h.rate.toNat * 2 ^ 32 + h.mods.toNat * 2 ^ 36 + h.hbm.toNat * 2 ^ 40
           + h.ports.toNat * 2 ^ 51)
    ∧ (s.host.bootState = 3 →
        (∀ n, n < 768 → off = 0x2000 + 8 * n → exec (.configWrite off ⟨8, v⟩) s = .next (s.setThr n { s.thr n with sscr := v }))
        ∧ (∀ p ∈ [(0x28, 0xFFFFFFFFFFFFFFFF), (0x30, 0xFFFFFFFFFFFFFFFF), (0x38, 0xFFFFFFFFFFFFFFFF), (0x40, 0x0000FFFFFFFF0001),
            (0x48, 0x0007FFFFFFFFFFFC), (0x68, 0x0000FFFFFFFF8000), (0x70, 0x1FFFF), (0x78, (0x0000FFFFFF000000 : Word))], off = p.1 →
          ∃ t : State, exec (.configWrite off ⟨8, v⟩) s = .next t ∧ t.bar0Read off 8 = v &&& p.2 ∧ { t with host := s.host } = s
            ∧ ∀ o, o ≠ off → o ≠ 0 → t.bar0Read o 8 = s.bar0Read o 8)
        ∧ (off = 0x58 → ∃ t : State, exec (.configWrite off ⟨8, v⟩) s = .next t ∧ t.seq = s.seq + 1 ∧ { t with host := s.host, seq := s.seq } = s)))
  ∧ (∀ (s : State) (v : Word), s.host.bootState = 3 →
    (∃ t : State, exec (.kernelLoad v) s = .next t ∧ { t with host := s.host } = s
      ∧ (s.host.loading = none → t.host.loading = some ⟨v.toNat / 2 ^ 32 % 2 ^ 16, v.toNat % 2 ^ 12, s.host.klddsc, s.host.kldtxt, s.host.kldvlt⟩)
      ∧ (s.host.loading.isSome = true → t.host.loading = s.host.loading))
    ∧ (let kidx := v.toNat / 2 ^ 32 % 2 ^ 16
       let ctx := v.toNat % 2 ^ 12
       let gives (code : BitVec 16) (ks : List Kernel) : Prop := ∃ t : State, exec (.kernelUnload v) s = .next t ∧ t.kernels = ks
        ∧ t.host.kldCode = code ∧ t.mem = s.mem ∧ t.msix = s.msix
       (s.host.loading.isSome = true → gives s.host.kldCode s.kernels)
       ∧ (s.host.loading = none → (∀ k ∈ keysFrom (s.descKey ctx) 16, s.poisoned k = false ∧ ∀ l ∈ s.latent, l.word ≠ wordOf k) →
        ((s.croot ctx).getLsbD 0 = false → gives 0x0A04 s.kernels)
        ∧ ((s.croot ctx).getLsbD 0 = true → s.kidxUsed kidx = true → gives 0x0A03 s.kernels)
        ∧ ((s.croot ctx).getLsbD 0 = true → s.kidxUsed kidx = false → gives 0 (s.kernels.filter (·.kidx != kidx))))))
  ∧ (∀ (s : State) (j : LoadJob), s.host.loading = some j →
    let gives (code : BitVec 16) (u : State) (ks : List Kernel) : Prop := ∃ t : State, exec .kernelLoadDone s = .next t ∧ t.kernels = ks
      ∧ t.host.kldCode = code ∧ t.host.loading = none ∧ t.msix = u.msix ++ [3] ∧ t.mem = u.mem
    let known : Prop := ∃ k ∈ s.kernels, k.kidx = j.kidx
    (∀ u, s.descriptor j.ctx = (u, none) → ∃ t : State, exec .kernelLoadDone s = .next t ∧ t.host.kldCode = 0x0A04 ∧ t.host.loading = none
      ∧ j.ctx ∉ t.contexts)
    ∧ ∀ s0 d, s.descriptor j.ctx = (s0, some d) →
      (d.1.getLsbD 0 = false → gives 0x0A04 s0 s.kernels)
      ∧ (d.1.getLsbD 0 = true → known → gives 0x0A03 s0 s.kernels)
      ∧ (d.1.getLsbD 0 = true → ¬ known → ∀ u b, s0.loaderRead j.ctx j.dsc 64 = (u, some b) →
        (descBad b = true → gives 0x0A02 u u.kernels)
        ∧ (descBad b = false → ∀ w v, u.loaderRead j.ctx (j.dsc + 64) (16 * fieldOf b 0x1D 1) = (w, some v) →
            let vs := entriesOf v 16 (fieldOf b 0x1D 1)
            (vs.any variantBad = true → gives 0x0A02 w w.kernels)
            ∧ (vs.any variantBad = false → chooseVariant (w.host.dmsig.toNat % 2 ^ 32) vs = none → gives 0x0A01 w w.kernels)
            ∧ ∀ code, vs.any variantBad = false → chooseVariant (w.host.dmsig.toNat % 2 ^ 32) vs = some code →
                gives 0 w (w.kernels ++ [kernelOf j b code]))))
  ∧ (∀ (s : State) (v : Word), let mbox := v.getLsbD 61
    let addr := v &&& 0x0000FFFFFFFFFFC0
    let ready : Prop := s.host.bootState = 3 ∨ (s.host.bootState ≠ 0 ∧ s.host.bootState ≠ 8 ∧ mbox = true)
    ∃ t : State, exec (.attcmdGo v) s = .next t ∧ { t with host := s.host } = s ∧ t.host.attMbox = mbox ∧ t.host.attAddr = addr
      ∧ (ready → s.host.attJob = none → t.host.attJob = some (mbox, addr) ∧ t.host.attDone = false)
      ∧ (¬ ready ∨ s.host.attJob ≠ none → t.host.attJob = s.host.attJob ∧ t.host.attDone = s.host.attDone))
  ∧ (∀ s : State, s.host.bootState = 1 → exec .attestationReport s = .next s)
  ∧ (∀ (s : State) (addr : Word), s.host.bootState ≠ 1 →
    (s.host.attJob = some (true, addr) → ∃ t : State, exec .attestationReport s = .next t ∧ t.host.attDone = true ∧ t.host.attJob = none
      ∧ t.msix = s.msix ++ [1] ∧ t.mem = s.mem
      ∧ let r := s.report ((keysFrom 0x10 64).map (Memory.get s.host.attbuf))
        t.host.attbuf = Memory.putAll s.host.attbuf ((keysFrom 0 r.length).zip r))
    ∧ (s.host.attJob = some (false, addr) → inGlobal (addr.toNat + 4095) = true → ∀ u b, s.read (keysFrom (addr.toNat + 0x10) 64) = (u, some b) →
      ∃ t : State, exec .attestationReport s = .next t ∧ t.host.attDone = true ∧ t.host.attJob = none ∧ t.msix = u.msix ++ [1]
        ∧ t.mem = Memory.putAll u.mem ((keysFrom addr.toNat (u.report b).length).zip (u.report b)))
    ∧ (s.host.attJob = some (false, addr) → inGlobal (addr.toNat + 4095) = false → exec .attestationReport s = .fault (.noSuchPlace addr.toNat)))
  ∧ (∀ (s : State) (r : RemoteAccess), s.host.bootState = 3 → inGlobal (r.addr + (r.bytes - 1)) = true →
    ∃ t : State, exec (.hostCxlMemAccess r) s = .next t ∧ t.contexts = s.contexts
      ∧ (∀ n, { t.thr n with lc := { (t.thr n).lc with coll := (s.thr n).lc.coll, xchs := (s.thr n).lc.xchs } } = s.thr n)
      ∧ (r.write = false ∨ (∀ k ∈ keysFrom r.addr r.bytes, k < s.host.gtbase.toNat ∨ s.host.gtbase.toNat + 2 ^ 24 ≤ k) → t.threads = s.threads)
      ∧ (r.write = true → t.mem = Memory.putAll s.mem ((keysFrom r.addr r.bytes).zip (leBytes r.bytes r.data)))
      ∧ (r.write = false → t.mem = s.mem ∧ ∀ u data, s.read (keysFrom r.addr r.bytes) = (u, data) →
          t.outbox = u.outbox ++ [.answer r.addr data]
          ∧ (data = none ↔ ∃ k ∈ keysFrom r.addr r.bytes, u.poisoned k = true)))
  ∧ (∀ s : State, ∃ t : State, exec .deviceReset s = .next t ∧ (∀ n, (t.thr n).occupied = false ∧ (t.thr n).sscr = 0) ∧ t.contexts = []
    ∧ t.launches = [] ∧ t.saved = [] ∧ t.kernels = [] ∧ (∀ n, (t.queue n).en = false) ∧ t.gov.grants = [] ∧ t.gov.reqs = []
    ∧ (s.swaps = [] → ∀ a, a < 0x6000000000 → Memory.get t.mem a = Memory.get s.mem a)
    ∧ t.host = { State.reset.host with linked := true, mods := s.pkg.mods, rate := s.pkg.rate } ∧ t.seq = 0 ∧ t.pkg = s.pkg)
  ∧ ∀ (s : State) (l : List Act), s.agenda = .boot :: l → let h := s.host
    let p := s.pkg
    let goes (h : HostRegs) : Prop := step s = .next { s with agenda := l, host := h }
    (h.linked = false → goes { h with linked := true, mods := p.mods, rate := p.rate })
    ∧ (h.linked = true →
      (h.bootState = 0 → p.keyOk = true → p.sigOk = true → goes { h with bootState := 1, fwver := p.fwver })
      ∧ (h.bootState = 0 → ¬ (p.keyOk = true ∧ p.sigOk = true) → goes { h with bootState := 8 })
      ∧ (h.bootState = 1 → goes { h with bootState := 2, measured := p.digests })
      ∧ (h.bootState = 2 → p.hbm ≠ 0xFF → goes { h with bootState := 9, hbm := p.hbm })
      ∧ (h.bootState = 2 → p.hbm = 0xFF → ∃ (t : State) (sig : Word), step s = .next t ∧ t.msix = s.msix ++ [1] ∧ t.retired = []
          ∧ t.host = { h with bootState := 3, hbm := p.hbm, ports := p.ports, dmsig := sig }
          ∧ sig.toNat = (let d := (h.measured.getD 2 0).toNat % 2 ^ 32; if d = 0 then 1 else d)
          ∧ (∀ c o, c < 192 → o < 0x400000 → Memory.get t.mem (vaultKey c o) = 0 ∧ t.poisoned (vaultKey c o) = false)
          ∧ ∀ a, a < 0x6000000000 → Memory.get t.mem a = Memory.get s.mem a)
      ∧ (h.bootState.toNat ∉ [0, 1, 2] → goes h))
end

