-- ==== Sys2Proof/Laws/State.lean ====
section
/-! SUPPORT. What each named update of the state, of a logical core and of a finite map does to each field, and what
is read back. -/

namespace Sys2Proof.Machine

/-! ## Finite maps -/

@[simp] theorem FMap.get?_set_same {α : Type} (m : FMap α) (n : Nat) (x : α) : FMap.get? (FMap.set m n x) n = some x := by
  induction m with
  | nil => simp [FMap.set, FMap.get?]
  | cons p m ih =>
    unfold FMap.set
    split
    · simp [FMap.get?]
    · split
      · simp [FMap.get?]
      · simp [FMap.get?, *]

@[simp] theorem FMap.get?_set_other {α : Type} (m : FMap α) {n k : Nat} (x : α) (h : k ≠ n) :
    FMap.get? (FMap.set m n x) k = FMap.get? m k := by
  induction m with
  | nil => simp [FMap.set, FMap.get?, Ne.symm h]
  | cons p m ih =>
    unfold FMap.set
    split
    · simp [FMap.get?, Ne.symm h]
    · split
      · rename_i e
        simp [FMap.get?, Ne.symm h, e]
      · simp [FMap.get?, ih]

@[simp] theorem FMap.set_set {α : Type} (m : FMap α) (n : Nat) (x y : α) : FMap.set (FMap.set m n x) n y = FMap.set m n y := by
  induction m with
  | nil => simp [FMap.set]
  | cons p m ih =>
    simp only [FMap.set]
    split
    · simp [FMap.set]
    · split
      · simp [FMap.set]
      · simp [FMap.set, *]

/-! ## Threads and the current logical core -/

@[simp] theorem State.thr_setThr_same (s : State) (n : Nat) (t : HThread) : (s.setThr n t).thr n = t := by
  simp [State.thr, State.setThr]

@[simp] theorem State.thr_setThr_other (s : State) {n k : Nat} (t : HThread) (h : k ≠ n) : (s.setThr n t).thr k = s.thr k := by
  simp [State.thr, State.setThr, h]

@[simp] theorem State.setThr_setThr (s : State) (n : Nat) (t u : HThread) : (s.setThr n t).setThr n u = s.setThr n u := by
  simp [State.setThr]

@[simp] theorem State.lc_setLc (s : State) (c : LCore) : (s.setLc c).lc = c := by
  simp [State.lc, State.setLc, State.setThr, State.thr]

@[simp] theorem State.setLc_setLc (s : State) (c d : LCore) : (s.setLc c).setLc d = s.setLc d := by
  simp [State.setLc, State.setThr, State.thr]

@[simp] theorem State.thr_setLc_other (s : State) (c : LCore) {n : Nat} (h : n ≠ s.cur) : (s.setLc c).thr n = s.thr n := by
  simp [State.setLc, h]

@[simp] theorem State.thr_setLc_same (s : State) (c : LCore) : (s.setLc c).thr s.cur = { s.thr s.cur with lc := c } := by
  simp [State.setLc]

@[simp] theorem State.core_setLc (s : State) (c : LCore) : (s.setLc c).core = s.core := rfl

@[simp] theorem State.port_setPort_same (s : State) (core p : Nat) (x : Port) : (s.setPort core p x).port core p = x := by
  simp [State.port, State.setPort]


/-! ## setThr -/

@[simp] theorem State.cur_setThr (s : State) (n : Nat) (t : HThread) : (s.setThr n t).cur = s.cur := rfl
@[simp] theorem State.agenda_setThr (s : State) (n : Nat) (t : HThread) : (s.setThr n t).agenda = s.agenda := rfl
@[simp] theorem State.dev_setThr (s : State) (n : Nat) (t : HThread) : (s.setThr n t).dev = s.dev := rfl
@[simp] theorem State.dtime_setThr (s : State) (n : Nat) (t : HThread) : (s.setThr n t).dtime = s.dtime := rfl
@[simp] theorem State.dtOffset_setThr (s : State) (n : Nat) (t : HThread) : (s.setThr n t).dtOffset = s.dtOffset := rfl
@[simp] theorem State.seq_setThr (s : State) (n : Nat) (t : HThread) : (s.setThr n t).seq = s.seq := rfl
@[simp] theorem State.fresh_setThr (s : State) (n : Nat) (t : HThread) : (s.setThr n t).fresh = s.fresh := rfl
@[simp] theorem State.win_setThr (s : State) (n : Nat) (t : HThread) : (s.setThr n t).win = s.win := rfl
@[simp] theorem State.mem_setThr (s : State) (n : Nat) (t : HThread) : (s.setThr n t).mem = s.mem := rfl
@[simp] theorem State.poison_setThr (s : State) (n : Nat) (t : HThread) : (s.setThr n t).poison = s.poison := rfl
@[simp] theorem State.retired_setThr (s : State) (n : Nat) (t : HThread) : (s.setThr n t).retired = s.retired := rfl
@[simp] theorem State.latent_setThr (s : State) (n : Nat) (t : HThread) : (s.setThr n t).latent = s.latent := rfl
@[simp] theorem State.tlb_setThr (s : State) (n : Nat) (t : HThread) : (s.setThr n t).tlb = s.tlb := rfl
@[simp] theorem State.dcache_setThr (s : State) (n : Nat) (t : HThread) : (s.setThr n t).dcache = s.dcache := rfl
@[simp] theorem State.icache_setThr (s : State) (n : Nat) (t : HThread) : (s.setThr n t).icache = s.icache := rfl
@[simp] theorem State.swaps_setThr (s : State) (n : Nat) (t : HThread) : (s.setThr n t).swaps = s.swaps := rfl
@[simp] theorem State.packets_setThr (s : State) (n : Nat) (t : HThread) : (s.setThr n t).packets = s.packets := rfl
@[simp] theorem State.spans_setThr (s : State) (n : Nat) (t : HThread) : (s.setThr n t).spans = s.spans := rfl
@[simp] theorem State.heldRemote_setThr (s : State) (n : Nat) (t : HThread) : (s.setThr n t).heldRemote = s.heldRemote := rfl
@[simp] theorem State.ports_setThr (s : State) (n : Nat) (t : HThread) : (s.setThr n t).ports = s.ports := rfl
@[simp] theorem State.passes_setThr (s : State) (n : Nat) (t : HThread) : (s.setThr n t).passes = s.passes := rfl
@[simp] theorem State.factHolder_setThr (s : State) (n : Nat) (t : HThread) : (s.setThr n t).factHolder = s.factHolder := rfl
@[simp] theorem State.vaultOwner_setThr (s : State) (n : Nat) (t : HThread) : (s.setThr n t).vaultOwner = s.vaultOwner := rfl
@[simp] theorem State.contexts_setThr (s : State) (n : Nat) (t : HThread) : (s.setThr n t).contexts = s.contexts := rfl
@[simp] theorem State.kernels_setThr (s : State) (n : Nat) (t : HThread) : (s.setThr n t).kernels = s.kernels := rfl
@[simp] theorem State.queues_setThr (s : State) (n : Nat) (t : HThread) : (s.setThr n t).queues = s.queues := rfl
@[simp] theorem State.launches_setThr (s : State) (n : Nat) (t : HThread) : (s.setThr n t).launches = s.launches := rfl
@[simp] theorem State.saved_setThr (s : State) (n : Nat) (t : HThread) : (s.setThr n t).saved = s.saved := rfl
@[simp] theorem State.gov_setThr (s : State) (n : Nat) (t : HThread) : (s.setThr n t).gov = s.gov := rfl
@[simp] theorem State.homes_setThr (s : State) (n : Nat) (t : HThread) : (s.setThr n t).homes = s.homes := rfl
@[simp] theorem State.leaders_setThr (s : State) (n : Nat) (t : HThread) : (s.setThr n t).leaders = s.leaders := rfl
@[simp] theorem State.releases_setThr (s : State) (n : Nat) (t : HThread) : (s.setThr n t).releases = s.releases := rfl
@[simp] theorem State.pushes_setThr (s : State) (n : Nat) (t : HThread) : (s.setThr n t).pushes = s.pushes := rfl
@[simp] theorem State.gone_setThr (s : State) (n : Nat) (t : HThread) : (s.setThr n t).gone = s.gone := rfl
@[simp] theorem State.collRuns_setThr (s : State) (n : Nat) (t : HThread) : (s.setThr n t).collRuns = s.collRuns := rfl
@[simp] theorem State.ghosts_setThr (s : State) (n : Nat) (t : HThread) : (s.setThr n t).ghosts = s.ghosts := rfl
@[simp] theorem State.imposers_setThr (s : State) (n : Nat) (t : HThread) : (s.setThr n t).imposers = s.imposers := rfl
@[simp] theorem State.xgens_setThr (s : State) (n : Nat) (t : HThread) : (s.setThr n t).xgens = s.xgens := rfl
@[simp] theorem State.early_setThr (s : State) (n : Nat) (t : HThread) : (s.setThr n t).early = s.early := rfl
@[simp] theorem State.outbox_setThr (s : State) (n : Nat) (t : HThread) : (s.setThr n t).outbox = s.outbox := rfl
@[simp] theorem State.unreach_setThr (s : State) (n : Nat) (t : HThread) : (s.setThr n t).unreach = s.unreach := rfl
@[simp] theorem State.late_setThr (s : State) (n : Nat) (t : HThread) : (s.setThr n t).late = s.late := rfl
@[simp] theorem State.dead_setThr (s : State) (n : Nat) (t : HThread) : (s.setThr n t).dead = s.dead := rfl
@[simp] theorem State.host_setThr (s : State) (n : Nat) (t : HThread) : (s.setThr n t).host = s.host := rfl
@[simp] theorem State.pkg_setThr (s : State) (n : Nat) (t : HThread) : (s.setThr n t).pkg = s.pkg := rfl
@[simp] theorem State.msix_setThr (s : State) (n : Nat) (t : HThread) : (s.setThr n t).msix = s.msix := rfl
@[simp] theorem State.tsvSpares_setThr (s : State) (n : Nat) (t : HThread) : (s.setThr n t).tsvSpares = s.tsvSpares := rfl
@[simp] theorem State.bondSpares_setThr (s : State) (n : Nat) (t : HThread) : (s.setThr n t).bondSpares = s.bondSpares := rfl
@[simp] theorem State.bondCounts_setThr (s : State) (n : Nat) (t : HThread) : (s.setThr n t).bondCounts = s.bondCounts := rfl
@[simp] theorem State.streamTurns_setThr (s : State) (n : Nat) (t : HThread) : (s.setThr n t).streamTurns = s.streamTurns := rfl
@[simp] theorem State.lateralBanks_setThr (s : State) (n : Nat) (t : HThread) : (s.setThr n t).lateralBanks = s.lateralBanks := rfl
@[simp] theorem State.remapErrors_setThr (s : State) (n : Nat) (t : HThread) : (s.setThr n t).remapErrors = s.remapErrors := rfl
@[simp] theorem State.remapWalks_setThr (s : State) (n : Nat) (t : HThread) : (s.setThr n t).remapWalks = s.remapWalks := rfl

/-! ## setLc -/

@[simp] theorem State.cur_setLc (s : State) (c : LCore) : (s.setLc c).cur = s.cur := rfl
@[simp] theorem State.agenda_setLc (s : State) (c : LCore) : (s.setLc c).agenda = s.agenda := rfl
@[simp] theorem State.dev_setLc (s : State) (c : LCore) : (s.setLc c).dev = s.dev := rfl
@[simp] theorem State.dtime_setLc (s : State) (c : LCore) : (s.setLc c).dtime = s.dtime := rfl
@[simp] theorem State.dtOffset_setLc (s : State) (c : LCore) : (s.setLc c).dtOffset = s.dtOffset := rfl
@[simp] theorem State.seq_setLc (s : State) (c : LCore) : (s.setLc c).seq = s.seq := rfl
@[simp] theorem State.fresh_setLc (s : State) (c : LCore) : (s.setLc c).fresh = s.fresh := rfl
@[simp] theorem State.win_setLc (s : State) (c : LCore) : (s.setLc c).win = s.win := rfl
@[simp] theorem State.mem_setLc (s : State) (c : LCore) : (s.setLc c).mem = s.mem := rfl
@[simp] theorem State.poison_setLc (s : State) (c : LCore) : (s.setLc c).poison = s.poison := rfl
@[simp] theorem State.retired_setLc (s : State) (c : LCore) : (s.setLc c).retired = s.retired := rfl
@[simp] theorem State.latent_setLc (s : State) (c : LCore) : (s.setLc c).latent = s.latent := rfl
@[simp] theorem State.tlb_setLc (s : State) (c : LCore) : (s.setLc c).tlb = s.tlb := rfl
@[simp] theorem State.dcache_setLc (s : State) (c : LCore) : (s.setLc c).dcache = s.dcache := rfl
@[simp] theorem State.icache_setLc (s : State) (c : LCore) : (s.setLc c).icache = s.icache := rfl
@[simp] theorem State.swaps_setLc (s : State) (c : LCore) : (s.setLc c).swaps = s.swaps := rfl
@[simp] theorem State.packets_setLc (s : State) (c : LCore) : (s.setLc c).packets = s.packets := rfl
@[simp] theorem State.spans_setLc (s : State) (c : LCore) : (s.setLc c).spans = s.spans := rfl
@[simp] theorem State.heldRemote_setLc (s : State) (c : LCore) : (s.setLc c).heldRemote = s.heldRemote := rfl
@[simp] theorem State.ports_setLc (s : State) (c : LCore) : (s.setLc c).ports = s.ports := rfl
@[simp] theorem State.passes_setLc (s : State) (c : LCore) : (s.setLc c).passes = s.passes := rfl
@[simp] theorem State.factHolder_setLc (s : State) (c : LCore) : (s.setLc c).factHolder = s.factHolder := rfl
@[simp] theorem State.vaultOwner_setLc (s : State) (c : LCore) : (s.setLc c).vaultOwner = s.vaultOwner := rfl
@[simp] theorem State.contexts_setLc (s : State) (c : LCore) : (s.setLc c).contexts = s.contexts := rfl
@[simp] theorem State.kernels_setLc (s : State) (c : LCore) : (s.setLc c).kernels = s.kernels := rfl
@[simp] theorem State.queues_setLc (s : State) (c : LCore) : (s.setLc c).queues = s.queues := rfl
@[simp] theorem State.launches_setLc (s : State) (c : LCore) : (s.setLc c).launches = s.launches := rfl
@[simp] theorem State.saved_setLc (s : State) (c : LCore) : (s.setLc c).saved = s.saved := rfl
@[simp] theorem State.gov_setLc (s : State) (c : LCore) : (s.setLc c).gov = s.gov := rfl
@[simp] theorem State.homes_setLc (s : State) (c : LCore) : (s.setLc c).homes = s.homes := rfl
@[simp] theorem State.leaders_setLc (s : State) (c : LCore) : (s.setLc c).leaders = s.leaders := rfl
@[simp] theorem State.releases_setLc (s : State) (c : LCore) : (s.setLc c).releases = s.releases := rfl
@[simp] theorem State.pushes_setLc (s : State) (c : LCore) : (s.setLc c).pushes = s.pushes := rfl
@[simp] theorem State.gone_setLc (s : State) (c : LCore) : (s.setLc c).gone = s.gone := rfl
@[simp] theorem State.collRuns_setLc (s : State) (c : LCore) : (s.setLc c).collRuns = s.collRuns := rfl
@[simp] theorem State.ghosts_setLc (s : State) (c : LCore) : (s.setLc c).ghosts = s.ghosts := rfl
@[simp] theorem State.imposers_setLc (s : State) (c : LCore) : (s.setLc c).imposers = s.imposers := rfl
@[simp] theorem State.xgens_setLc (s : State) (c : LCore) : (s.setLc c).xgens = s.xgens := rfl
@[simp] theorem State.early_setLc (s : State) (c : LCore) : (s.setLc c).early = s.early := rfl
@[simp] theorem State.outbox_setLc (s : State) (c : LCore) : (s.setLc c).outbox = s.outbox := rfl
@[simp] theorem State.unreach_setLc (s : State) (c : LCore) : (s.setLc c).unreach = s.unreach := rfl
@[simp] theorem State.late_setLc (s : State) (c : LCore) : (s.setLc c).late = s.late := rfl
@[simp] theorem State.dead_setLc (s : State) (c : LCore) : (s.setLc c).dead = s.dead := rfl
@[simp] theorem State.host_setLc (s : State) (c : LCore) : (s.setLc c).host = s.host := rfl
@[simp] theorem State.pkg_setLc (s : State) (c : LCore) : (s.setLc c).pkg = s.pkg := rfl
@[simp] theorem State.msix_setLc (s : State) (c : LCore) : (s.setLc c).msix = s.msix := rfl
@[simp] theorem State.tsvSpares_setLc (s : State) (c : LCore) : (s.setLc c).tsvSpares = s.tsvSpares := rfl
@[simp] theorem State.bondSpares_setLc (s : State) (c : LCore) : (s.setLc c).bondSpares = s.bondSpares := rfl
@[simp] theorem State.bondCounts_setLc (s : State) (c : LCore) : (s.setLc c).bondCounts = s.bondCounts := rfl
@[simp] theorem State.streamTurns_setLc (s : State) (c : LCore) : (s.setLc c).streamTurns = s.streamTurns := rfl
@[simp] theorem State.lateralBanks_setLc (s : State) (c : LCore) : (s.setLc c).lateralBanks = s.lateralBanks := rfl
@[simp] theorem State.remapErrors_setLc (s : State) (c : LCore) : (s.setLc c).remapErrors = s.remapErrors := rfl
@[simp] theorem State.remapWalks_setLc (s : State) (c : LCore) : (s.setLc c).remapWalks = s.remapWalks := rfl

/-! ## setLcOf -/

@[simp] theorem State.cur_setLcOf (s : State) (n : Nat) (c : LCore) : (s.setLcOf n c).cur = s.cur := rfl
@[simp] theorem State.agenda_setLcOf (s : State) (n : Nat) (c : LCore) : (s.setLcOf n c).agenda = s.agenda := rfl
@[simp] theorem State.dev_setLcOf (s : State) (n : Nat) (c : LCore) : (s.setLcOf n c).dev = s.dev := rfl
@[simp] theorem State.dtime_setLcOf (s : State) (n : Nat) (c : LCore) : (s.setLcOf n c).dtime = s.dtime := rfl
@[simp] theorem State.dtOffset_setLcOf (s : State) (n : Nat) (c : LCore) : (s.setLcOf n c).dtOffset = s.dtOffset := rfl
@[simp] theorem State.seq_setLcOf (s : State) (n : Nat) (c : LCore) : (s.setLcOf n c).seq = s.seq := rfl
@[simp] theorem State.fresh_setLcOf (s : State) (n : Nat) (c : LCore) : (s.setLcOf n c).fresh = s.fresh := rfl
@[simp] theorem State.win_setLcOf (s : State) (n : Nat) (c : LCore) : (s.setLcOf n c).win = s.win := rfl
@[simp] theorem State.mem_setLcOf (s : State) (n : Nat) (c : LCore) : (s.setLcOf n c).mem = s.mem := rfl
@[simp] theorem State.poison_setLcOf (s : State) (n : Nat) (c : LCore) : (s.setLcOf n c).poison = s.poison := rfl
@[simp] theorem State.retired_setLcOf (s : State) (n : Nat) (c : LCore) : (s.setLcOf n c).retired = s.retired := rfl
@[simp] theorem State.latent_setLcOf (s : State) (n : Nat) (c : LCore) : (s.setLcOf n c).latent = s.latent := rfl
@[simp] theorem State.tlb_setLcOf (s : State) (n : Nat) (c : LCore) : (s.setLcOf n c).tlb = s.tlb := rfl
@[simp] theorem State.dcache_setLcOf (s : State) (n : Nat) (c : LCore) : (s.setLcOf n c).dcache = s.dcache := rfl
@[simp] theorem State.icache_setLcOf (s : State) (n : Nat) (c : LCore) : (s.setLcOf n c).icache = s.icache := rfl
@[simp] theorem State.swaps_setLcOf (s : State) (n : Nat) (c : LCore) : (s.setLcOf n c).swaps = s.swaps := rfl
@[simp] theorem State.packets_setLcOf (s : State) (n : Nat) (c : LCore) : (s.setLcOf n c).packets = s.packets := rfl
@[simp] theorem State.spans_setLcOf (s : State) (n : Nat) (c : LCore) : (s.setLcOf n c).spans = s.spans := rfl
@[simp] theorem State.heldRemote_setLcOf (s : State) (n : Nat) (c : LCore) : (s.setLcOf n c).heldRemote = s.heldRemote := rfl
@[simp] theorem State.ports_setLcOf (s : State) (n : Nat) (c : LCore) : (s.setLcOf n c).ports = s.ports := rfl
@[simp] theorem State.passes_setLcOf (s : State) (n : Nat) (c : LCore) : (s.setLcOf n c).passes = s.passes := rfl
@[simp] theorem State.factHolder_setLcOf (s : State) (n : Nat) (c : LCore) : (s.setLcOf n c).factHolder = s.factHolder := rfl
@[simp] theorem State.vaultOwner_setLcOf (s : State) (n : Nat) (c : LCore) : (s.setLcOf n c).vaultOwner = s.vaultOwner := rfl
@[simp] theorem State.contexts_setLcOf (s : State) (n : Nat) (c : LCore) : (s.setLcOf n c).contexts = s.contexts := rfl
@[simp] theorem State.kernels_setLcOf (s : State) (n : Nat) (c : LCore) : (s.setLcOf n c).kernels = s.kernels := rfl
@[simp] theorem State.queues_setLcOf (s : State) (n : Nat) (c : LCore) : (s.setLcOf n c).queues = s.queues := rfl
@[simp] theorem State.launches_setLcOf (s : State) (n : Nat) (c : LCore) : (s.setLcOf n c).launches = s.launches := rfl
@[simp] theorem State.saved_setLcOf (s : State) (n : Nat) (c : LCore) : (s.setLcOf n c).saved = s.saved := rfl
@[simp] theorem State.gov_setLcOf (s : State) (n : Nat) (c : LCore) : (s.setLcOf n c).gov = s.gov := rfl
@[simp] theorem State.homes_setLcOf (s : State) (n : Nat) (c : LCore) : (s.setLcOf n c).homes = s.homes := rfl
@[simp] theorem State.leaders_setLcOf (s : State) (n : Nat) (c : LCore) : (s.setLcOf n c).leaders = s.leaders := rfl
@[simp] theorem State.releases_setLcOf (s : State) (n : Nat) (c : LCore) : (s.setLcOf n c).releases = s.releases := rfl
@[simp] theorem State.pushes_setLcOf (s : State) (n : Nat) (c : LCore) : (s.setLcOf n c).pushes = s.pushes := rfl
@[simp] theorem State.gone_setLcOf (s : State) (n : Nat) (c : LCore) : (s.setLcOf n c).gone = s.gone := rfl
@[simp] theorem State.collRuns_setLcOf (s : State) (n : Nat) (c : LCore) : (s.setLcOf n c).collRuns = s.collRuns := rfl
@[simp] theorem State.ghosts_setLcOf (s : State) (n : Nat) (c : LCore) : (s.setLcOf n c).ghosts = s.ghosts := rfl
@[simp] theorem State.imposers_setLcOf (s : State) (n : Nat) (c : LCore) : (s.setLcOf n c).imposers = s.imposers := rfl
@[simp] theorem State.xgens_setLcOf (s : State) (n : Nat) (c : LCore) : (s.setLcOf n c).xgens = s.xgens := rfl
@[simp] theorem State.early_setLcOf (s : State) (n : Nat) (c : LCore) : (s.setLcOf n c).early = s.early := rfl
@[simp] theorem State.outbox_setLcOf (s : State) (n : Nat) (c : LCore) : (s.setLcOf n c).outbox = s.outbox := rfl
@[simp] theorem State.unreach_setLcOf (s : State) (n : Nat) (c : LCore) : (s.setLcOf n c).unreach = s.unreach := rfl
@[simp] theorem State.late_setLcOf (s : State) (n : Nat) (c : LCore) : (s.setLcOf n c).late = s.late := rfl
@[simp] theorem State.dead_setLcOf (s : State) (n : Nat) (c : LCore) : (s.setLcOf n c).dead = s.dead := rfl
@[simp] theorem State.host_setLcOf (s : State) (n : Nat) (c : LCore) : (s.setLcOf n c).host = s.host := rfl
@[simp] theorem State.pkg_setLcOf (s : State) (n : Nat) (c : LCore) : (s.setLcOf n c).pkg = s.pkg := rfl
@[simp] theorem State.msix_setLcOf (s : State) (n : Nat) (c : LCore) : (s.setLcOf n c).msix = s.msix := rfl
@[simp] theorem State.tsvSpares_setLcOf (s : State) (n : Nat) (c : LCore) : (s.setLcOf n c).tsvSpares = s.tsvSpares := rfl
@[simp] theorem State.bondSpares_setLcOf (s : State) (n : Nat) (c : LCore) : (s.setLcOf n c).bondSpares = s.bondSpares := rfl
@[simp] theorem State.bondCounts_setLcOf (s : State) (n : Nat) (c : LCore) : (s.setLcOf n c).bondCounts = s.bondCounts := rfl
@[simp] theorem State.streamTurns_setLcOf (s : State) (n : Nat) (c : LCore) : (s.setLcOf n c).streamTurns = s.streamTurns := rfl
@[simp] theorem State.lateralBanks_setLcOf (s : State) (n : Nat) (c : LCore) : (s.setLcOf n c).lateralBanks = s.lateralBanks := rfl
@[simp] theorem State.remapErrors_setLcOf (s : State) (n : Nat) (c : LCore) : (s.setLcOf n c).remapErrors = s.remapErrors := rfl
@[simp] theorem State.remapWalks_setLcOf (s : State) (n : Nat) (c : LCore) : (s.setLcOf n c).remapWalks = s.remapWalks := rfl

/-! ## setPort -/

@[simp] theorem State.threads_setPort (s : State) (k p : Nat) (x : Port) : (s.setPort k p x).threads = s.threads := rfl
@[simp] theorem State.cur_setPort (s : State) (k p : Nat) (x : Port) : (s.setPort k p x).cur = s.cur := rfl
@[simp] theorem State.agenda_setPort (s : State) (k p : Nat) (x : Port) : (s.setPort k p x).agenda = s.agenda := rfl
@[simp] theorem State.dev_setPort (s : State) (k p : Nat) (x : Port) : (s.setPort k p x).dev = s.dev := rfl
@[simp] theorem State.dtime_setPort (s : State) (k p : Nat) (x : Port) : (s.setPort k p x).dtime = s.dtime := rfl
@[simp] theorem State.dtOffset_setPort (s : State) (k p : Nat) (x : Port) : (s.setPort k p x).dtOffset = s.dtOffset := rfl
@[simp] theorem State.seq_setPort (s : State) (k p : Nat) (x : Port) : (s.setPort k p x).seq = s.seq := rfl
@[simp] theorem State.fresh_setPort (s : State) (k p : Nat) (x : Port) : (s.setPort k p x).fresh = s.fresh := rfl
@[simp] theorem State.win_setPort (s : State) (k p : Nat) (x : Port) : (s.setPort k p x).win = s.win := rfl
@[simp] theorem State.mem_setPort (s : State) (k p : Nat) (x : Port) : (s.setPort k p x).mem = s.mem := rfl
@[simp] theorem State.poison_setPort (s : State) (k p : Nat) (x : Port) : (s.setPort k p x).poison = s.poison := rfl
@[simp] theorem State.retired_setPort (s : State) (k p : Nat) (x : Port) : (s.setPort k p x).retired = s.retired := rfl
@[simp] theorem State.latent_setPort (s : State) (k p : Nat) (x : Port) : (s.setPort k p x).latent = s.latent := rfl
@[simp] theorem State.tlb_setPort (s : State) (k p : Nat) (x : Port) : (s.setPort k p x).tlb = s.tlb := rfl
@[simp] theorem State.dcache_setPort (s : State) (k p : Nat) (x : Port) : (s.setPort k p x).dcache = s.dcache := rfl
@[simp] theorem State.icache_setPort (s : State) (k p : Nat) (x : Port) : (s.setPort k p x).icache = s.icache := rfl
@[simp] theorem State.swaps_setPort (s : State) (k p : Nat) (x : Port) : (s.setPort k p x).swaps = s.swaps := rfl
@[simp] theorem State.packets_setPort (s : State) (k p : Nat) (x : Port) : (s.setPort k p x).packets = s.packets := rfl
@[simp] theorem State.spans_setPort (s : State) (k p : Nat) (x : Port) : (s.setPort k p x).spans = s.spans := rfl
@[simp] theorem State.heldRemote_setPort (s : State) (k p : Nat) (x : Port) : (s.setPort k p x).heldRemote = s.heldRemote := rfl
@[simp] theorem State.passes_setPort (s : State) (k p : Nat) (x : Port) : (s.setPort k p x).passes = s.passes := rfl
@[simp] theorem State.factHolder_setPort (s : State) (k p : Nat) (x : Port) : (s.setPort k p x).factHolder = s.factHolder := rfl
@[simp] theorem State.vaultOwner_setPort (s : State) (k p : Nat) (x : Port) : (s.setPort k p x).vaultOwner = s.vaultOwner := rfl
@[simp] theorem State.contexts_setPort (s : State) (k p : Nat) (x : Port) : (s.setPort k p x).contexts = s.contexts := rfl
@[simp] theorem State.kernels_setPort (s : State) (k p : Nat) (x : Port) : (s.setPort k p x).kernels = s.kernels := rfl
@[simp] theorem State.queues_setPort (s : State) (k p : Nat) (x : Port) : (s.setPort k p x).queues = s.queues := rfl
@[simp] theorem State.launches_setPort (s : State) (k p : Nat) (x : Port) : (s.setPort k p x).launches = s.launches := rfl
@[simp] theorem State.saved_setPort (s : State) (k p : Nat) (x : Port) : (s.setPort k p x).saved = s.saved := rfl
@[simp] theorem State.gov_setPort (s : State) (k p : Nat) (x : Port) : (s.setPort k p x).gov = s.gov := rfl
@[simp] theorem State.homes_setPort (s : State) (k p : Nat) (x : Port) : (s.setPort k p x).homes = s.homes := rfl
@[simp] theorem State.leaders_setPort (s : State) (k p : Nat) (x : Port) : (s.setPort k p x).leaders = s.leaders := rfl
@[simp] theorem State.releases_setPort (s : State) (k p : Nat) (x : Port) : (s.setPort k p x).releases = s.releases := rfl
@[simp] theorem State.pushes_setPort (s : State) (k p : Nat) (x : Port) : (s.setPort k p x).pushes = s.pushes := rfl
@[simp] theorem State.gone_setPort (s : State) (k p : Nat) (x : Port) : (s.setPort k p x).gone = s.gone := rfl
@[simp] theorem State.collRuns_setPort (s : State) (k p : Nat) (x : Port) : (s.setPort k p x).collRuns = s.collRuns := rfl
@[simp] theorem State.ghosts_setPort (s : State) (k p : Nat) (x : Port) : (s.setPort k p x).ghosts = s.ghosts := rfl
@[simp] theorem State.imposers_setPort (s : State) (k p : Nat) (x : Port) : (s.setPort k p x).imposers = s.imposers := rfl
@[simp] theorem State.xgens_setPort (s : State) (k p : Nat) (x : Port) : (s.setPort k p x).xgens = s.xgens := rfl
@[simp] theorem State.early_setPort (s : State) (k p : Nat) (x : Port) : (s.setPort k p x).early = s.early := rfl
@[simp] theorem State.outbox_setPort (s : State) (k p : Nat) (x : Port) : (s.setPort k p x).outbox = s.outbox := rfl
@[simp] theorem State.unreach_setPort (s : State) (k p : Nat) (x : Port) : (s.setPort k p x).unreach = s.unreach := rfl
@[simp] theorem State.late_setPort (s : State) (k p : Nat) (x : Port) : (s.setPort k p x).late = s.late := rfl
@[simp] theorem State.dead_setPort (s : State) (k p : Nat) (x : Port) : (s.setPort k p x).dead = s.dead := rfl
@[simp] theorem State.host_setPort (s : State) (k p : Nat) (x : Port) : (s.setPort k p x).host = s.host := rfl
@[simp] theorem State.pkg_setPort (s : State) (k p : Nat) (x : Port) : (s.setPort k p x).pkg = s.pkg := rfl
@[simp] theorem State.msix_setPort (s : State) (k p : Nat) (x : Port) : (s.setPort k p x).msix = s.msix := rfl
@[simp] theorem State.tsvSpares_setPort (s : State) (k p : Nat) (x : Port) : (s.setPort k p x).tsvSpares = s.tsvSpares := rfl
@[simp] theorem State.bondSpares_setPort (s : State) (k p : Nat) (x : Port) : (s.setPort k p x).bondSpares = s.bondSpares := rfl
@[simp] theorem State.bondCounts_setPort (s : State) (k p : Nat) (x : Port) : (s.setPort k p x).bondCounts = s.bondCounts := rfl
@[simp] theorem State.streamTurns_setPort (s : State) (k p : Nat) (x : Port) : (s.setPort k p x).streamTurns = s.streamTurns := rfl
@[simp] theorem State.lateralBanks_setPort (s : State) (k p : Nat) (x : Port) : (s.setPort k p x).lateralBanks = s.lateralBanks := rfl
@[simp] theorem State.remapErrors_setPort (s : State) (k p : Nat) (x : Port) : (s.setPort k p x).remapErrors = s.remapErrors := rfl
@[simp] theorem State.remapWalks_setPort (s : State) (k p : Nat) (x : Port) : (s.setPort k p x).remapWalks = s.remapWalks := rfl

/-! ## putNum -/

@[simp] theorem State.threads_putNum (s : State) (a n x : Nat) : (s.putNum a n x).threads = s.threads := rfl
@[simp] theorem State.cur_putNum (s : State) (a n x : Nat) : (s.putNum a n x).cur = s.cur := rfl
@[simp] theorem State.agenda_putNum (s : State) (a n x : Nat) : (s.putNum a n x).agenda = s.agenda := rfl
@[simp] theorem State.dev_putNum (s : State) (a n x : Nat) : (s.putNum a n x).dev = s.dev := rfl
@[simp] theorem State.dtime_putNum (s : State) (a n x : Nat) : (s.putNum a n x).dtime = s.dtime := rfl
@[simp] theorem State.dtOffset_putNum (s : State) (a n x : Nat) : (s.putNum a n x).dtOffset = s.dtOffset := rfl
@[simp] theorem State.seq_putNum (s : State) (a n x : Nat) : (s.putNum a n x).seq = s.seq := rfl
@[simp] theorem State.fresh_putNum (s : State) (a n x : Nat) : (s.putNum a n x).fresh = s.fresh := rfl
@[simp] theorem State.win_putNum (s : State) (a n x : Nat) : (s.putNum a n x).win = s.win := rfl
@[simp] theorem State.poison_putNum (s : State) (a n x : Nat) : (s.putNum a n x).poison = s.poison := rfl
@[simp] theorem State.retired_putNum (s : State) (a n x : Nat) : (s.putNum a n x).retired = s.retired := rfl
@[simp] theorem State.latent_putNum (s : State) (a n x : Nat) : (s.putNum a n x).latent = s.latent := rfl
@[simp] theorem State.tlb_putNum (s : State) (a n x : Nat) : (s.putNum a n x).tlb = s.tlb := rfl
@[simp] theorem State.dcache_putNum (s : State) (a n x : Nat) : (s.putNum a n x).dcache = s.dcache := rfl
@[simp] theorem State.icache_putNum (s : State) (a n x : Nat) : (s.putNum a n x).icache = s.icache := rfl
@[simp] theorem State.swaps_putNum (s : State) (a n x : Nat) : (s.putNum a n x).swaps = s.swaps := rfl
@[simp] theorem State.packets_putNum (s : State) (a n x : Nat) : (s.putNum a n x).packets = s.packets := rfl
@[simp] theorem State.spans_putNum (s : State) (a n x : Nat) : (s.putNum a n x).spans = s.spans := rfl
@[simp] theorem State.heldRemote_putNum (s : State) (a n x : Nat) : (s.putNum a n x).heldRemote = s.heldRemote := rfl
@[simp] theorem State.ports_putNum (s : State) (a n x : Nat) : (s.putNum a n x).ports = s.ports := rfl
@[simp] theorem State.passes_putNum (s : State) (a n x : Nat) : (s.putNum a n x).passes = s.passes := rfl
@[simp] theorem State.factHolder_putNum (s : State) (a n x : Nat) : (s.putNum a n x).factHolder = s.factHolder := rfl
@[simp] theorem State.vaultOwner_putNum (s : State) (a n x : Nat) : (s.putNum a n x).vaultOwner = s.vaultOwner := rfl
@[simp] theorem State.contexts_putNum (s : State) (a n x : Nat) : (s.putNum a n x).contexts = s.contexts := rfl
@[simp] theorem State.kernels_putNum (s : State) (a n x : Nat) : (s.putNum a n x).kernels = s.kernels := rfl
@[simp] theorem State.queues_putNum (s : State) (a n x : Nat) : (s.putNum a n x).queues = s.queues := rfl
@[simp] theorem State.launches_putNum (s : State) (a n x : Nat) : (s.putNum a n x).launches = s.launches := rfl
@[simp] theorem State.saved_putNum (s : State) (a n x : Nat) : (s.putNum a n x).saved = s.saved := rfl
@[simp] theorem State.gov_putNum (s : State) (a n x : Nat) : (s.putNum a n x).gov = s.gov := rfl
@[simp] theorem State.homes_putNum (s : State) (a n x : Nat) : (s.putNum a n x).homes = s.homes := rfl
@[simp] theorem State.leaders_putNum (s : State) (a n x : Nat) : (s.putNum a n x).leaders = s.leaders := rfl
@[simp] theorem State.releases_putNum (s : State) (a n x : Nat) : (s.putNum a n x).releases = s.releases := rfl
@[simp] theorem State.pushes_putNum (s : State) (a n x : Nat) : (s.putNum a n x).pushes = s.pushes := rfl
@[simp] theorem State.gone_putNum (s : State) (a n x : Nat) : (s.putNum a n x).gone = s.gone := rfl
@[simp] theorem State.collRuns_putNum (s : State) (a n x : Nat) : (s.putNum a n x).collRuns = s.collRuns := rfl
@[simp] theorem State.ghosts_putNum (s : State) (a n x : Nat) : (s.putNum a n x).ghosts = s.ghosts := rfl
@[simp] theorem State.imposers_putNum (s : State) (a n x : Nat) : (s.putNum a n x).imposers = s.imposers := rfl
@[simp] theorem State.xgens_putNum (s : State) (a n x : Nat) : (s.putNum a n x).xgens = s.xgens := rfl
@[simp] theorem State.early_putNum (s : State) (a n x : Nat) : (s.putNum a n x).early = s.early := rfl
@[simp] theorem State.outbox_putNum (s : State) (a n x : Nat) : (s.putNum a n x).outbox = s.outbox := rfl
@[simp] theorem State.unreach_putNum (s : State) (a n x : Nat) : (s.putNum a n x).unreach = s.unreach := rfl
@[simp] theorem State.late_putNum (s : State) (a n x : Nat) : (s.putNum a n x).late = s.late := rfl
@[simp] theorem State.dead_putNum (s : State) (a n x : Nat) : (s.putNum a n x).dead = s.dead := rfl
@[simp] theorem State.host_putNum (s : State) (a n x : Nat) : (s.putNum a n x).host = s.host := rfl
@[simp] theorem State.pkg_putNum (s : State) (a n x : Nat) : (s.putNum a n x).pkg = s.pkg := rfl
@[simp] theorem State.msix_putNum (s : State) (a n x : Nat) : (s.putNum a n x).msix = s.msix := rfl
@[simp] theorem State.tsvSpares_putNum (s : State) (a n x : Nat) : (s.putNum a n x).tsvSpares = s.tsvSpares := rfl
@[simp] theorem State.bondSpares_putNum (s : State) (a n x : Nat) : (s.putNum a n x).bondSpares = s.bondSpares := rfl
@[simp] theorem State.bondCounts_putNum (s : State) (a n x : Nat) : (s.putNum a n x).bondCounts = s.bondCounts := rfl
@[simp] theorem State.streamTurns_putNum (s : State) (a n x : Nat) : (s.putNum a n x).streamTurns = s.streamTurns := rfl
@[simp] theorem State.lateralBanks_putNum (s : State) (a n x : Nat) : (s.putNum a n x).lateralBanks = s.lateralBanks := rfl
@[simp] theorem State.remapErrors_putNum (s : State) (a n x : Nat) : (s.putNum a n x).remapErrors = s.remapErrors := rfl
@[simp] theorem State.remapWalks_putNum (s : State) (a n x : Nat) : (s.putNum a n x).remapWalks = s.remapWalks := rfl

/-! ## stamp -/

@[simp] theorem State.threads_stamp (s : State) : (s.stamp).threads = s.threads := rfl
@[simp] theorem State.cur_stamp (s : State) : (s.stamp).cur = s.cur := rfl
@[simp] theorem State.agenda_stamp (s : State) : (s.stamp).agenda = s.agenda := rfl
@[simp] theorem State.dev_stamp (s : State) : (s.stamp).dev = s.dev := rfl
@[simp] theorem State.dtime_stamp (s : State) : (s.stamp).dtime = s.dtime := rfl
@[simp] theorem State.dtOffset_stamp (s : State) : (s.stamp).dtOffset = s.dtOffset := rfl
@[simp] theorem State.fresh_stamp (s : State) : (s.stamp).fresh = s.fresh := rfl
@[simp] theorem State.win_stamp (s : State) : (s.stamp).win = s.win := rfl
@[simp] theorem State.mem_stamp (s : State) : (s.stamp).mem = s.mem := rfl
@[simp] theorem State.poison_stamp (s : State) : (s.stamp).poison = s.poison := rfl
@[simp] theorem State.retired_stamp (s : State) : (s.stamp).retired = s.retired := rfl
@[simp] theorem State.latent_stamp (s : State) : (s.stamp).latent = s.latent := rfl
@[simp] theorem State.tlb_stamp (s : State) : (s.stamp).tlb = s.tlb := rfl
@[simp] theorem State.dcache_stamp (s : State) : (s.stamp).dcache = s.dcache := rfl
@[simp] theorem State.icache_stamp (s : State) : (s.stamp).icache = s.icache := rfl
@[simp] theorem State.swaps_stamp (s : State) : (s.stamp).swaps = s.swaps := rfl
@[simp] theorem State.packets_stamp (s : State) : (s.stamp).packets = s.packets := rfl
@[simp] theorem State.spans_stamp (s : State) : (s.stamp).spans = s.spans := rfl
@[simp] theorem State.heldRemote_stamp (s : State) : (s.stamp).heldRemote = s.heldRemote := rfl
@[simp] theorem State.ports_stamp (s : State) : (s.stamp).ports = s.ports := rfl
@[simp] theorem State.passes_stamp (s : State) : (s.stamp).passes = s.passes := rfl
@[simp] theorem State.factHolder_stamp (s : State) : (s.stamp).factHolder = s.factHolder := rfl
@[simp] theorem State.vaultOwner_stamp (s : State) : (s.stamp).vaultOwner = s.vaultOwner := rfl
@[simp] theorem State.contexts_stamp (s : State) : (s.stamp).contexts = s.contexts := rfl
@[simp] theorem State.kernels_stamp (s : State) : (s.stamp).kernels = s.kernels := rfl
@[simp] theorem State.queues_stamp (s : State) : (s.stamp).queues = s.queues := rfl
@[simp] theorem State.launches_stamp (s : State) : (s.stamp).launches = s.launches := rfl
@[simp] theorem State.saved_stamp (s : State) : (s.stamp).saved = s.saved := rfl
@[simp] theorem State.gov_stamp (s : State) : (s.stamp).gov = s.gov := rfl
@[simp] theorem State.homes_stamp (s : State) : (s.stamp).homes = s.homes := rfl
@[simp] theorem State.leaders_stamp (s : State) : (s.stamp).leaders = s.leaders := rfl
@[simp] theorem State.releases_stamp (s : State) : (s.stamp).releases = s.releases := rfl
@[simp] theorem State.pushes_stamp (s : State) : (s.stamp).pushes = s.pushes := rfl
@[simp] theorem State.gone_stamp (s : State) : (s.stamp).gone = s.gone := rfl
@[simp] theorem State.collRuns_stamp (s : State) : (s.stamp).collRuns = s.collRuns := rfl
@[simp] theorem State.ghosts_stamp (s : State) : (s.stamp).ghosts = s.ghosts := rfl
@[simp] theorem State.imposers_stamp (s : State) : (s.stamp).imposers = s.imposers := rfl
@[simp] theorem State.xgens_stamp (s : State) : (s.stamp).xgens = s.xgens := rfl
@[simp] theorem State.early_stamp (s : State) : (s.stamp).early = s.early := rfl
@[simp] theorem State.outbox_stamp (s : State) : (s.stamp).outbox = s.outbox := rfl
@[simp] theorem State.unreach_stamp (s : State) : (s.stamp).unreach = s.unreach := rfl
@[simp] theorem State.late_stamp (s : State) : (s.stamp).late = s.late := rfl
@[simp] theorem State.dead_stamp (s : State) : (s.stamp).dead = s.dead := rfl
@[simp] theorem State.host_stamp (s : State) : (s.stamp).host = s.host := rfl
@[simp] theorem State.pkg_stamp (s : State) : (s.stamp).pkg = s.pkg := rfl
@[simp] theorem State.msix_stamp (s : State) : (s.stamp).msix = s.msix := rfl
@[simp] theorem State.tsvSpares_stamp (s : State) : (s.stamp).tsvSpares = s.tsvSpares := rfl
@[simp] theorem State.bondSpares_stamp (s : State) : (s.stamp).bondSpares = s.bondSpares := rfl
@[simp] theorem State.bondCounts_stamp (s : State) : (s.stamp).bondCounts = s.bondCounts := rfl
@[simp] theorem State.streamTurns_stamp (s : State) : (s.stamp).streamTurns = s.streamTurns := rfl
@[simp] theorem State.lateralBanks_stamp (s : State) : (s.stamp).lateralBanks = s.lateralBanks := rfl
@[simp] theorem State.remapErrors_stamp (s : State) : (s.stamp).remapErrors = s.remapErrors := rfl
@[simp] theorem State.remapWalks_stamp (s : State) : (s.stamp).remapWalks = s.remapWalks := rfl

/-! ## tickFresh -/

@[simp] theorem State.threads_tickFresh (s : State) : (s.tickFresh).threads = s.threads := rfl
@[simp] theorem State.cur_tickFresh (s : State) : (s.tickFresh).cur = s.cur := rfl
@[simp] theorem State.agenda_tickFresh (s : State) : (s.tickFresh).agenda = s.agenda := rfl
@[simp] theorem State.dev_tickFresh (s : State) : (s.tickFresh).dev = s.dev := rfl
@[simp] theorem State.dtime_tickFresh (s : State) : (s.tickFresh).dtime = s.dtime := rfl
@[simp] theorem State.dtOffset_tickFresh (s : State) : (s.tickFresh).dtOffset = s.dtOffset := rfl
@[simp] theorem State.seq_tickFresh (s : State) : (s.tickFresh).seq = s.seq := rfl
@[simp] theorem State.win_tickFresh (s : State) : (s.tickFresh).win = s.win := rfl
@[simp] theorem State.mem_tickFresh (s : State) : (s.tickFresh).mem = s.mem := rfl
@[simp] theorem State.poison_tickFresh (s : State) : (s.tickFresh).poison = s.poison := rfl
@[simp] theorem State.retired_tickFresh (s : State) : (s.tickFresh).retired = s.retired := rfl
@[simp] theorem State.latent_tickFresh (s : State) : (s.tickFresh).latent = s.latent := rfl
@[simp] theorem State.tlb_tickFresh (s : State) : (s.tickFresh).tlb = s.tlb := rfl
@[simp] theorem State.dcache_tickFresh (s : State) : (s.tickFresh).dcache = s.dcache := rfl
@[simp] theorem State.icache_tickFresh (s : State) : (s.tickFresh).icache = s.icache := rfl
@[simp] theorem State.swaps_tickFresh (s : State) : (s.tickFresh).swaps = s.swaps := rfl
@[simp] theorem State.packets_tickFresh (s : State) : (s.tickFresh).packets = s.packets := rfl
@[simp] theorem State.spans_tickFresh (s : State) : (s.tickFresh).spans = s.spans := rfl
@[simp] theorem State.heldRemote_tickFresh (s : State) : (s.tickFresh).heldRemote = s.heldRemote := rfl
@[simp] theorem State.ports_tickFresh (s : State) : (s.tickFresh).ports = s.ports := rfl
@[simp] theorem State.passes_tickFresh (s : State) : (s.tickFresh).passes = s.passes := rfl
@[simp] theorem State.factHolder_tickFresh (s : State) : (s.tickFresh).factHolder = s.factHolder := rfl
@[simp] theorem State.vaultOwner_tickFresh (s : State) : (s.tickFresh).vaultOwner = s.vaultOwner := rfl
@[simp] theorem State.contexts_tickFresh (s : State) : (s.tickFresh).contexts = s.contexts := rfl
@[simp] theorem State.kernels_tickFresh (s : State) : (s.tickFresh).kernels = s.kernels := rfl
@[simp] theorem State.queues_tickFresh (s : State) : (s.tickFresh).queues = s.queues := rfl
@[simp] theorem State.launches_tickFresh (s : State) : (s.tickFresh).launches = s.launches := rfl
@[simp] theorem State.saved_tickFresh (s : State) : (s.tickFresh).saved = s.saved := rfl
@[simp] theorem State.gov_tickFresh (s : State) : (s.tickFresh).gov = s.gov := rfl
@[simp] theorem State.homes_tickFresh (s : State) : (s.tickFresh).homes = s.homes := rfl
@[simp] theorem State.leaders_tickFresh (s : State) : (s.tickFresh).leaders = s.leaders := rfl
@[simp] theorem State.releases_tickFresh (s : State) : (s.tickFresh).releases = s.releases := rfl
@[simp] theorem State.pushes_tickFresh (s : State) : (s.tickFresh).pushes = s.pushes := rfl
@[simp] theorem State.gone_tickFresh (s : State) : (s.tickFresh).gone = s.gone := rfl
@[simp] theorem State.collRuns_tickFresh (s : State) : (s.tickFresh).collRuns = s.collRuns := rfl
@[simp] theorem State.ghosts_tickFresh (s : State) : (s.tickFresh).ghosts = s.ghosts := rfl
@[simp] theorem State.imposers_tickFresh (s : State) : (s.tickFresh).imposers = s.imposers := rfl
@[simp] theorem State.xgens_tickFresh (s : State) : (s.tickFresh).xgens = s.xgens := rfl
@[simp] theorem State.early_tickFresh (s : State) : (s.tickFresh).early = s.early := rfl
@[simp] theorem State.outbox_tickFresh (s : State) : (s.tickFresh).outbox = s.outbox := rfl
@[simp] theorem State.unreach_tickFresh (s : State) : (s.tickFresh).unreach = s.unreach := rfl
@[simp] theorem State.late_tickFresh (s : State) : (s.tickFresh).late = s.late := rfl
@[simp] theorem State.dead_tickFresh (s : State) : (s.tickFresh).dead = s.dead := rfl
@[simp] theorem State.host_tickFresh (s : State) : (s.tickFresh).host = s.host := rfl
@[simp] theorem State.pkg_tickFresh (s : State) : (s.tickFresh).pkg = s.pkg := rfl
@[simp] theorem State.msix_tickFresh (s : State) : (s.tickFresh).msix = s.msix := rfl
@[simp] theorem State.tsvSpares_tickFresh (s : State) : (s.tickFresh).tsvSpares = s.tsvSpares := rfl
@[simp] theorem State.bondSpares_tickFresh (s : State) : (s.tickFresh).bondSpares = s.bondSpares := rfl
@[simp] theorem State.bondCounts_tickFresh (s : State) : (s.tickFresh).bondCounts = s.bondCounts := rfl
@[simp] theorem State.streamTurns_tickFresh (s : State) : (s.tickFresh).streamTurns = s.streamTurns := rfl
@[simp] theorem State.lateralBanks_tickFresh (s : State) : (s.tickFresh).lateralBanks = s.lateralBanks := rfl
@[simp] theorem State.remapErrors_tickFresh (s : State) : (s.tickFresh).remapErrors = s.remapErrors := rfl
@[simp] theorem State.remapWalks_tickFresh (s : State) : (s.tickFresh).remapWalks = s.remapWalks := rfl

/-! ## dropCache -/

@[simp] theorem State.threads_dropCache (s : State) (n : Nat) : (s.dropCache n).threads = s.threads := rfl
@[simp] theorem State.cur_dropCache (s : State) (n : Nat) : (s.dropCache n).cur = s.cur := rfl
@[simp] theorem State.agenda_dropCache (s : State) (n : Nat) : (s.dropCache n).agenda = s.agenda := rfl
@[simp] theorem State.dev_dropCache (s : State) (n : Nat) : (s.dropCache n).dev = s.dev := rfl
@[simp] theorem State.dtime_dropCache (s : State) (n : Nat) : (s.dropCache n).dtime = s.dtime := rfl
@[simp] theorem State.dtOffset_dropCache (s : State) (n : Nat) : (s.dropCache n).dtOffset = s.dtOffset := rfl
@[simp] theorem State.seq_dropCache (s : State) (n : Nat) : (s.dropCache n).seq = s.seq := rfl
@[simp] theorem State.fresh_dropCache (s : State) (n : Nat) : (s.dropCache n).fresh = s.fresh := rfl
@[simp] theorem State.win_dropCache (s : State) (n : Nat) : (s.dropCache n).win = s.win := rfl
@[simp] theorem State.mem_dropCache (s : State) (n : Nat) : (s.dropCache n).mem = s.mem := rfl
@[simp] theorem State.poison_dropCache (s : State) (n : Nat) : (s.dropCache n).poison = s.poison := rfl
@[simp] theorem State.retired_dropCache (s : State) (n : Nat) : (s.dropCache n).retired = s.retired := rfl
@[simp] theorem State.latent_dropCache (s : State) (n : Nat) : (s.dropCache n).latent = s.latent := rfl
@[simp] theorem State.tlb_dropCache (s : State) (n : Nat) : (s.dropCache n).tlb = s.tlb := rfl
@[simp] theorem State.icache_dropCache (s : State) (n : Nat) : (s.dropCache n).icache = s.icache := rfl
@[simp] theorem State.swaps_dropCache (s : State) (n : Nat) : (s.dropCache n).swaps = s.swaps := rfl
@[simp] theorem State.packets_dropCache (s : State) (n : Nat) : (s.dropCache n).packets = s.packets := rfl
@[simp] theorem State.spans_dropCache (s : State) (n : Nat) : (s.dropCache n).spans = s.spans := rfl
@[simp] theorem State.heldRemote_dropCache (s : State) (n : Nat) : (s.dropCache n).heldRemote = s.heldRemote := rfl
@[simp] theorem State.ports_dropCache (s : State) (n : Nat) : (s.dropCache n).ports = s.ports := rfl
@[simp] theorem State.passes_dropCache (s : State) (n : Nat) : (s.dropCache n).passes = s.passes := rfl
@[simp] theorem State.factHolder_dropCache (s : State) (n : Nat) : (s.dropCache n).factHolder = s.factHolder := rfl
@[simp] theorem State.vaultOwner_dropCache (s : State) (n : Nat) : (s.dropCache n).vaultOwner = s.vaultOwner := rfl
@[simp] theorem State.contexts_dropCache (s : State) (n : Nat) : (s.dropCache n).contexts = s.contexts := rfl
@[simp] theorem State.kernels_dropCache (s : State) (n : Nat) : (s.dropCache n).kernels = s.kernels := rfl
@[simp] theorem State.queues_dropCache (s : State) (n : Nat) : (s.dropCache n).queues = s.queues := rfl
@[simp] theorem State.launches_dropCache (s : State) (n : Nat) : (s.dropCache n).launches = s.launches := rfl
@[simp] theorem State.saved_dropCache (s : State) (n : Nat) : (s.dropCache n).saved = s.saved := rfl
@[simp] theorem State.gov_dropCache (s : State) (n : Nat) : (s.dropCache n).gov = s.gov := rfl
@[simp] theorem State.homes_dropCache (s : State) (n : Nat) : (s.dropCache n).homes = s.homes := rfl
@[simp] theorem State.leaders_dropCache (s : State) (n : Nat) : (s.dropCache n).leaders = s.leaders := rfl
@[simp] theorem State.releases_dropCache (s : State) (n : Nat) : (s.dropCache n).releases = s.releases := rfl
@[simp] theorem State.pushes_dropCache (s : State) (n : Nat) : (s.dropCache n).pushes = s.pushes := rfl
@[simp] theorem State.gone_dropCache (s : State) (n : Nat) : (s.dropCache n).gone = s.gone := rfl
@[simp] theorem State.collRuns_dropCache (s : State) (n : Nat) : (s.dropCache n).collRuns = s.collRuns := rfl
@[simp] theorem State.ghosts_dropCache (s : State) (n : Nat) : (s.dropCache n).ghosts = s.ghosts := rfl
@[simp] theorem State.imposers_dropCache (s : State) (n : Nat) : (s.dropCache n).imposers = s.imposers := rfl
@[simp] theorem State.xgens_dropCache (s : State) (n : Nat) : (s.dropCache n).xgens = s.xgens := rfl
@[simp] theorem State.early_dropCache (s : State) (n : Nat) : (s.dropCache n).early = s.early := rfl
@[simp] theorem State.outbox_dropCache (s : State) (n : Nat) : (s.dropCache n).outbox = s.outbox := rfl
@[simp] theorem State.unreach_dropCache (s : State) (n : Nat) : (s.dropCache n).unreach = s.unreach := rfl
@[simp] theorem State.late_dropCache (s : State) (n : Nat) : (s.dropCache n).late = s.late := rfl
@[simp] theorem State.dead_dropCache (s : State) (n : Nat) : (s.dropCache n).dead = s.dead := rfl
@[simp] theorem State.host_dropCache (s : State) (n : Nat) : (s.dropCache n).host = s.host := rfl
@[simp] theorem State.pkg_dropCache (s : State) (n : Nat) : (s.dropCache n).pkg = s.pkg := rfl
@[simp] theorem State.msix_dropCache (s : State) (n : Nat) : (s.dropCache n).msix = s.msix := rfl
@[simp] theorem State.tsvSpares_dropCache (s : State) (n : Nat) : (s.dropCache n).tsvSpares = s.tsvSpares := rfl
@[simp] theorem State.bondSpares_dropCache (s : State) (n : Nat) : (s.dropCache n).bondSpares = s.bondSpares := rfl
@[simp] theorem State.bondCounts_dropCache (s : State) (n : Nat) : (s.dropCache n).bondCounts = s.bondCounts := rfl
@[simp] theorem State.streamTurns_dropCache (s : State) (n : Nat) : (s.dropCache n).streamTurns = s.streamTurns := rfl
@[simp] theorem State.lateralBanks_dropCache (s : State) (n : Nat) : (s.dropCache n).lateralBanks = s.lateralBanks := rfl
@[simp] theorem State.remapErrors_dropCache (s : State) (n : Nat) : (s.dropCache n).remapErrors = s.remapErrors := rfl
@[simp] theorem State.remapWalks_dropCache (s : State) (n : Nat) : (s.dropCache n).remapWalks = s.remapWalks := rfl

/-! ## dropInsns -/

@[simp] theorem State.threads_dropInsns (s : State) (n : Nat) : (s.dropInsns n).threads = s.threads := rfl
@[simp] theorem State.cur_dropInsns (s : State) (n : Nat) : (s.dropInsns n).cur = s.cur := rfl
@[simp] theorem State.agenda_dropInsns (s : State) (n : Nat) : (s.dropInsns n).agenda = s.agenda := rfl
@[simp] theorem State.dev_dropInsns (s : State) (n : Nat) : (s.dropInsns n).dev = s.dev := rfl
@[simp] theorem State.dtime_dropInsns (s : State) (n : Nat) : (s.dropInsns n).dtime = s.dtime := rfl
@[simp] theorem State.dtOffset_dropInsns (s : State) (n : Nat) : (s.dropInsns n).dtOffset = s.dtOffset := rfl
@[simp] theorem State.seq_dropInsns (s : State) (n : Nat) : (s.dropInsns n).seq = s.seq := rfl
@[simp] theorem State.fresh_dropInsns (s : State) (n : Nat) : (s.dropInsns n).fresh = s.fresh := rfl
@[simp] theorem State.win_dropInsns (s : State) (n : Nat) : (s.dropInsns n).win = s.win := rfl
@[simp] theorem State.mem_dropInsns (s : State) (n : Nat) : (s.dropInsns n).mem = s.mem := rfl
@[simp] theorem State.poison_dropInsns (s : State) (n : Nat) : (s.dropInsns n).poison = s.poison := rfl
@[simp] theorem State.retired_dropInsns (s : State) (n : Nat) : (s.dropInsns n).retired = s.retired := rfl
@[simp] theorem State.latent_dropInsns (s : State) (n : Nat) : (s.dropInsns n).latent = s.latent := rfl
@[simp] theorem State.tlb_dropInsns (s : State) (n : Nat) : (s.dropInsns n).tlb = s.tlb := rfl
@[simp] theorem State.dcache_dropInsns (s : State) (n : Nat) : (s.dropInsns n).dcache = s.dcache := rfl
@[simp] theorem State.swaps_dropInsns (s : State) (n : Nat) : (s.dropInsns n).swaps = s.swaps := rfl
@[simp] theorem State.packets_dropInsns (s : State) (n : Nat) : (s.dropInsns n).packets = s.packets := rfl
@[simp] theorem State.spans_dropInsns (s : State) (n : Nat) : (s.dropInsns n).spans = s.spans := rfl
@[simp] theorem State.heldRemote_dropInsns (s : State) (n : Nat) : (s.dropInsns n).heldRemote = s.heldRemote := rfl
@[simp] theorem State.ports_dropInsns (s : State) (n : Nat) : (s.dropInsns n).ports = s.ports := rfl
@[simp] theorem State.passes_dropInsns (s : State) (n : Nat) : (s.dropInsns n).passes = s.passes := rfl
@[simp] theorem State.factHolder_dropInsns (s : State) (n : Nat) : (s.dropInsns n).factHolder = s.factHolder := rfl
@[simp] theorem State.vaultOwner_dropInsns (s : State) (n : Nat) : (s.dropInsns n).vaultOwner = s.vaultOwner := rfl
@[simp] theorem State.contexts_dropInsns (s : State) (n : Nat) : (s.dropInsns n).contexts = s.contexts := rfl
@[simp] theorem State.kernels_dropInsns (s : State) (n : Nat) : (s.dropInsns n).kernels = s.kernels := rfl
@[simp] theorem State.queues_dropInsns (s : State) (n : Nat) : (s.dropInsns n).queues = s.queues := rfl
@[simp] theorem State.launches_dropInsns (s : State) (n : Nat) : (s.dropInsns n).launches = s.launches := rfl
@[simp] theorem State.saved_dropInsns (s : State) (n : Nat) : (s.dropInsns n).saved = s.saved := rfl
@[simp] theorem State.gov_dropInsns (s : State) (n : Nat) : (s.dropInsns n).gov = s.gov := rfl
@[simp] theorem State.homes_dropInsns (s : State) (n : Nat) : (s.dropInsns n).homes = s.homes := rfl
@[simp] theorem State.leaders_dropInsns (s : State) (n : Nat) : (s.dropInsns n).leaders = s.leaders := rfl
@[simp] theorem State.releases_dropInsns (s : State) (n : Nat) : (s.dropInsns n).releases = s.releases := rfl
@[simp] theorem State.pushes_dropInsns (s : State) (n : Nat) : (s.dropInsns n).pushes = s.pushes := rfl
@[simp] theorem State.gone_dropInsns (s : State) (n : Nat) : (s.dropInsns n).gone = s.gone := rfl
@[simp] theorem State.collRuns_dropInsns (s : State) (n : Nat) : (s.dropInsns n).collRuns = s.collRuns := rfl
@[simp] theorem State.ghosts_dropInsns (s : State) (n : Nat) : (s.dropInsns n).ghosts = s.ghosts := rfl
@[simp] theorem State.imposers_dropInsns (s : State) (n : Nat) : (s.dropInsns n).imposers = s.imposers := rfl
@[simp] theorem State.xgens_dropInsns (s : State) (n : Nat) : (s.dropInsns n).xgens = s.xgens := rfl
@[simp] theorem State.early_dropInsns (s : State) (n : Nat) : (s.dropInsns n).early = s.early := rfl
@[simp] theorem State.outbox_dropInsns (s : State) (n : Nat) : (s.dropInsns n).outbox = s.outbox := rfl
@[simp] theorem State.unreach_dropInsns (s : State) (n : Nat) : (s.dropInsns n).unreach = s.unreach := rfl
@[simp] theorem State.late_dropInsns (s : State) (n : Nat) : (s.dropInsns n).late = s.late := rfl
@[simp] theorem State.dead_dropInsns (s : State) (n : Nat) : (s.dropInsns n).dead = s.dead := rfl
@[simp] theorem State.host_dropInsns (s : State) (n : Nat) : (s.dropInsns n).host = s.host := rfl
@[simp] theorem State.pkg_dropInsns (s : State) (n : Nat) : (s.dropInsns n).pkg = s.pkg := rfl
@[simp] theorem State.msix_dropInsns (s : State) (n : Nat) : (s.dropInsns n).msix = s.msix := rfl
@[simp] theorem State.tsvSpares_dropInsns (s : State) (n : Nat) : (s.dropInsns n).tsvSpares = s.tsvSpares := rfl
@[simp] theorem State.bondSpares_dropInsns (s : State) (n : Nat) : (s.dropInsns n).bondSpares = s.bondSpares := rfl
@[simp] theorem State.bondCounts_dropInsns (s : State) (n : Nat) : (s.dropInsns n).bondCounts = s.bondCounts := rfl
@[simp] theorem State.streamTurns_dropInsns (s : State) (n : Nat) : (s.dropInsns n).streamTurns = s.streamTurns := rfl
@[simp] theorem State.lateralBanks_dropInsns (s : State) (n : Nat) : (s.dropInsns n).lateralBanks = s.lateralBanks := rfl
@[simp] theorem State.remapErrors_dropInsns (s : State) (n : Nat) : (s.dropInsns n).remapErrors = s.remapErrors := rfl
@[simp] theorem State.remapWalks_dropInsns (s : State) (n : Nat) : (s.dropInsns n).remapWalks = s.remapWalks := rfl

/-! ## waiting -/

@[simp] theorem State.cur_waiting (s : State) (w : WaitFor) : (s.waiting w).cur = s.cur := rfl
@[simp] theorem State.agenda_waiting (s : State) (w : WaitFor) : (s.waiting w).agenda = s.agenda := rfl
@[simp] theorem State.dev_waiting (s : State) (w : WaitFor) : (s.waiting w).dev = s.dev := rfl
@[simp] theorem State.dtime_waiting (s : State) (w : WaitFor) : (s.waiting w).dtime = s.dtime := rfl
@[simp] theorem State.dtOffset_waiting (s : State) (w : WaitFor) : (s.waiting w).dtOffset = s.dtOffset := rfl
@[simp] theorem State.seq_waiting (s : State) (w : WaitFor) : (s.waiting w).seq = s.seq := rfl
@[simp] theorem State.fresh_waiting (s : State) (w : WaitFor) : (s.waiting w).fresh = s.fresh := rfl
@[simp] theorem State.win_waiting (s : State) (w : WaitFor) : (s.waiting w).win = s.win := rfl
@[simp] theorem State.mem_waiting (s : State) (w : WaitFor) : (s.waiting w).mem = s.mem := rfl
@[simp] theorem State.poison_waiting (s : State) (w : WaitFor) : (s.waiting w).poison = s.poison := rfl
@[simp] theorem State.retired_waiting (s : State) (w : WaitFor) : (s.waiting w).retired = s.retired := rfl
@[simp] theorem State.latent_waiting (s : State) (w : WaitFor) : (s.waiting w).latent = s.latent := rfl
@[simp] theorem State.tlb_waiting (s : State) (w : WaitFor) : (s.waiting w).tlb = s.tlb := rfl
@[simp] theorem State.dcache_waiting (s : State) (w : WaitFor) : (s.waiting w).dcache = s.dcache := rfl
@[simp] theorem State.icache_waiting (s : State) (w : WaitFor) : (s.waiting w).icache = s.icache := rfl
@[simp] theorem State.swaps_waiting (s : State) (w : WaitFor) : (s.waiting w).swaps = s.swaps := rfl
@[simp] theorem State.packets_waiting (s : State) (w : WaitFor) : (s.waiting w).packets = s.packets := rfl
@[simp] theorem State.spans_waiting (s : State) (w : WaitFor) : (s.waiting w).spans = s.spans := rfl
@[simp] theorem State.heldRemote_waiting (s : State) (w : WaitFor) : (s.waiting w).heldRemote = s.heldRemote := rfl
@[simp] theorem State.ports_waiting (s : State) (w : WaitFor) : (s.waiting w).ports = s.ports := rfl
@[simp] theorem State.passes_waiting (s : State) (w : WaitFor) : (s.waiting w).passes = s.passes := rfl
@[simp] theorem State.factHolder_waiting (s : State) (w : WaitFor) : (s.waiting w).factHolder = s.factHolder := rfl
@[simp] theorem State.vaultOwner_waiting (s : State) (w : WaitFor) : (s.waiting w).vaultOwner = s.vaultOwner := rfl
@[simp] theorem State.contexts_waiting (s : State) (w : WaitFor) : (s.waiting w).contexts = s.contexts := rfl
@[simp] theorem State.kernels_waiting (s : State) (w : WaitFor) : (s.waiting w).kernels = s.kernels := rfl
@[simp] theorem State.queues_waiting (s : State) (w : WaitFor) : (s.waiting w).queues = s.queues := rfl
@[simp] theorem State.launches_waiting (s : State) (w : WaitFor) : (s.waiting w).launches = s.launches := rfl
@[simp] theorem State.saved_waiting (s : State) (w : WaitFor) : (s.waiting w).saved = s.saved := rfl
@[simp] theorem State.gov_waiting (s : State) (w : WaitFor) : (s.waiting w).gov = s.gov := rfl
@[simp] theorem State.homes_waiting (s : State) (w : WaitFor) : (s.waiting w).homes = s.homes := rfl
@[simp] theorem State.leaders_waiting (s : State) (w : WaitFor) : (s.waiting w).leaders = s.leaders := rfl
@[simp] theorem State.releases_waiting (s : State) (w : WaitFor) : (s.waiting w).releases = s.releases := rfl
@[simp] theorem State.pushes_waiting (s : State) (w : WaitFor) : (s.waiting w).pushes = s.pushes := rfl
@[simp] theorem State.gone_waiting (s : State) (w : WaitFor) : (s.waiting w).gone = s.gone := rfl
@[simp] theorem State.collRuns_waiting (s : State) (w : WaitFor) : (s.waiting w).collRuns = s.collRuns := rfl
@[simp] theorem State.ghosts_waiting (s : State) (w : WaitFor) : (s.waiting w).ghosts = s.ghosts := rfl
@[simp] theorem State.imposers_waiting (s : State) (w : WaitFor) : (s.waiting w).imposers = s.imposers := rfl
@[simp] theorem State.xgens_waiting (s : State) (w : WaitFor) : (s.waiting w).xgens = s.xgens := rfl
@[simp] theorem State.early_waiting (s : State) (w : WaitFor) : (s.waiting w).early = s.early := rfl
@[simp] theorem State.outbox_waiting (s : State) (w : WaitFor) : (s.waiting w).outbox = s.outbox := rfl
@[simp] theorem State.unreach_waiting (s : State) (w : WaitFor) : (s.waiting w).unreach = s.unreach := rfl
@[simp] theorem State.late_waiting (s : State) (w : WaitFor) : (s.waiting w).late = s.late := rfl
@[simp] theorem State.dead_waiting (s : State) (w : WaitFor) : (s.waiting w).dead = s.dead := rfl
@[simp] theorem State.host_waiting (s : State) (w : WaitFor) : (s.waiting w).host = s.host := rfl
@[simp] theorem State.pkg_waiting (s : State) (w : WaitFor) : (s.waiting w).pkg = s.pkg := rfl
@[simp] theorem State.msix_waiting (s : State) (w : WaitFor) : (s.waiting w).msix = s.msix := rfl
@[simp] theorem State.tsvSpares_waiting (s : State) (w : WaitFor) : (s.waiting w).tsvSpares = s.tsvSpares := rfl
@[simp] theorem State.bondSpares_waiting (s : State) (w : WaitFor) : (s.waiting w).bondSpares = s.bondSpares := rfl
@[simp] theorem State.bondCounts_waiting (s : State) (w : WaitFor) : (s.waiting w).bondCounts = s.bondCounts := rfl
@[simp] theorem State.streamTurns_waiting (s : State) (w : WaitFor) : (s.waiting w).streamTurns = s.streamTurns := rfl
@[simp] theorem State.lateralBanks_waiting (s : State) (w : WaitFor) : (s.waiting w).lateralBanks = s.lateralBanks := rfl
@[simp] theorem State.remapErrors_waiting (s : State) (w : WaitFor) : (s.waiting w).remapErrors = s.remapErrors := rfl
@[simp] theorem State.remapWalks_waiting (s : State) (w : WaitFor) : (s.waiting w).remapWalks = s.remapWalks := rfl

/-! ## poke -/

@[simp] theorem State.threads_poke (s : State) (l : List (Nat × Byte)) : (s.poke l).threads = s.threads := rfl
@[simp] theorem State.cur_poke (s : State) (l : List (Nat × Byte)) : (s.poke l).cur = s.cur := rfl
@[simp] theorem State.agenda_poke (s : State) (l : List (Nat × Byte)) : (s.poke l).agenda = s.agenda := rfl
@[simp] theorem State.dev_poke (s : State) (l : List (Nat × Byte)) : (s.poke l).dev = s.dev := rfl
@[simp] theorem State.dtime_poke (s : State) (l : List (Nat × Byte)) : (s.poke l).dtime = s.dtime := rfl
@[simp] theorem State.dtOffset_poke (s : State) (l : List (Nat × Byte)) : (s.poke l).dtOffset = s.dtOffset := rfl
@[simp] theorem State.seq_poke (s : State) (l : List (Nat × Byte)) : (s.poke l).seq = s.seq := rfl
@[simp] theorem State.fresh_poke (s : State) (l : List (Nat × Byte)) : (s.poke l).fresh = s.fresh := rfl
@[simp] theorem State.win_poke (s : State) (l : List (Nat × Byte)) : (s.poke l).win = s.win := rfl
@[simp] theorem State.poison_poke (s : State) (l : List (Nat × Byte)) : (s.poke l).poison = s.poison := rfl
@[simp] theorem State.retired_poke (s : State) (l : List (Nat × Byte)) : (s.poke l).retired = s.retired := rfl
@[simp] theorem State.latent_poke (s : State) (l : List (Nat × Byte)) : (s.poke l).latent = s.latent := rfl
@[simp] theorem State.tlb_poke (s : State) (l : List (Nat × Byte)) : (s.poke l).tlb = s.tlb := rfl
@[simp] theorem State.dcache_poke (s : State) (l : List (Nat × Byte)) : (s.poke l).dcache = s.dcache := rfl
@[simp] theorem State.icache_poke (s : State) (l : List (Nat × Byte)) : (s.poke l).icache = s.icache := rfl
@[simp] theorem State.swaps_poke (s : State) (l : List (Nat × Byte)) : (s.poke l).swaps = s.swaps := rfl
@[simp] theorem State.packets_poke (s : State) (l : List (Nat × Byte)) : (s.poke l).packets = s.packets := rfl
@[simp] theorem State.spans_poke (s : State) (l : List (Nat × Byte)) : (s.poke l).spans = s.spans := rfl
@[simp] theorem State.heldRemote_poke (s : State) (l : List (Nat × Byte)) : (s.poke l).heldRemote = s.heldRemote := rfl
@[simp] theorem State.ports_poke (s : State) (l : List (Nat × Byte)) : (s.poke l).ports = s.ports := rfl
@[simp] theorem State.passes_poke (s : State) (l : List (Nat × Byte)) : (s.poke l).passes = s.passes := rfl
@[simp] theorem State.factHolder_poke (s : State) (l : List (Nat × Byte)) : (s.poke l).factHolder = s.factHolder := rfl
@[simp] theorem State.vaultOwner_poke (s : State) (l : List (Nat × Byte)) : (s.poke l).vaultOwner = s.vaultOwner := rfl
@[simp] theorem State.contexts_poke (s : State) (l : List (Nat × Byte)) : (s.poke l).contexts = s.contexts := rfl
@[simp] theorem State.kernels_poke (s : State) (l : List (Nat × Byte)) : (s.poke l).kernels = s.kernels := rfl
@[simp] theorem State.queues_poke (s : State) (l : List (Nat × Byte)) : (s.poke l).queues = s.queues := rfl
@[simp] theorem State.launches_poke (s : State) (l : List (Nat × Byte)) : (s.poke l).launches = s.launches := rfl
@[simp] theorem State.saved_poke (s : State) (l : List (Nat × Byte)) : (s.poke l).saved = s.saved := rfl
@[simp] theorem State.gov_poke (s : State) (l : List (Nat × Byte)) : (s.poke l).gov = s.gov := rfl
@[simp] theorem State.homes_poke (s : State) (l : List (Nat × Byte)) : (s.poke l).homes = s.homes := rfl
@[simp] theorem State.leaders_poke (s : State) (l : List (Nat × Byte)) : (s.poke l).leaders = s.leaders := rfl
@[simp] theorem State.releases_poke (s : State) (l : List (Nat × Byte)) : (s.poke l).releases = s.releases := rfl
@[simp] theorem State.pushes_poke (s : State) (l : List (Nat × Byte)) : (s.poke l).pushes = s.pushes := rfl
@[simp] theorem State.gone_poke (s : State) (l : List (Nat × Byte)) : (s.poke l).gone = s.gone := rfl
@[simp] theorem State.collRuns_poke (s : State) (l : List (Nat × Byte)) : (s.poke l).collRuns = s.collRuns := rfl
@[simp] theorem State.ghosts_poke (s : State) (l : List (Nat × Byte)) : (s.poke l).ghosts = s.ghosts := rfl
@[simp] theorem State.imposers_poke (s : State) (l : List (Nat × Byte)) : (s.poke l).imposers = s.imposers := rfl
@[simp] theorem State.xgens_poke (s : State) (l : List (Nat × Byte)) : (s.poke l).xgens = s.xgens := rfl
@[simp] theorem State.early_poke (s : State) (l : List (Nat × Byte)) : (s.poke l).early = s.early := rfl
@[simp] theorem State.outbox_poke (s : State) (l : List (Nat × Byte)) : (s.poke l).outbox = s.outbox := rfl
@[simp] theorem State.late_poke (s : State) (l : List (Nat × Byte)) : (s.poke l).late = s.late := rfl
@[simp] theorem State.dead_poke (s : State) (l : List (Nat × Byte)) : (s.poke l).dead = s.dead := rfl
@[simp] theorem State.host_poke (s : State) (l : List (Nat × Byte)) : (s.poke l).host = s.host := rfl
@[simp] theorem State.pkg_poke (s : State) (l : List (Nat × Byte)) : (s.poke l).pkg = s.pkg := rfl
@[simp] theorem State.msix_poke (s : State) (l : List (Nat × Byte)) : (s.poke l).msix = s.msix := rfl
@[simp] theorem State.tsvSpares_poke (s : State) (l : List (Nat × Byte)) : (s.poke l).tsvSpares = s.tsvSpares := rfl
@[simp] theorem State.bondSpares_poke (s : State) (l : List (Nat × Byte)) : (s.poke l).bondSpares = s.bondSpares := rfl
@[simp] theorem State.bondCounts_poke (s : State) (l : List (Nat × Byte)) : (s.poke l).bondCounts = s.bondCounts := rfl
@[simp] theorem State.streamTurns_poke (s : State) (l : List (Nat × Byte)) : (s.poke l).streamTurns = s.streamTurns := rfl
@[simp] theorem State.lateralBanks_poke (s : State) (l : List (Nat × Byte)) : (s.poke l).lateralBanks = s.lateralBanks := rfl
@[simp] theorem State.remapErrors_poke (s : State) (l : List (Nat × Byte)) : (s.poke l).remapErrors = s.remapErrors := rfl
@[simp] theorem State.remapWalks_poke (s : State) (l : List (Nat × Byte)) : (s.poke l).remapWalks = s.remapWalks := rfl

/-! ## dropLines -/

@[simp] theorem State.threads_dropLines (s : State) (n : Nat) (l : List Nat) : (s.dropLines n l).threads = s.threads := by unfold State.dropLines; split <;> rfl
@[simp] theorem State.cur_dropLines (s : State) (n : Nat) (l : List Nat) : (s.dropLines n l).cur = s.cur := by unfold State.dropLines; split <;> rfl
@[simp] theorem State.agenda_dropLines (s : State) (n : Nat) (l : List Nat) : (s.dropLines n l).agenda = s.agenda := by unfold State.dropLines; split <;> rfl
@[simp] theorem State.dev_dropLines (s : State) (n : Nat) (l : List Nat) : (s.dropLines n l).dev = s.dev := by unfold State.dropLines; split <;> rfl
@[simp] theorem State.dtime_dropLines (s : State) (n : Nat) (l : List Nat) : (s.dropLines n l).dtime = s.dtime := by unfold State.dropLines; split <;> rfl
@[simp] theorem State.dtOffset_dropLines (s : State) (n : Nat) (l : List Nat) : (s.dropLines n l).dtOffset = s.dtOffset := by unfold State.dropLines; split <;> rfl
@[simp] theorem State.seq_dropLines (s : State) (n : Nat) (l : List Nat) : (s.dropLines n l).seq = s.seq := by unfold State.dropLines; split <;> rfl
@[simp] theorem State.fresh_dropLines (s : State) (n : Nat) (l : List Nat) : (s.dropLines n l).fresh = s.fresh := by unfold State.dropLines; split <;> rfl
@[simp] theorem State.win_dropLines (s : State) (n : Nat) (l : List Nat) : (s.dropLines n l).win = s.win := by unfold State.dropLines; split <;> rfl
@[simp] theorem State.mem_dropLines (s : State) (n : Nat) (l : List Nat) : (s.dropLines n l).mem = s.mem := by unfold State.dropLines; split <;> rfl
@[simp] theorem State.poison_dropLines (s : State) (n : Nat) (l : List Nat) : (s.dropLines n l).poison = s.poison := by unfold State.dropLines; split <;> rfl
@[simp] theorem State.retired_dropLines (s : State) (n : Nat) (l : List Nat) : (s.dropLines n l).retired = s.retired := by unfold State.dropLines; split <;> rfl
@[simp] theorem State.latent_dropLines (s : State) (n : Nat) (l : List Nat) : (s.dropLines n l).latent = s.latent := by unfold State.dropLines; split <;> rfl
@[simp] theorem State.tlb_dropLines (s : State) (n : Nat) (l : List Nat) : (s.dropLines n l).tlb = s.tlb := by unfold State.dropLines; split <;> rfl
@[simp] theorem State.icache_dropLines (s : State) (n : Nat) (l : List Nat) : (s.dropLines n l).icache = s.icache := by unfold State.dropLines; split <;> rfl
@[simp] theorem State.swaps_dropLines (s : State) (n : Nat) (l : List Nat) : (s.dropLines n l).swaps = s.swaps := by unfold State.dropLines; split <;> rfl
@[simp] theorem State.packets_dropLines (s : State) (n : Nat) (l : List Nat) : (s.dropLines n l).packets = s.packets := by unfold State.dropLines; split <;> rfl
@[simp] theorem State.spans_dropLines (s : State) (n : Nat) (l : List Nat) : (s.dropLines n l).spans = s.spans := by unfold State.dropLines; split <;> rfl
@[simp] theorem State.heldRemote_dropLines (s : State) (n : Nat) (l : List Nat) : (s.dropLines n l).heldRemote = s.heldRemote := by unfold State.dropLines; split <;> rfl
@[simp] theorem State.ports_dropLines (s : State) (n : Nat) (l : List Nat) : (s.dropLines n l).ports = s.ports := by unfold State.dropLines; split <;> rfl
@[simp] theorem State.passes_dropLines (s : State) (n : Nat) (l : List Nat) : (s.dropLines n l).passes = s.passes := by unfold State.dropLines; split <;> rfl
@[simp] theorem State.factHolder_dropLines (s : State) (n : Nat) (l : List Nat) : (s.dropLines n l).factHolder = s.factHolder := by unfold State.dropLines; split <;> rfl
@[simp] theorem State.vaultOwner_dropLines (s : State) (n : Nat) (l : List Nat) : (s.dropLines n l).vaultOwner = s.vaultOwner := by unfold State.dropLines; split <;> rfl
@[simp] theorem State.contexts_dropLines (s : State) (n : Nat) (l : List Nat) : (s.dropLines n l).contexts = s.contexts := by unfold State.dropLines; split <;> rfl
@[simp] theorem State.kernels_dropLines (s : State) (n : Nat) (l : List Nat) : (s.dropLines n l).kernels = s.kernels := by unfold State.dropLines; split <;> rfl
@[simp] theorem State.queues_dropLines (s : State) (n : Nat) (l : List Nat) : (s.dropLines n l).queues = s.queues := by unfold State.dropLines; split <;> rfl
@[simp] theorem State.launches_dropLines (s : State) (n : Nat) (l : List Nat) : (s.dropLines n l).launches = s.launches := by unfold State.dropLines; split <;> rfl
@[simp] theorem State.saved_dropLines (s : State) (n : Nat) (l : List Nat) : (s.dropLines n l).saved = s.saved := by unfold State.dropLines; split <;> rfl
@[simp] theorem State.gov_dropLines (s : State) (n : Nat) (l : List Nat) : (s.dropLines n l).gov = s.gov := by unfold State.dropLines; split <;> rfl
@[simp] theorem State.homes_dropLines (s : State) (n : Nat) (l : List Nat) : (s.dropLines n l).homes = s.homes := by unfold State.dropLines; split <;> rfl
@[simp] theorem State.leaders_dropLines (s : State) (n : Nat) (l : List Nat) : (s.dropLines n l).leaders = s.leaders := by unfold State.dropLines; split <;> rfl
@[simp] theorem State.releases_dropLines (s : State) (n : Nat) (l : List Nat) : (s.dropLines n l).releases = s.releases := by unfold State.dropLines; split <;> rfl
@[simp] theorem State.pushes_dropLines (s : State) (n : Nat) (l : List Nat) : (s.dropLines n l).pushes = s.pushes := by unfold State.dropLines; split <;> rfl
@[simp] theorem State.gone_dropLines (s : State) (n : Nat) (l : List Nat) : (s.dropLines n l).gone = s.gone := by unfold State.dropLines; split <;> rfl
@[simp] theorem State.collRuns_dropLines (s : State) (n : Nat) (l : List Nat) : (s.dropLines n l).collRuns = s.collRuns := by unfold State.dropLines; split <;> rfl
@[simp] theorem State.ghosts_dropLines (s : State) (n : Nat) (l : List Nat) : (s.dropLines n l).ghosts = s.ghosts := by unfold State.dropLines; split <;> rfl
@[simp] theorem State.imposers_dropLines (s : State) (n : Nat) (l : List Nat) : (s.dropLines n l).imposers = s.imposers := by unfold State.dropLines; split <;> rfl
@[simp] theorem State.xgens_dropLines (s : State) (n : Nat) (l : List Nat) : (s.dropLines n l).xgens = s.xgens := by unfold State.dropLines; split <;> rfl
@[simp] theorem State.early_dropLines (s : State) (n : Nat) (l : List Nat) : (s.dropLines n l).early = s.early := by unfold State.dropLines; split <;> rfl
@[simp] theorem State.outbox_dropLines (s : State) (n : Nat) (l : List Nat) : (s.dropLines n l).outbox = s.outbox := by unfold State.dropLines; split <;> rfl
@[simp] theorem State.unreach_dropLines (s : State) (n : Nat) (l : List Nat) : (s.dropLines n l).unreach = s.unreach := by unfold State.dropLines; split <;> rfl
@[simp] theorem State.late_dropLines (s : State) (n : Nat) (l : List Nat) : (s.dropLines n l).late = s.late := by unfold State.dropLines; split <;> rfl
@[simp] theorem State.dead_dropLines (s : State) (n : Nat) (l : List Nat) : (s.dropLines n l).dead = s.dead := by unfold State.dropLines; split <;> rfl
@[simp] theorem State.host_dropLines (s : State) (n : Nat) (l : List Nat) : (s.dropLines n l).host = s.host := by unfold State.dropLines; split <;> rfl
@[simp] theorem State.pkg_dropLines (s : State) (n : Nat) (l : List Nat) : (s.dropLines n l).pkg = s.pkg := by unfold State.dropLines; split <;> rfl
@[simp] theorem State.msix_dropLines (s : State) (n : Nat) (l : List Nat) : (s.dropLines n l).msix = s.msix := by unfold State.dropLines; split <;> rfl
@[simp] theorem State.tsvSpares_dropLines (s : State) (n : Nat) (l : List Nat) : (s.dropLines n l).tsvSpares = s.tsvSpares := by unfold State.dropLines; split <;> rfl
@[simp] theorem State.bondSpares_dropLines (s : State) (n : Nat) (l : List Nat) : (s.dropLines n l).bondSpares = s.bondSpares := by unfold State.dropLines; split <;> rfl
@[simp] theorem State.bondCounts_dropLines (s : State) (n : Nat) (l : List Nat) : (s.dropLines n l).bondCounts = s.bondCounts := by unfold State.dropLines; split <;> rfl
@[simp] theorem State.streamTurns_dropLines (s : State) (n : Nat) (l : List Nat) : (s.dropLines n l).streamTurns = s.streamTurns := by unfold State.dropLines; split <;> rfl
@[simp] theorem State.lateralBanks_dropLines (s : State) (n : Nat) (l : List Nat) : (s.dropLines n l).lateralBanks = s.lateralBanks := by unfold State.dropLines; split <;> rfl
@[simp] theorem State.remapErrors_dropLines (s : State) (n : Nat) (l : List Nat) : (s.dropLines n l).remapErrors = s.remapErrors := by unfold State.dropLines; split <;> rfl
@[simp] theorem State.remapWalks_dropLines (s : State) (n : Nat) (l : List Nat) : (s.dropLines n l).remapWalks = s.remapWalks := by unfold State.dropLines; split <;> rfl

/-! ## What a write does to the errors of its words (R108, R436, R441) -/

/-- A state with what another has of errors: registers and counters of errors, stamps, machine checks, poison, the
errors present and the corrections counted against bonds. -/
def State.withErrors (s o : State) : State :=
  { s with host := o.host, seq := o.seq, msix := o.msix, poison := o.poison, latent := o.latent, bondCounts := o.bondCounts }

theorem State.withErrors_self (s : State) : s.withErrors s = s := rfl

theorem State.withErrors_errors (s o : State) (h : HostRegs) (n : Nat) (m : List Nat) :
    ({ s with host := h, seq := n, msix := m } : State).withErrors o = s.withErrors o := rfl

theorem State.withErrors_count (s o : State) (i : Nat) : (s.count i).withErrors o = s.withErrors o := rfl

theorem State.withErrors_countBond (s o : State) (w b : Nat) : (s.countBond w b).withErrors o = s.withErrors o := rfl

theorem State.withErrors_arrayLog (s o : State) (w : Nat) (b : Option Nat) : (s.arrayLog w b).withErrors o = s.withErrors o := by
  unfold State.arrayLog
  split
  · exact State.withErrors_errors s o _ _ _
  · exact State.withErrors_errors s o _ _ _

theorem State.withErrors_machineCheck (s o : State) (c : BitVec 8) (i : BitVec 48) : (s.machineCheck c i).withErrors o = s.withErrors o := by
  unfold State.machineCheck
  dsimp only
  split
  · rw [State.withErrors_count]
    exact State.withErrors_errors s o _ _ _
  · exact State.withErrors_errors s o _ _ _

/-- Meeting an error changes what withErrors names, nothing else (R436, R439). -/
theorem State.withErrors_meet (s o : State) (a : Nat) : (s.meet a).withErrors o = s.withErrors o := by
  unfold State.meet
  dsimp only
  split
  · rfl
  · split
    · split
      · rw [State.withErrors_countBond, State.withErrors_count, State.withErrors_arrayLog]
      · rw [State.withErrors_count, State.withErrors_arrayLog]
    · rw [State.withErrors_machineCheck, State.withErrors_count, State.withErrors_arrayLog]
      rfl

theorem State.withErrors_rewrite (s o : State) (a : Nat) : (s.rewrite a).withErrors o = s.withErrors o := State.withErrors_meet s o a

/-- So does a read, whatever the words it reaches. -/
theorem State.withErrors_meets (s o : State) (keys : List Nat) : (s.meets keys).withErrors o = s.withErrors o := by
  have fold (l : List Nat) (u : State) : (l.foldl State.meet u).withErrors o = u.withErrors o := by
    induction l generalizing u with
    | nil => rfl
    | cons k l ih => rw [List.foldl_cons, ih, State.withErrors_meet]
  unfold State.meets
  split
  · rfl
  · exact fold _ s

/-- So does the end of a store, for the words that it overwrites (R108, R441). -/
theorem State.withErrors_merged (s o : State) (keys whole : List Nat) : (s.merged keys whole).withErrors o = s.withErrors o := by
  have fold (l : List Nat) (u : State) : (l.foldl State.rewrite u).withErrors o = u.withErrors o := by
    induction l generalizing u with
    | nil => rfl
    | cons k l ih => rw [List.foldl_cons, ih, State.withErrors_rewrite]
  unfold State.merged
  split
  · rfl
  · dsimp only
    rw [fold]
    rfl

/-- So does a store of whole bytes. -/
theorem State.withErrors_overwritten (s o : State) (keys : List Nat) : (s.overwritten keys).withErrors o = s.withErrors o :=
  State.withErrors_merged s o keys keys

/-- With no error present and no poison a store leaves the errors alone. -/
theorem State.overwritten_clean {s : State} (keys : List Nat) (hp : s.poison = []) (hl : s.latent = []) : s.overwritten keys = s := by
  simp [State.overwritten, State.merged, hp, hl]

/-- With no error present and no poison a store changes its bytes only. -/
theorem State.write_clean {s : State} (l : List (Nat × Byte)) (hp : s.poison = []) (hl : s.latent = []) : s.write l = s.poke l :=
  State.overwritten_clean _ hp hl

/-- A store changes its bytes, and the errors that it meets. -/
theorem State.withErrors_write (s : State) (l : List (Nat × Byte)) : (s.write l).withErrors s = s.poke l := State.withErrors_overwritten _ _ _


/-! ## write -/

@[simp] theorem State.threads_write (s : State) (l : List (Nat × Byte)) : (s.write l).threads = s.threads := by
  have h := congrArg State.threads (State.withErrors_write s l); exact h
@[simp] theorem State.cur_write (s : State) (l : List (Nat × Byte)) : (s.write l).cur = s.cur := by
  have h := congrArg State.cur (State.withErrors_write s l); exact h
@[simp] theorem State.agenda_write (s : State) (l : List (Nat × Byte)) : (s.write l).agenda = s.agenda := by
  have h := congrArg State.agenda (State.withErrors_write s l); exact h
@[simp] theorem State.dev_write (s : State) (l : List (Nat × Byte)) : (s.write l).dev = s.dev := by
  have h := congrArg State.dev (State.withErrors_write s l); exact h
@[simp] theorem State.dtime_write (s : State) (l : List (Nat × Byte)) : (s.write l).dtime = s.dtime := by
  have h := congrArg State.dtime (State.withErrors_write s l); exact h
@[simp] theorem State.dtOffset_write (s : State) (l : List (Nat × Byte)) : (s.write l).dtOffset = s.dtOffset := by
  have h := congrArg State.dtOffset (State.withErrors_write s l); exact h
@[simp] theorem State.fresh_write (s : State) (l : List (Nat × Byte)) : (s.write l).fresh = s.fresh := by
  have h := congrArg State.fresh (State.withErrors_write s l); exact h
@[simp] theorem State.win_write (s : State) (l : List (Nat × Byte)) : (s.write l).win = s.win := by
  have h := congrArg State.win (State.withErrors_write s l); exact h
@[simp] theorem State.retired_write (s : State) (l : List (Nat × Byte)) : (s.write l).retired = s.retired := by
  have h := congrArg State.retired (State.withErrors_write s l); exact h
@[simp] theorem State.tlb_write (s : State) (l : List (Nat × Byte)) : (s.write l).tlb = s.tlb := by
  have h := congrArg State.tlb (State.withErrors_write s l); exact h
@[simp] theorem State.dcache_write (s : State) (l : List (Nat × Byte)) : (s.write l).dcache = s.dcache := by
  have h := congrArg State.dcache (State.withErrors_write s l); exact h
@[simp] theorem State.icache_write (s : State) (l : List (Nat × Byte)) : (s.write l).icache = s.icache := by
  have h := congrArg State.icache (State.withErrors_write s l); exact h
@[simp] theorem State.swaps_write (s : State) (l : List (Nat × Byte)) : (s.write l).swaps = s.swaps := by
  have h := congrArg State.swaps (State.withErrors_write s l); exact h
@[simp] theorem State.packets_write (s : State) (l : List (Nat × Byte)) : (s.write l).packets = s.packets := by
  have h := congrArg State.packets (State.withErrors_write s l); exact h
@[simp] theorem State.spans_write (s : State) (l : List (Nat × Byte)) : (s.write l).spans = s.spans := by
  have h := congrArg State.spans (State.withErrors_write s l); exact h
@[simp] theorem State.heldRemote_write (s : State) (l : List (Nat × Byte)) : (s.write l).heldRemote = s.heldRemote := by
  have h := congrArg State.heldRemote (State.withErrors_write s l); exact h
@[simp] theorem State.ports_write (s : State) (l : List (Nat × Byte)) : (s.write l).ports = s.ports := by
  have h := congrArg State.ports (State.withErrors_write s l); exact h
@[simp] theorem State.passes_write (s : State) (l : List (Nat × Byte)) : (s.write l).passes = s.passes := by
  have h := congrArg State.passes (State.withErrors_write s l); exact h
@[simp] theorem State.factHolder_write (s : State) (l : List (Nat × Byte)) : (s.write l).factHolder = s.factHolder := by
  have h := congrArg State.factHolder (State.withErrors_write s l); exact h
@[simp] theorem State.vaultOwner_write (s : State) (l : List (Nat × Byte)) : (s.write l).vaultOwner = s.vaultOwner := by
  have h := congrArg State.vaultOwner (State.withErrors_write s l); exact h
@[simp] theorem State.contexts_write (s : State) (l : List (Nat × Byte)) : (s.write l).contexts = s.contexts := by
  have h := congrArg State.contexts (State.withErrors_write s l); exact h
@[simp] theorem State.kernels_write (s : State) (l : List (Nat × Byte)) : (s.write l).kernels = s.kernels := by
  have h := congrArg State.kernels (State.withErrors_write s l); exact h
@[simp] theorem State.queues_write (s : State) (l : List (Nat × Byte)) : (s.write l).queues = s.queues := by
  have h := congrArg State.queues (State.withErrors_write s l); exact h
@[simp] theorem State.launches_write (s : State) (l : List (Nat × Byte)) : (s.write l).launches = s.launches := by
  have h := congrArg State.launches (State.withErrors_write s l); exact h
@[simp] theorem State.saved_write (s : State) (l : List (Nat × Byte)) : (s.write l).saved = s.saved := by
  have h := congrArg State.saved (State.withErrors_write s l); exact h
@[simp] theorem State.gov_write (s : State) (l : List (Nat × Byte)) : (s.write l).gov = s.gov := by
  have h := congrArg State.gov (State.withErrors_write s l); exact h
@[simp] theorem State.homes_write (s : State) (l : List (Nat × Byte)) : (s.write l).homes = s.homes := by
  have h := congrArg State.homes (State.withErrors_write s l); exact h
@[simp] theorem State.leaders_write (s : State) (l : List (Nat × Byte)) : (s.write l).leaders = s.leaders := by
  have h := congrArg State.leaders (State.withErrors_write s l); exact h
@[simp] theorem State.releases_write (s : State) (l : List (Nat × Byte)) : (s.write l).releases = s.releases := by
  have h := congrArg State.releases (State.withErrors_write s l); exact h
@[simp] theorem State.pushes_write (s : State) (l : List (Nat × Byte)) : (s.write l).pushes = s.pushes := by
  have h := congrArg State.pushes (State.withErrors_write s l); exact h
@[simp] theorem State.gone_write (s : State) (l : List (Nat × Byte)) : (s.write l).gone = s.gone := by
  have h := congrArg State.gone (State.withErrors_write s l); exact h
@[simp] theorem State.collRuns_write (s : State) (l : List (Nat × Byte)) : (s.write l).collRuns = s.collRuns := by
  have h := congrArg State.collRuns (State.withErrors_write s l); exact h
@[simp] theorem State.ghosts_write (s : State) (l : List (Nat × Byte)) : (s.write l).ghosts = s.ghosts := by
  have h := congrArg State.ghosts (State.withErrors_write s l); exact h
@[simp] theorem State.imposers_write (s : State) (l : List (Nat × Byte)) : (s.write l).imposers = s.imposers := by
  have h := congrArg State.imposers (State.withErrors_write s l); exact h
@[simp] theorem State.xgens_write (s : State) (l : List (Nat × Byte)) : (s.write l).xgens = s.xgens := by
  have h := congrArg State.xgens (State.withErrors_write s l); exact h
@[simp] theorem State.early_write (s : State) (l : List (Nat × Byte)) : (s.write l).early = s.early := by
  have h := congrArg State.early (State.withErrors_write s l); exact h
@[simp] theorem State.outbox_write (s : State) (l : List (Nat × Byte)) : (s.write l).outbox = s.outbox := by
  have h := congrArg State.outbox (State.withErrors_write s l); exact h
@[simp] theorem State.late_write (s : State) (l : List (Nat × Byte)) : (s.write l).late = s.late := by
  have h := congrArg State.late (State.withErrors_write s l); exact h
@[simp] theorem State.dead_write (s : State) (l : List (Nat × Byte)) : (s.write l).dead = s.dead := by
  have h := congrArg State.dead (State.withErrors_write s l); exact h
@[simp] theorem State.pkg_write (s : State) (l : List (Nat × Byte)) : (s.write l).pkg = s.pkg := by
  have h := congrArg State.pkg (State.withErrors_write s l); exact h
@[simp] theorem State.tsvSpares_write (s : State) (l : List (Nat × Byte)) : (s.write l).tsvSpares = s.tsvSpares := by
  have h := congrArg State.tsvSpares (State.withErrors_write s l); exact h
@[simp] theorem State.bondSpares_write (s : State) (l : List (Nat × Byte)) : (s.write l).bondSpares = s.bondSpares := by
  have h := congrArg State.bondSpares (State.withErrors_write s l); exact h
@[simp] theorem State.streamTurns_write (s : State) (l : List (Nat × Byte)) : (s.write l).streamTurns = s.streamTurns := by
  have h := congrArg State.streamTurns (State.withErrors_write s l); exact h
@[simp] theorem State.lateralBanks_write (s : State) (l : List (Nat × Byte)) : (s.write l).lateralBanks = s.lateralBanks := by
  have h := congrArg State.lateralBanks (State.withErrors_write s l); exact h
@[simp] theorem State.remapErrors_write (s : State) (l : List (Nat × Byte)) : (s.write l).remapErrors = s.remapErrors := by
  have h := congrArg State.remapErrors (State.withErrors_write s l); exact h
@[simp] theorem State.remapWalks_write (s : State) (l : List (Nat × Byte)) : (s.write l).remapWalks = s.remapWalks := by
  have h := congrArg State.remapWalks (State.withErrors_write s l); exact h

/-! ## wr -/

@[simp] theorem LCore.job_wr (c : LCore) (r : Reg) (x : Word) : (c.wr r x).job = c.job := by unfold LCore.wr; split <;> rfl
@[simp] theorem LCore.folio_wr (c : LCore) (r : Reg) (x : Word) : (c.wr r x).folio = c.folio := by unfold LCore.wr; split <;> rfl
@[simp] theorem LCore.folioEnd_wr (c : LCore) (r : Reg) (x : Word) : (c.wr r x).folioEnd = c.folioEnd := by unfold LCore.wr; split <;> rfl
@[simp] theorem LCore.pc_wr (c : LCore) (r : Reg) (x : Word) : (c.wr r x).pc = c.pc := by unfold LCore.wr; split <;> rfl
@[simp] theorem LCore.level_wr (c : LCore) (r : Reg) (x : Word) : (c.wr r x).level = c.level := by unfold LCore.wr; split <;> rfl
@[simp] theorem LCore.v_wr (c : LCore) (r : Reg) (x : Word) : (c.wr r x).v = c.v := by unfold LCore.wr; split <;> rfl
@[simp] theorem LCore.k_wr (c : LCore) (r : Reg) (x : Word) : (c.wr r x).k = c.k := by unfold LCore.wr; split <;> rfl
@[simp] theorem LCore.ksm_wr (c : LCore) (r : Reg) (x : Word) : (c.wr r x).ksm = c.ksm := by unfold LCore.wr; split <;> rfl
@[simp] theorem LCore.vext_wr (c : LCore) (r : Reg) (x : Word) : (c.wr r x).vext = c.vext := by unfold LCore.wr; split <;> rfl
@[simp] theorem LCore.kext_wr (c : LCore) (r : Reg) (x : Word) : (c.wr r x).kext = c.kext := by unfold LCore.wr; split <;> rfl
@[simp] theorem LCore.vl_wr (c : LCore) (r : Reg) (x : Word) : (c.wr r x).vl = c.vl := by unfold LCore.wr; split <;> rfl
@[simp] theorem LCore.vtype_wr (c : LCore) (r : Reg) (x : Word) : (c.wr r x).vtype = c.vtype := by unfold LCore.wr; split <;> rfl
@[simp] theorem LCore.vstart_wr (c : LCore) (r : Reg) (x : Word) : (c.wr r x).vstart = c.vstart := by unfold LCore.wr; split <;> rfl
@[simp] theorem LCore.satk_wr (c : LCore) (r : Reg) (x : Word) : (c.wr r x).satk = c.satk := by unfold LCore.wr; split <;> rfl
@[simp] theorem LCore.frm_wr (c : LCore) (r : Reg) (x : Word) : (c.wr r x).frm = c.frm := by unfold LCore.wr; split <;> rfl
@[simp] theorem LCore.fflags_wr (c : LCore) (r : Reg) (x : Word) : (c.wr r x).fflags = c.fflags := by unfold LCore.wr; split <;> rfl
@[simp] theorem LCore.cgrp_wr (c : LCore) (r : Reg) (x : Word) : (c.wr r x).cgrp = c.cgrp := by unfold LCore.wr; split <;> rfl
@[simp] theorem LCore.cop_wr (c : LCore) (r : Reg) (x : Word) : (c.wr r x).cop = c.cop := by unfold LCore.wr; split <;> rfl
@[simp] theorem LCore.cstr_wr (c : LCore) (r : Reg) (x : Word) : (c.wr r x).cstr = c.cstr := by unfold LCore.wr; split <;> rfl
@[simp] theorem LCore.cdl_wr (c : LCore) (r : Reg) (x : Word) : (c.wr r x).cdl = c.cdl := by unfold LCore.wr; split <;> rfl
@[simp] theorem LCore.cmapb_wr (c : LCore) (r : Reg) (x : Word) : (c.wr r x).cmapb = c.cmapb := by unfold LCore.wr; split <;> rfl
@[simp] theorem LCore.ccnt_wr (c : LCore) (r : Reg) (x : Word) : (c.wr r x).ccnt = c.ccnt := by unfold LCore.wr; split <;> rfl
@[simp] theorem LCore.coll_wr (c : LCore) (r : Reg) (x : Word) : (c.wr r x).coll = c.coll := by unfold LCore.wr; split <;> rfl
@[simp] theorem LCore.hvw_wr (c : LCore) (r : Reg) (x : Word) : (c.wr r x).hvw = c.hvw := by unfold LCore.wr; split <;> rfl
@[simp] theorem LCore.caseb_wr (c : LCore) (r : Reg) (x : Word) : (c.wr r x).caseb = c.caseb := by unfold LCore.wr; split <;> rfl
@[simp] theorem LCore.casen_wr (c : LCore) (r : Reg) (x : Word) : (c.wr r x).casen = c.casen := by unfold LCore.wr; split <;> rfl
@[simp] theorem LCore.hvcap_wr (c : LCore) (r : Reg) (x : Word) : (c.wr r x).hvcap = c.hvcap := by unfold LCore.wr; split <;> rfl
@[simp] theorem LCore.hvn_wr (c : LCore) (r : Reg) (x : Word) : (c.wr r x).hvn = c.hvn := by unfold LCore.wr; split <;> rfl
@[simp] theorem LCore.hvdist_wr (c : LCore) (r : Reg) (x : Word) : (c.wr r x).hvdist = c.hvdist := by unfold LCore.wr; split <;> rfl
@[simp] theorem LCore.hvnext_wr (c : LCore) (r : Reg) (x : Word) : (c.wr r x).hvnext = c.hvnext := by unfold LCore.wr; split <;> rfl
@[simp] theorem LCore.hvout_wr (c : LCore) (r : Reg) (x : Word) : (c.wr r x).hvout = c.hvout := by unfold LCore.wr; split <;> rfl
@[simp] theorem LCore.hvmth_wr (c : LCore) (r : Reg) (x : Word) : (c.wr r x).hvmth = c.hvmth := by unfold LCore.wr; split <;> rfl
@[simp] theorem LCore.hvitl_wr (c : LCore) (r : Reg) (x : Word) : (c.wr r x).hvitl = c.hvitl := by unfold LCore.wr; split <;> rfl
@[simp] theorem LCore.hvseed_wr (c : LCore) (r : Reg) (x : Word) : (c.wr r x).hvseed = c.hvseed := by unfold LCore.wr; split <;> rfl
@[simp] theorem LCore.hvpart_wr (c : LCore) (r : Reg) (x : Word) : (c.wr r x).hvpart = c.hvpart := by unfold LCore.wr; split <;> rfl
@[simp] theorem LCore.hvfth_wr (c : LCore) (r : Reg) (x : Word) : (c.wr r x).hvfth = c.hvfth := by unfold LCore.wr; split <;> rfl
@[simp] theorem LCore.hvstw_wr (c : LCore) (r : Reg) (x : Word) : (c.wr r x).hvstw = c.hvstw := by unfold LCore.wr; split <;> rfl
@[simp] theorem LCore.skcfg_wr (c : LCore) (r : Reg) (x : Word) : (c.wr r x).skcfg = c.skcfg := by unfold LCore.wr; split <;> rfl
@[simp] theorem LCore.sktol_wr (c : LCore) (r : Reg) (x : Word) : (c.wr r x).sktol = c.sktol := by unfold LCore.wr; split <;> rfl
@[simp] theorem LCore.skflr_wr (c : LCore) (r : Reg) (x : Word) : (c.wr r x).skflr = c.skflr := by unfold LCore.wr; split <;> rfl
@[simp] theorem LCore.skwin_wr (c : LCore) (r : Reg) (x : Word) : (c.wr r x).skwin = c.skwin := by unfold LCore.wr; split <;> rfl
@[simp] theorem LCore.skcnt_wr (c : LCore) (r : Reg) (x : Word) : (c.wr r x).skcnt = c.skcnt := by unfold LCore.wr; split <;> rfl
@[simp] theorem LCore.stick_wr (c : LCore) (r : Reg) (x : Word) : (c.wr r x).stick = c.stick := by unfold LCore.wr; split <;> rfl
@[simp] theorem LCore.attach_wr (c : LCore) (r : Reg) (x : Word) : (c.wr r x).attach = c.attach := by unfold LCore.wr; split <;> rfl
@[simp] theorem LCore.tvec_wr (c : LCore) (r : Reg) (x : Word) : (c.wr r x).tvec = c.tvec := by unfold LCore.wr; split <;> rfl
@[simp] theorem LCore.tpc_wr (c : LCore) (r : Reg) (x : Word) : (c.wr r x).tpc = c.tpc := by unfold LCore.wr; split <;> rfl
@[simp] theorem LCore.tcause_wr (c : LCore) (r : Reg) (x : Word) : (c.wr r x).tcause = c.tcause := by unfold LCore.wr; split <;> rfl
@[simp] theorem LCore.tval_wr (c : LCore) (r : Reg) (x : Word) : (c.wr r x).tval = c.tval := by unfold LCore.wr; split <;> rfl
@[simp] theorem LCore.wphase_wr (c : LCore) (r : Reg) (x : Word) : (c.wr r x).wphase = c.wphase := by unfold LCore.wr; split <;> rfl
@[simp] theorem LCore.bwp_wr (c : LCore) (r : Reg) (x : Word) : (c.wr r x).bwp = c.bwp := by unfold LCore.wr; split <;> rfl
@[simp] theorem LCore.evf_wr (c : LCore) (r : Reg) (x : Word) : (c.wr r x).evf = c.evf := by unfold LCore.wr; split <;> rfl
@[simp] theorem LCore.pprv_wr (c : LCore) (r : Reg) (x : Word) : (c.wr r x).pprv = c.pprv := by unfold LCore.wr; split <;> rfl
@[simp] theorem LCore.tact_wr (c : LCore) (r : Reg) (x : Word) : (c.wr r x).tact = c.tact := by unfold LCore.wr; split <;> rfl
@[simp] theorem LCore.atRtvec_wr (c : LCore) (r : Reg) (x : Word) : (c.wr r x).atRtvec = c.atRtvec := by unfold LCore.wr; split <;> rfl
@[simp] theorem LCore.xbase_wr (c : LCore) (r : Reg) (x : Word) : (c.wr r x).xbase = c.xbase := by unfold LCore.wr; split <;> rfl
@[simp] theorem LCore.xgen_wr (c : LCore) (r : Reg) (x : Word) : (c.wr r x).xgen = c.xgen := by unfold LCore.wr; split <;> rfl
@[simp] theorem LCore.xchs_wr (c : LCore) (r : Reg) (x : Word) : (c.wr r x).xchs = c.xchs := by unfold LCore.wr; split <;> rfl
@[simp] theorem LCore.barriers_wr (c : LCore) (r : Reg) (x : Word) : (c.wr r x).barriers = c.barriers := by unfold LCore.wr; split <;> rfl
@[simp] theorem LCore.oldVals_wr (c : LCore) (r : Reg) (x : Word) : (c.wr r x).oldVals = c.oldVals := by unfold LCore.wr; split <;> rfl
@[simp] theorem LCore.unseen_wr (c : LCore) (r : Reg) (x : Word) : (c.wr r x).unseen = c.unseen := by unfold LCore.wr; split <;> rfl
@[simp] theorem LCore.displaced_wr (c : LCore) (r : Reg) (x : Word) : (c.wr r x).displaced = c.displaced := by unfold LCore.wr; split <;> rfl
@[simp] theorem LCore.waitFor_wr (c : LCore) (r : Reg) (x : Word) : (c.wr r x).waitFor = c.waitFor := by unfold LCore.wr; split <;> rfl
@[simp] theorem LCore.unreachMark_wr (c : LCore) (r : Reg) (x : Word) : (c.wr r x).unreachMark = c.unreachMark := by unfold LCore.wr; split <;> rfl
@[simp] theorem LCore.barw_wr (c : LCore) (r : Reg) (x : Word) : (c.wr r x).barw = c.barw := by unfold LCore.wr; split <;> rfl
@[simp] theorem LCore.placed_wr (c : LCore) (r : Reg) (x : Word) : (c.wr r x).placed = c.placed := by unfold LCore.wr; split <;> rfl
@[simp] theorem LCore.placedAt_wr (c : LCore) (r : Reg) (x : Word) : (c.wr r x).placedAt = c.placedAt := by unfold LCore.wr; split <;> rfl

/-! ## advance -/

@[simp] theorem LCore.job_advance (c : LCore) : (c.advance).job = c.job := rfl
@[simp] theorem LCore.folio_advance (c : LCore) : (c.advance).folio = c.folio := rfl
@[simp] theorem LCore.folioEnd_advance (c : LCore) : (c.advance).folioEnd = c.folioEnd := rfl
@[simp] theorem LCore.level_advance (c : LCore) : (c.advance).level = c.level := rfl
@[simp] theorem LCore.g_advance (c : LCore) : (c.advance).g = c.g := rfl
@[simp] theorem LCore.v_advance (c : LCore) : (c.advance).v = c.v := rfl
@[simp] theorem LCore.k_advance (c : LCore) : (c.advance).k = c.k := rfl
@[simp] theorem LCore.ksm_advance (c : LCore) : (c.advance).ksm = c.ksm := rfl
@[simp] theorem LCore.vext_advance (c : LCore) : (c.advance).vext = c.vext := rfl
@[simp] theorem LCore.kext_advance (c : LCore) : (c.advance).kext = c.kext := rfl
@[simp] theorem LCore.vl_advance (c : LCore) : (c.advance).vl = c.vl := rfl
@[simp] theorem LCore.vtype_advance (c : LCore) : (c.advance).vtype = c.vtype := rfl
@[simp] theorem LCore.vstart_advance (c : LCore) : (c.advance).vstart = c.vstart := rfl
@[simp] theorem LCore.satk_advance (c : LCore) : (c.advance).satk = c.satk := rfl
@[simp] theorem LCore.frm_advance (c : LCore) : (c.advance).frm = c.frm := rfl
@[simp] theorem LCore.fflags_advance (c : LCore) : (c.advance).fflags = c.fflags := rfl
@[simp] theorem LCore.cgrp_advance (c : LCore) : (c.advance).cgrp = c.cgrp := rfl
@[simp] theorem LCore.cop_advance (c : LCore) : (c.advance).cop = c.cop := rfl
@[simp] theorem LCore.cstr_advance (c : LCore) : (c.advance).cstr = c.cstr := rfl
@[simp] theorem LCore.cdl_advance (c : LCore) : (c.advance).cdl = c.cdl := rfl
@[simp] theorem LCore.cmapb_advance (c : LCore) : (c.advance).cmapb = c.cmapb := rfl
@[simp] theorem LCore.ccnt_advance (c : LCore) : (c.advance).ccnt = c.ccnt := rfl
@[simp] theorem LCore.coll_advance (c : LCore) : (c.advance).coll = c.coll := rfl
@[simp] theorem LCore.hvw_advance (c : LCore) : (c.advance).hvw = c.hvw := rfl
@[simp] theorem LCore.caseb_advance (c : LCore) : (c.advance).caseb = c.caseb := rfl
@[simp] theorem LCore.casen_advance (c : LCore) : (c.advance).casen = c.casen := rfl
@[simp] theorem LCore.hvcap_advance (c : LCore) : (c.advance).hvcap = c.hvcap := rfl
@[simp] theorem LCore.hvn_advance (c : LCore) : (c.advance).hvn = c.hvn := rfl
@[simp] theorem LCore.hvdist_advance (c : LCore) : (c.advance).hvdist = c.hvdist := rfl
@[simp] theorem LCore.hvnext_advance (c : LCore) : (c.advance).hvnext = c.hvnext := rfl
@[simp] theorem LCore.hvout_advance (c : LCore) : (c.advance).hvout = c.hvout := rfl
@[simp] theorem LCore.hvmth_advance (c : LCore) : (c.advance).hvmth = c.hvmth := rfl
@[simp] theorem LCore.hvitl_advance (c : LCore) : (c.advance).hvitl = c.hvitl := rfl
@[simp] theorem LCore.hvseed_advance (c : LCore) : (c.advance).hvseed = c.hvseed := rfl
@[simp] theorem LCore.hvpart_advance (c : LCore) : (c.advance).hvpart = c.hvpart := rfl
@[simp] theorem LCore.hvfth_advance (c : LCore) : (c.advance).hvfth = c.hvfth := rfl
@[simp] theorem LCore.hvstw_advance (c : LCore) : (c.advance).hvstw = c.hvstw := rfl
@[simp] theorem LCore.skcfg_advance (c : LCore) : (c.advance).skcfg = c.skcfg := rfl
@[simp] theorem LCore.sktol_advance (c : LCore) : (c.advance).sktol = c.sktol := rfl
@[simp] theorem LCore.skflr_advance (c : LCore) : (c.advance).skflr = c.skflr := rfl
@[simp] theorem LCore.skwin_advance (c : LCore) : (c.advance).skwin = c.skwin := rfl
@[simp] theorem LCore.skcnt_advance (c : LCore) : (c.advance).skcnt = c.skcnt := rfl
@[simp] theorem LCore.stick_advance (c : LCore) : (c.advance).stick = c.stick := rfl
@[simp] theorem LCore.attach_advance (c : LCore) : (c.advance).attach = c.attach := rfl
@[simp] theorem LCore.tvec_advance (c : LCore) : (c.advance).tvec = c.tvec := rfl
@[simp] theorem LCore.tpc_advance (c : LCore) : (c.advance).tpc = c.tpc := rfl
@[simp] theorem LCore.tcause_advance (c : LCore) : (c.advance).tcause = c.tcause := rfl
@[simp] theorem LCore.tval_advance (c : LCore) : (c.advance).tval = c.tval := rfl
@[simp] theorem LCore.wphase_advance (c : LCore) : (c.advance).wphase = c.wphase := rfl
@[simp] theorem LCore.bwp_advance (c : LCore) : (c.advance).bwp = c.bwp := rfl
@[simp] theorem LCore.evf_advance (c : LCore) : (c.advance).evf = c.evf := rfl
@[simp] theorem LCore.pprv_advance (c : LCore) : (c.advance).pprv = c.pprv := rfl
@[simp] theorem LCore.tact_advance (c : LCore) : (c.advance).tact = c.tact := rfl
@[simp] theorem LCore.atRtvec_advance (c : LCore) : (c.advance).atRtvec = c.atRtvec := rfl
@[simp] theorem LCore.xbase_advance (c : LCore) : (c.advance).xbase = c.xbase := rfl
@[simp] theorem LCore.xgen_advance (c : LCore) : (c.advance).xgen = c.xgen := rfl
@[simp] theorem LCore.xchs_advance (c : LCore) : (c.advance).xchs = c.xchs := rfl
@[simp] theorem LCore.barriers_advance (c : LCore) : (c.advance).barriers = c.barriers := rfl
@[simp] theorem LCore.oldVals_advance (c : LCore) : (c.advance).oldVals = c.oldVals := rfl
@[simp] theorem LCore.unseen_advance (c : LCore) : (c.advance).unseen = c.unseen := rfl
@[simp] theorem LCore.displaced_advance (c : LCore) : (c.advance).displaced = c.displaced := rfl
@[simp] theorem LCore.waitFor_advance (c : LCore) : (c.advance).waitFor = c.waitFor := rfl
@[simp] theorem LCore.unreachMark_advance (c : LCore) : (c.advance).unreachMark = c.unreachMark := rfl
@[simp] theorem LCore.barw_advance (c : LCore) : (c.advance).barw = c.barw := rfl
@[simp] theorem LCore.placed_advance (c : LCore) : (c.advance).placed = c.placed := rfl
@[simp] theorem LCore.placedAt_advance (c : LCore) : (c.advance).placedAt = c.placedAt := rfl

/-! ## raise -/

@[simp] theorem LCore.job_raise (c : LCore) (f : BitVec 5) : (c.raise f).job = c.job := rfl
@[simp] theorem LCore.folio_raise (c : LCore) (f : BitVec 5) : (c.raise f).folio = c.folio := rfl
@[simp] theorem LCore.folioEnd_raise (c : LCore) (f : BitVec 5) : (c.raise f).folioEnd = c.folioEnd := rfl
@[simp] theorem LCore.pc_raise (c : LCore) (f : BitVec 5) : (c.raise f).pc = c.pc := rfl
@[simp] theorem LCore.level_raise (c : LCore) (f : BitVec 5) : (c.raise f).level = c.level := rfl
@[simp] theorem LCore.g_raise (c : LCore) (f : BitVec 5) : (c.raise f).g = c.g := rfl
@[simp] theorem LCore.v_raise (c : LCore) (f : BitVec 5) : (c.raise f).v = c.v := rfl
@[simp] theorem LCore.k_raise (c : LCore) (f : BitVec 5) : (c.raise f).k = c.k := rfl
@[simp] theorem LCore.ksm_raise (c : LCore) (f : BitVec 5) : (c.raise f).ksm = c.ksm := rfl
@[simp] theorem LCore.vext_raise (c : LCore) (f : BitVec 5) : (c.raise f).vext = c.vext := rfl
@[simp] theorem LCore.kext_raise (c : LCore) (f : BitVec 5) : (c.raise f).kext = c.kext := rfl
@[simp] theorem LCore.vl_raise (c : LCore) (f : BitVec 5) : (c.raise f).vl = c.vl := rfl
@[simp] theorem LCore.vtype_raise (c : LCore) (f : BitVec 5) : (c.raise f).vtype = c.vtype := rfl
@[simp] theorem LCore.vstart_raise (c : LCore) (f : BitVec 5) : (c.raise f).vstart = c.vstart := rfl
@[simp] theorem LCore.satk_raise (c : LCore) (f : BitVec 5) : (c.raise f).satk = c.satk := rfl
@[simp] theorem LCore.frm_raise (c : LCore) (f : BitVec 5) : (c.raise f).frm = c.frm := rfl
@[simp] theorem LCore.cgrp_raise (c : LCore) (f : BitVec 5) : (c.raise f).cgrp = c.cgrp := rfl
@[simp] theorem LCore.cop_raise (c : LCore) (f : BitVec 5) : (c.raise f).cop = c.cop := rfl
@[simp] theorem LCore.cstr_raise (c : LCore) (f : BitVec 5) : (c.raise f).cstr = c.cstr := rfl
@[simp] theorem LCore.cdl_raise (c : LCore) (f : BitVec 5) : (c.raise f).cdl = c.cdl := rfl
@[simp] theorem LCore.cmapb_raise (c : LCore) (f : BitVec 5) : (c.raise f).cmapb = c.cmapb := rfl
@[simp] theorem LCore.ccnt_raise (c : LCore) (f : BitVec 5) : (c.raise f).ccnt = c.ccnt := rfl
@[simp] theorem LCore.coll_raise (c : LCore) (f : BitVec 5) : (c.raise f).coll = c.coll := rfl
@[simp] theorem LCore.hvw_raise (c : LCore) (f : BitVec 5) : (c.raise f).hvw = c.hvw := rfl
@[simp] theorem LCore.caseb_raise (c : LCore) (f : BitVec 5) : (c.raise f).caseb = c.caseb := rfl
@[simp] theorem LCore.casen_raise (c : LCore) (f : BitVec 5) : (c.raise f).casen = c.casen := rfl
@[simp] theorem LCore.hvcap_raise (c : LCore) (f : BitVec 5) : (c.raise f).hvcap = c.hvcap := rfl
@[simp] theorem LCore.hvn_raise (c : LCore) (f : BitVec 5) : (c.raise f).hvn = c.hvn := rfl
@[simp] theorem LCore.hvdist_raise (c : LCore) (f : BitVec 5) : (c.raise f).hvdist = c.hvdist := rfl
@[simp] theorem LCore.hvnext_raise (c : LCore) (f : BitVec 5) : (c.raise f).hvnext = c.hvnext := rfl
@[simp] theorem LCore.hvout_raise (c : LCore) (f : BitVec 5) : (c.raise f).hvout = c.hvout := rfl
@[simp] theorem LCore.hvmth_raise (c : LCore) (f : BitVec 5) : (c.raise f).hvmth = c.hvmth := rfl
@[simp] theorem LCore.hvitl_raise (c : LCore) (f : BitVec 5) : (c.raise f).hvitl = c.hvitl := rfl
@[simp] theorem LCore.hvseed_raise (c : LCore) (f : BitVec 5) : (c.raise f).hvseed = c.hvseed := rfl
@[simp] theorem LCore.hvpart_raise (c : LCore) (f : BitVec 5) : (c.raise f).hvpart = c.hvpart := rfl
@[simp] theorem LCore.hvfth_raise (c : LCore) (f : BitVec 5) : (c.raise f).hvfth = c.hvfth := rfl
@[simp] theorem LCore.hvstw_raise (c : LCore) (f : BitVec 5) : (c.raise f).hvstw = c.hvstw := rfl
@[simp] theorem LCore.skcfg_raise (c : LCore) (f : BitVec 5) : (c.raise f).skcfg = c.skcfg := rfl
@[simp] theorem LCore.sktol_raise (c : LCore) (f : BitVec 5) : (c.raise f).sktol = c.sktol := rfl
@[simp] theorem LCore.skflr_raise (c : LCore) (f : BitVec 5) : (c.raise f).skflr = c.skflr := rfl
@[simp] theorem LCore.skwin_raise (c : LCore) (f : BitVec 5) : (c.raise f).skwin = c.skwin := rfl
@[simp] theorem LCore.skcnt_raise (c : LCore) (f : BitVec 5) : (c.raise f).skcnt = c.skcnt := rfl
@[simp] theorem LCore.stick_raise (c : LCore) (f : BitVec 5) : (c.raise f).stick = c.stick := rfl
@[simp] theorem LCore.attach_raise (c : LCore) (f : BitVec 5) : (c.raise f).attach = c.attach := rfl
@[simp] theorem LCore.tvec_raise (c : LCore) (f : BitVec 5) : (c.raise f).tvec = c.tvec := rfl
@[simp] theorem LCore.tpc_raise (c : LCore) (f : BitVec 5) : (c.raise f).tpc = c.tpc := rfl
@[simp] theorem LCore.tcause_raise (c : LCore) (f : BitVec 5) : (c.raise f).tcause = c.tcause := rfl
@[simp] theorem LCore.tval_raise (c : LCore) (f : BitVec 5) : (c.raise f).tval = c.tval := rfl
@[simp] theorem LCore.wphase_raise (c : LCore) (f : BitVec 5) : (c.raise f).wphase = c.wphase := rfl
@[simp] theorem LCore.bwp_raise (c : LCore) (f : BitVec 5) : (c.raise f).bwp = c.bwp := rfl
@[simp] theorem LCore.evf_raise (c : LCore) (f : BitVec 5) : (c.raise f).evf = c.evf := rfl
@[simp] theorem LCore.pprv_raise (c : LCore) (f : BitVec 5) : (c.raise f).pprv = c.pprv := rfl
@[simp] theorem LCore.tact_raise (c : LCore) (f : BitVec 5) : (c.raise f).tact = c.tact := rfl
@[simp] theorem LCore.atRtvec_raise (c : LCore) (f : BitVec 5) : (c.raise f).atRtvec = c.atRtvec := rfl
@[simp] theorem LCore.xbase_raise (c : LCore) (f : BitVec 5) : (c.raise f).xbase = c.xbase := rfl
@[simp] theorem LCore.xgen_raise (c : LCore) (f : BitVec 5) : (c.raise f).xgen = c.xgen := rfl
@[simp] theorem LCore.xchs_raise (c : LCore) (f : BitVec 5) : (c.raise f).xchs = c.xchs := rfl
@[simp] theorem LCore.barriers_raise (c : LCore) (f : BitVec 5) : (c.raise f).barriers = c.barriers := rfl
@[simp] theorem LCore.oldVals_raise (c : LCore) (f : BitVec 5) : (c.raise f).oldVals = c.oldVals := rfl
@[simp] theorem LCore.unseen_raise (c : LCore) (f : BitVec 5) : (c.raise f).unseen = c.unseen := rfl
@[simp] theorem LCore.displaced_raise (c : LCore) (f : BitVec 5) : (c.raise f).displaced = c.displaced := rfl
@[simp] theorem LCore.waitFor_raise (c : LCore) (f : BitVec 5) : (c.raise f).waitFor = c.waitFor := rfl
@[simp] theorem LCore.unreachMark_raise (c : LCore) (f : BitVec 5) : (c.raise f).unreachMark = c.unreachMark := rfl
@[simp] theorem LCore.barw_raise (c : LCore) (f : BitVec 5) : (c.raise f).barw = c.barw := rfl
@[simp] theorem LCore.placed_raise (c : LCore) (f : BitVec 5) : (c.raise f).placed = c.placed := rfl
@[simp] theorem LCore.placedAt_raise (c : LCore) (f : BitVec 5) : (c.raise f).placedAt = c.placedAt := rfl

/-! ## setVreg -/

@[simp] theorem LCore.job_setVreg (c : LCore) (n : Nat) (x : VReg) (k : Nat) : (c.setVreg n x k).job = c.job := by unfold LCore.setVreg; split <;> rfl
@[simp] theorem LCore.folio_setVreg (c : LCore) (n : Nat) (x : VReg) (k : Nat) : (c.setVreg n x k).folio = c.folio := by unfold LCore.setVreg; split <;> rfl
@[simp] theorem LCore.folioEnd_setVreg (c : LCore) (n : Nat) (x : VReg) (k : Nat) : (c.setVreg n x k).folioEnd = c.folioEnd := by unfold LCore.setVreg; split <;> rfl
@[simp] theorem LCore.pc_setVreg (c : LCore) (n : Nat) (x : VReg) (k : Nat) : (c.setVreg n x k).pc = c.pc := by unfold LCore.setVreg; split <;> rfl
@[simp] theorem LCore.level_setVreg (c : LCore) (n : Nat) (x : VReg) (k : Nat) : (c.setVreg n x k).level = c.level := by unfold LCore.setVreg; split <;> rfl
@[simp] theorem LCore.g_setVreg (c : LCore) (n : Nat) (x : VReg) (k : Nat) : (c.setVreg n x k).g = c.g := by unfold LCore.setVreg; split <;> rfl
@[simp] theorem LCore.k_setVreg (c : LCore) (n : Nat) (x : VReg) (k : Nat) : (c.setVreg n x k).k = c.k := by unfold LCore.setVreg; split <;> rfl
@[simp] theorem LCore.ksm_setVreg (c : LCore) (n : Nat) (x : VReg) (k : Nat) : (c.setVreg n x k).ksm = c.ksm := by unfold LCore.setVreg; split <;> rfl
@[simp] theorem LCore.kext_setVreg (c : LCore) (n : Nat) (x : VReg) (k : Nat) : (c.setVreg n x k).kext = c.kext := by unfold LCore.setVreg; split <;> rfl
@[simp] theorem LCore.vl_setVreg (c : LCore) (n : Nat) (x : VReg) (k : Nat) : (c.setVreg n x k).vl = c.vl := by unfold LCore.setVreg; split <;> rfl
@[simp] theorem LCore.vtype_setVreg (c : LCore) (n : Nat) (x : VReg) (k : Nat) : (c.setVreg n x k).vtype = c.vtype := by unfold LCore.setVreg; split <;> rfl
@[simp] theorem LCore.vstart_setVreg (c : LCore) (n : Nat) (x : VReg) (k : Nat) : (c.setVreg n x k).vstart = c.vstart := by unfold LCore.setVreg; split <;> rfl
@[simp] theorem LCore.satk_setVreg (c : LCore) (n : Nat) (x : VReg) (k : Nat) : (c.setVreg n x k).satk = c.satk := by unfold LCore.setVreg; split <;> rfl
@[simp] theorem LCore.frm_setVreg (c : LCore) (n : Nat) (x : VReg) (k : Nat) : (c.setVreg n x k).frm = c.frm := by unfold LCore.setVreg; split <;> rfl
@[simp] theorem LCore.fflags_setVreg (c : LCore) (n : Nat) (x : VReg) (k : Nat) : (c.setVreg n x k).fflags = c.fflags := by unfold LCore.setVreg; split <;> rfl
@[simp] theorem LCore.cgrp_setVreg (c : LCore) (n : Nat) (x : VReg) (k : Nat) : (c.setVreg n x k).cgrp = c.cgrp := by unfold LCore.setVreg; split <;> rfl
@[simp] theorem LCore.cop_setVreg (c : LCore) (n : Nat) (x : VReg) (k : Nat) : (c.setVreg n x k).cop = c.cop := by unfold LCore.setVreg; split <;> rfl
@[simp] theorem LCore.cstr_setVreg (c : LCore) (n : Nat) (x : VReg) (k : Nat) : (c.setVreg n x k).cstr = c.cstr := by unfold LCore.setVreg; split <;> rfl
@[simp] theorem LCore.cdl_setVreg (c : LCore) (n : Nat) (x : VReg) (k : Nat) : (c.setVreg n x k).cdl = c.cdl := by unfold LCore.setVreg; split <;> rfl
@[simp] theorem LCore.cmapb_setVreg (c : LCore) (n : Nat) (x : VReg) (k : Nat) : (c.setVreg n x k).cmapb = c.cmapb := by unfold LCore.setVreg; split <;> rfl
@[simp] theorem LCore.ccnt_setVreg (c : LCore) (n : Nat) (x : VReg) (k : Nat) : (c.setVreg n x k).ccnt = c.ccnt := by unfold LCore.setVreg; split <;> rfl
@[simp] theorem LCore.coll_setVreg (c : LCore) (n : Nat) (x : VReg) (k : Nat) : (c.setVreg n x k).coll = c.coll := by unfold LCore.setVreg; split <;> rfl
@[simp] theorem LCore.hvw_setVreg (c : LCore) (n : Nat) (x : VReg) (k : Nat) : (c.setVreg n x k).hvw = c.hvw := by unfold LCore.setVreg; split <;> rfl
@[simp] theorem LCore.caseb_setVreg (c : LCore) (n : Nat) (x : VReg) (k : Nat) : (c.setVreg n x k).caseb = c.caseb := by unfold LCore.setVreg; split <;> rfl
@[simp] theorem LCore.casen_setVreg (c : LCore) (n : Nat) (x : VReg) (k : Nat) : (c.setVreg n x k).casen = c.casen := by unfold LCore.setVreg; split <;> rfl
@[simp] theorem LCore.hvcap_setVreg (c : LCore) (n : Nat) (x : VReg) (k : Nat) : (c.setVreg n x k).hvcap = c.hvcap := by unfold LCore.setVreg; split <;> rfl
@[simp] theorem LCore.hvn_setVreg (c : LCore) (n : Nat) (x : VReg) (k : Nat) : (c.setVreg n x k).hvn = c.hvn := by unfold LCore.setVreg; split <;> rfl
@[simp] theorem LCore.hvdist_setVreg (c : LCore) (n : Nat) (x : VReg) (k : Nat) : (c.setVreg n x k).hvdist = c.hvdist := by unfold LCore.setVreg; split <;> rfl
@[simp] theorem LCore.hvnext_setVreg (c : LCore) (n : Nat) (x : VReg) (k : Nat) : (c.setVreg n x k).hvnext = c.hvnext := by unfold LCore.setVreg; split <;> rfl
@[simp] theorem LCore.hvout_setVreg (c : LCore) (n : Nat) (x : VReg) (k : Nat) : (c.setVreg n x k).hvout = c.hvout := by unfold LCore.setVreg; split <;> rfl
@[simp] theorem LCore.hvmth_setVreg (c : LCore) (n : Nat) (x : VReg) (k : Nat) : (c.setVreg n x k).hvmth = c.hvmth := by unfold LCore.setVreg; split <;> rfl
@[simp] theorem LCore.hvitl_setVreg (c : LCore) (n : Nat) (x : VReg) (k : Nat) : (c.setVreg n x k).hvitl = c.hvitl := by unfold LCore.setVreg; split <;> rfl
@[simp] theorem LCore.hvseed_setVreg (c : LCore) (n : Nat) (x : VReg) (k : Nat) : (c.setVreg n x k).hvseed = c.hvseed := by unfold LCore.setVreg; split <;> rfl
@[simp] theorem LCore.hvpart_setVreg (c : LCore) (n : Nat) (x : VReg) (k : Nat) : (c.setVreg n x k).hvpart = c.hvpart := by unfold LCore.setVreg; split <;> rfl
@[simp] theorem LCore.hvfth_setVreg (c : LCore) (n : Nat) (x : VReg) (k : Nat) : (c.setVreg n x k).hvfth = c.hvfth := by unfold LCore.setVreg; split <;> rfl
@[simp] theorem LCore.hvstw_setVreg (c : LCore) (n : Nat) (x : VReg) (k : Nat) : (c.setVreg n x k).hvstw = c.hvstw := by unfold LCore.setVreg; split <;> rfl
@[simp] theorem LCore.skcfg_setVreg (c : LCore) (n : Nat) (x : VReg) (k : Nat) : (c.setVreg n x k).skcfg = c.skcfg := by unfold LCore.setVreg; split <;> rfl
@[simp] theorem LCore.sktol_setVreg (c : LCore) (n : Nat) (x : VReg) (k : Nat) : (c.setVreg n x k).sktol = c.sktol := by unfold LCore.setVreg; split <;> rfl
@[simp] theorem LCore.skflr_setVreg (c : LCore) (n : Nat) (x : VReg) (k : Nat) : (c.setVreg n x k).skflr = c.skflr := by unfold LCore.setVreg; split <;> rfl
@[simp] theorem LCore.skwin_setVreg (c : LCore) (n : Nat) (x : VReg) (k : Nat) : (c.setVreg n x k).skwin = c.skwin := by unfold LCore.setVreg; split <;> rfl
@[simp] theorem LCore.skcnt_setVreg (c : LCore) (n : Nat) (x : VReg) (k : Nat) : (c.setVreg n x k).skcnt = c.skcnt := by unfold LCore.setVreg; split <;> rfl
@[simp] theorem LCore.stick_setVreg (c : LCore) (n : Nat) (x : VReg) (k : Nat) : (c.setVreg n x k).stick = c.stick := by unfold LCore.setVreg; split <;> rfl
@[simp] theorem LCore.attach_setVreg (c : LCore) (n : Nat) (x : VReg) (k : Nat) : (c.setVreg n x k).attach = c.attach := by unfold LCore.setVreg; split <;> rfl
@[simp] theorem LCore.tvec_setVreg (c : LCore) (n : Nat) (x : VReg) (k : Nat) : (c.setVreg n x k).tvec = c.tvec := by unfold LCore.setVreg; split <;> rfl
@[simp] theorem LCore.tpc_setVreg (c : LCore) (n : Nat) (x : VReg) (k : Nat) : (c.setVreg n x k).tpc = c.tpc := by unfold LCore.setVreg; split <;> rfl
@[simp] theorem LCore.tcause_setVreg (c : LCore) (n : Nat) (x : VReg) (k : Nat) : (c.setVreg n x k).tcause = c.tcause := by unfold LCore.setVreg; split <;> rfl
@[simp] theorem LCore.tval_setVreg (c : LCore) (n : Nat) (x : VReg) (k : Nat) : (c.setVreg n x k).tval = c.tval := by unfold LCore.setVreg; split <;> rfl
@[simp] theorem LCore.wphase_setVreg (c : LCore) (n : Nat) (x : VReg) (k : Nat) : (c.setVreg n x k).wphase = c.wphase := by unfold LCore.setVreg; split <;> rfl
@[simp] theorem LCore.bwp_setVreg (c : LCore) (n : Nat) (x : VReg) (k : Nat) : (c.setVreg n x k).bwp = c.bwp := by unfold LCore.setVreg; split <;> rfl
@[simp] theorem LCore.evf_setVreg (c : LCore) (n : Nat) (x : VReg) (k : Nat) : (c.setVreg n x k).evf = c.evf := by unfold LCore.setVreg; split <;> rfl
@[simp] theorem LCore.pprv_setVreg (c : LCore) (n : Nat) (x : VReg) (k : Nat) : (c.setVreg n x k).pprv = c.pprv := by unfold LCore.setVreg; split <;> rfl
@[simp] theorem LCore.tact_setVreg (c : LCore) (n : Nat) (x : VReg) (k : Nat) : (c.setVreg n x k).tact = c.tact := by unfold LCore.setVreg; split <;> rfl
@[simp] theorem LCore.atRtvec_setVreg (c : LCore) (n : Nat) (x : VReg) (k : Nat) : (c.setVreg n x k).atRtvec = c.atRtvec := by unfold LCore.setVreg; split <;> rfl
@[simp] theorem LCore.xbase_setVreg (c : LCore) (n : Nat) (x : VReg) (k : Nat) : (c.setVreg n x k).xbase = c.xbase := by unfold LCore.setVreg; split <;> rfl
@[simp] theorem LCore.xgen_setVreg (c : LCore) (n : Nat) (x : VReg) (k : Nat) : (c.setVreg n x k).xgen = c.xgen := by unfold LCore.setVreg; split <;> rfl
@[simp] theorem LCore.xchs_setVreg (c : LCore) (n : Nat) (x : VReg) (k : Nat) : (c.setVreg n x k).xchs = c.xchs := by unfold LCore.setVreg; split <;> rfl
@[simp] theorem LCore.barriers_setVreg (c : LCore) (n : Nat) (x : VReg) (k : Nat) : (c.setVreg n x k).barriers = c.barriers := by unfold LCore.setVreg; split <;> rfl
@[simp] theorem LCore.oldVals_setVreg (c : LCore) (n : Nat) (x : VReg) (k : Nat) : (c.setVreg n x k).oldVals = c.oldVals := by unfold LCore.setVreg; split <;> rfl
@[simp] theorem LCore.unseen_setVreg (c : LCore) (n : Nat) (x : VReg) (k : Nat) : (c.setVreg n x k).unseen = c.unseen := by unfold LCore.setVreg; split <;> rfl
@[simp] theorem LCore.displaced_setVreg (c : LCore) (n : Nat) (x : VReg) (k : Nat) : (c.setVreg n x k).displaced = c.displaced := by unfold LCore.setVreg; split <;> rfl
@[simp] theorem LCore.waitFor_setVreg (c : LCore) (n : Nat) (x : VReg) (k : Nat) : (c.setVreg n x k).waitFor = c.waitFor := by unfold LCore.setVreg; split <;> rfl
@[simp] theorem LCore.unreachMark_setVreg (c : LCore) (n : Nat) (x : VReg) (k : Nat) : (c.setVreg n x k).unreachMark = c.unreachMark := by unfold LCore.setVreg; split <;> rfl
@[simp] theorem LCore.barw_setVreg (c : LCore) (n : Nat) (x : VReg) (k : Nat) : (c.setVreg n x k).barw = c.barw := by unfold LCore.setVreg; split <;> rfl
@[simp] theorem LCore.placed_setVreg (c : LCore) (n : Nat) (x : VReg) (k : Nat) : (c.setVreg n x k).placed = c.placed := by unfold LCore.setVreg; split <;> rfl
@[simp] theorem LCore.placedAt_setVreg (c : LCore) (n : Nat) (x : VReg) (k : Nat) : (c.setVreg n x k).placedAt = c.placedAt := by unfold LCore.setVreg; split <;> rfl

/-! ## setKreg -/

@[simp] theorem LCore.job_setKreg (c : LCore) (n : Nat) (x : KReg) (k : Nat) : (c.setKreg n x k).job = c.job := by unfold LCore.setKreg; split <;> rfl
@[simp] theorem LCore.folio_setKreg (c : LCore) (n : Nat) (x : KReg) (k : Nat) : (c.setKreg n x k).folio = c.folio := by unfold LCore.setKreg; split <;> rfl
@[simp] theorem LCore.folioEnd_setKreg (c : LCore) (n : Nat) (x : KReg) (k : Nat) : (c.setKreg n x k).folioEnd = c.folioEnd := by unfold LCore.setKreg; split <;> rfl
@[simp] theorem LCore.pc_setKreg (c : LCore) (n : Nat) (x : KReg) (k : Nat) : (c.setKreg n x k).pc = c.pc := by unfold LCore.setKreg; split <;> rfl
@[simp] theorem LCore.level_setKreg (c : LCore) (n : Nat) (x : KReg) (k : Nat) : (c.setKreg n x k).level = c.level := by unfold LCore.setKreg; split <;> rfl
@[simp] theorem LCore.g_setKreg (c : LCore) (n : Nat) (x : KReg) (k : Nat) : (c.setKreg n x k).g = c.g := by unfold LCore.setKreg; split <;> rfl
@[simp] theorem LCore.v_setKreg (c : LCore) (n : Nat) (x : KReg) (k : Nat) : (c.setKreg n x k).v = c.v := by unfold LCore.setKreg; split <;> rfl
@[simp] theorem LCore.vext_setKreg (c : LCore) (n : Nat) (x : KReg) (k : Nat) : (c.setKreg n x k).vext = c.vext := by unfold LCore.setKreg; split <;> rfl
@[simp] theorem LCore.vl_setKreg (c : LCore) (n : Nat) (x : KReg) (k : Nat) : (c.setKreg n x k).vl = c.vl := by unfold LCore.setKreg; split <;> rfl
@[simp] theorem LCore.vtype_setKreg (c : LCore) (n : Nat) (x : KReg) (k : Nat) : (c.setKreg n x k).vtype = c.vtype := by unfold LCore.setKreg; split <;> rfl
@[simp] theorem LCore.vstart_setKreg (c : LCore) (n : Nat) (x : KReg) (k : Nat) : (c.setKreg n x k).vstart = c.vstart := by unfold LCore.setKreg; split <;> rfl
@[simp] theorem LCore.satk_setKreg (c : LCore) (n : Nat) (x : KReg) (k : Nat) : (c.setKreg n x k).satk = c.satk := by unfold LCore.setKreg; split <;> rfl
@[simp] theorem LCore.frm_setKreg (c : LCore) (n : Nat) (x : KReg) (k : Nat) : (c.setKreg n x k).frm = c.frm := by unfold LCore.setKreg; split <;> rfl
@[simp] theorem LCore.fflags_setKreg (c : LCore) (n : Nat) (x : KReg) (k : Nat) : (c.setKreg n x k).fflags = c.fflags := by unfold LCore.setKreg; split <;> rfl
@[simp] theorem LCore.cgrp_setKreg (c : LCore) (n : Nat) (x : KReg) (k : Nat) : (c.setKreg n x k).cgrp = c.cgrp := by unfold LCore.setKreg; split <;> rfl
@[simp] theorem LCore.cop_setKreg (c : LCore) (n : Nat) (x : KReg) (k : Nat) : (c.setKreg n x k).cop = c.cop := by unfold LCore.setKreg; split <;> rfl
@[simp] theorem LCore.cstr_setKreg (c : LCore) (n : Nat) (x : KReg) (k : Nat) : (c.setKreg n x k).cstr = c.cstr := by unfold LCore.setKreg; split <;> rfl
@[simp] theorem LCore.cdl_setKreg (c : LCore) (n : Nat) (x : KReg) (k : Nat) : (c.setKreg n x k).cdl = c.cdl := by unfold LCore.setKreg; split <;> rfl
@[simp] theorem LCore.cmapb_setKreg (c : LCore) (n : Nat) (x : KReg) (k : Nat) : (c.setKreg n x k).cmapb = c.cmapb := by unfold LCore.setKreg; split <;> rfl
@[simp] theorem LCore.ccnt_setKreg (c : LCore) (n : Nat) (x : KReg) (k : Nat) : (c.setKreg n x k).ccnt = c.ccnt := by unfold LCore.setKreg; split <;> rfl
@[simp] theorem LCore.coll_setKreg (c : LCore) (n : Nat) (x : KReg) (k : Nat) : (c.setKreg n x k).coll = c.coll := by unfold LCore.setKreg; split <;> rfl
@[simp] theorem LCore.hvw_setKreg (c : LCore) (n : Nat) (x : KReg) (k : Nat) : (c.setKreg n x k).hvw = c.hvw := by unfold LCore.setKreg; split <;> rfl
@[simp] theorem LCore.caseb_setKreg (c : LCore) (n : Nat) (x : KReg) (k : Nat) : (c.setKreg n x k).caseb = c.caseb := by unfold LCore.setKreg; split <;> rfl
@[simp] theorem LCore.casen_setKreg (c : LCore) (n : Nat) (x : KReg) (k : Nat) : (c.setKreg n x k).casen = c.casen := by unfold LCore.setKreg; split <;> rfl
@[simp] theorem LCore.hvcap_setKreg (c : LCore) (n : Nat) (x : KReg) (k : Nat) : (c.setKreg n x k).hvcap = c.hvcap := by unfold LCore.setKreg; split <;> rfl
@[simp] theorem LCore.hvn_setKreg (c : LCore) (n : Nat) (x : KReg) (k : Nat) : (c.setKreg n x k).hvn = c.hvn := by unfold LCore.setKreg; split <;> rfl
@[simp] theorem LCore.hvdist_setKreg (c : LCore) (n : Nat) (x : KReg) (k : Nat) : (c.setKreg n x k).hvdist = c.hvdist := by unfold LCore.setKreg; split <;> rfl
@[simp] theorem LCore.hvnext_setKreg (c : LCore) (n : Nat) (x : KReg) (k : Nat) : (c.setKreg n x k).hvnext = c.hvnext := by unfold LCore.setKreg; split <;> rfl
@[simp] theorem LCore.hvout_setKreg (c : LCore) (n : Nat) (x : KReg) (k : Nat) : (c.setKreg n x k).hvout = c.hvout := by unfold LCore.setKreg; split <;> rfl
@[simp] theorem LCore.hvmth_setKreg (c : LCore) (n : Nat) (x : KReg) (k : Nat) : (c.setKreg n x k).hvmth = c.hvmth := by unfold LCore.setKreg; split <;> rfl
@[simp] theorem LCore.hvitl_setKreg (c : LCore) (n : Nat) (x : KReg) (k : Nat) : (c.setKreg n x k).hvitl = c.hvitl := by unfold LCore.setKreg; split <;> rfl
@[simp] theorem LCore.hvseed_setKreg (c : LCore) (n : Nat) (x : KReg) (k : Nat) : (c.setKreg n x k).hvseed = c.hvseed := by unfold LCore.setKreg; split <;> rfl
@[simp] theorem LCore.hvpart_setKreg (c : LCore) (n : Nat) (x : KReg) (k : Nat) : (c.setKreg n x k).hvpart = c.hvpart := by unfold LCore.setKreg; split <;> rfl
@[simp] theorem LCore.hvfth_setKreg (c : LCore) (n : Nat) (x : KReg) (k : Nat) : (c.setKreg n x k).hvfth = c.hvfth := by unfold LCore.setKreg; split <;> rfl
@[simp] theorem LCore.hvstw_setKreg (c : LCore) (n : Nat) (x : KReg) (k : Nat) : (c.setKreg n x k).hvstw = c.hvstw := by unfold LCore.setKreg; split <;> rfl
@[simp] theorem LCore.skcfg_setKreg (c : LCore) (n : Nat) (x : KReg) (k : Nat) : (c.setKreg n x k).skcfg = c.skcfg := by unfold LCore.setKreg; split <;> rfl
@[simp] theorem LCore.sktol_setKreg (c : LCore) (n : Nat) (x : KReg) (k : Nat) : (c.setKreg n x k).sktol = c.sktol := by unfold LCore.setKreg; split <;> rfl
@[simp] theorem LCore.skflr_setKreg (c : LCore) (n : Nat) (x : KReg) (k : Nat) : (c.setKreg n x k).skflr = c.skflr := by unfold LCore.setKreg; split <;> rfl
@[simp] theorem LCore.skwin_setKreg (c : LCore) (n : Nat) (x : KReg) (k : Nat) : (c.setKreg n x k).skwin = c.skwin := by unfold LCore.setKreg; split <;> rfl
@[simp] theorem LCore.skcnt_setKreg (c : LCore) (n : Nat) (x : KReg) (k : Nat) : (c.setKreg n x k).skcnt = c.skcnt := by unfold LCore.setKreg; split <;> rfl
@[simp] theorem LCore.stick_setKreg (c : LCore) (n : Nat) (x : KReg) (k : Nat) : (c.setKreg n x k).stick = c.stick := by unfold LCore.setKreg; split <;> rfl
@[simp] theorem LCore.attach_setKreg (c : LCore) (n : Nat) (x : KReg) (k : Nat) : (c.setKreg n x k).attach = c.attach := by unfold LCore.setKreg; split <;> rfl
@[simp] theorem LCore.tvec_setKreg (c : LCore) (n : Nat) (x : KReg) (k : Nat) : (c.setKreg n x k).tvec = c.tvec := by unfold LCore.setKreg; split <;> rfl
@[simp] theorem LCore.tpc_setKreg (c : LCore) (n : Nat) (x : KReg) (k : Nat) : (c.setKreg n x k).tpc = c.tpc := by unfold LCore.setKreg; split <;> rfl
@[simp] theorem LCore.tcause_setKreg (c : LCore) (n : Nat) (x : KReg) (k : Nat) : (c.setKreg n x k).tcause = c.tcause := by unfold LCore.setKreg; split <;> rfl
@[simp] theorem LCore.tval_setKreg (c : LCore) (n : Nat) (x : KReg) (k : Nat) : (c.setKreg n x k).tval = c.tval := by unfold LCore.setKreg; split <;> rfl
@[simp] theorem LCore.wphase_setKreg (c : LCore) (n : Nat) (x : KReg) (k : Nat) : (c.setKreg n x k).wphase = c.wphase := by unfold LCore.setKreg; split <;> rfl
@[simp] theorem LCore.bwp_setKreg (c : LCore) (n : Nat) (x : KReg) (k : Nat) : (c.setKreg n x k).bwp = c.bwp := by unfold LCore.setKreg; split <;> rfl
@[simp] theorem LCore.evf_setKreg (c : LCore) (n : Nat) (x : KReg) (k : Nat) : (c.setKreg n x k).evf = c.evf := by unfold LCore.setKreg; split <;> rfl
@[simp] theorem LCore.pprv_setKreg (c : LCore) (n : Nat) (x : KReg) (k : Nat) : (c.setKreg n x k).pprv = c.pprv := by unfold LCore.setKreg; split <;> rfl
@[simp] theorem LCore.tact_setKreg (c : LCore) (n : Nat) (x : KReg) (k : Nat) : (c.setKreg n x k).tact = c.tact := by unfold LCore.setKreg; split <;> rfl
@[simp] theorem LCore.atRtvec_setKreg (c : LCore) (n : Nat) (x : KReg) (k : Nat) : (c.setKreg n x k).atRtvec = c.atRtvec := by unfold LCore.setKreg; split <;> rfl
@[simp] theorem LCore.xbase_setKreg (c : LCore) (n : Nat) (x : KReg) (k : Nat) : (c.setKreg n x k).xbase = c.xbase := by unfold LCore.setKreg; split <;> rfl
@[simp] theorem LCore.xgen_setKreg (c : LCore) (n : Nat) (x : KReg) (k : Nat) : (c.setKreg n x k).xgen = c.xgen := by unfold LCore.setKreg; split <;> rfl
@[simp] theorem LCore.xchs_setKreg (c : LCore) (n : Nat) (x : KReg) (k : Nat) : (c.setKreg n x k).xchs = c.xchs := by unfold LCore.setKreg; split <;> rfl
@[simp] theorem LCore.barriers_setKreg (c : LCore) (n : Nat) (x : KReg) (k : Nat) : (c.setKreg n x k).barriers = c.barriers := by unfold LCore.setKreg; split <;> rfl
@[simp] theorem LCore.oldVals_setKreg (c : LCore) (n : Nat) (x : KReg) (k : Nat) : (c.setKreg n x k).oldVals = c.oldVals := by unfold LCore.setKreg; split <;> rfl
@[simp] theorem LCore.unseen_setKreg (c : LCore) (n : Nat) (x : KReg) (k : Nat) : (c.setKreg n x k).unseen = c.unseen := by unfold LCore.setKreg; split <;> rfl
@[simp] theorem LCore.displaced_setKreg (c : LCore) (n : Nat) (x : KReg) (k : Nat) : (c.setKreg n x k).displaced = c.displaced := by unfold LCore.setKreg; split <;> rfl
@[simp] theorem LCore.waitFor_setKreg (c : LCore) (n : Nat) (x : KReg) (k : Nat) : (c.setKreg n x k).waitFor = c.waitFor := by unfold LCore.setKreg; split <;> rfl
@[simp] theorem LCore.unreachMark_setKreg (c : LCore) (n : Nat) (x : KReg) (k : Nat) : (c.setKreg n x k).unreachMark = c.unreachMark := by unfold LCore.setKreg; split <;> rfl
@[simp] theorem LCore.barw_setKreg (c : LCore) (n : Nat) (x : KReg) (k : Nat) : (c.setKreg n x k).barw = c.barw := by unfold LCore.setKreg; split <;> rfl
@[simp] theorem LCore.placed_setKreg (c : LCore) (n : Nat) (x : KReg) (k : Nat) : (c.setKreg n x k).placed = c.placed := by unfold LCore.setKreg; split <;> rfl
@[simp] theorem LCore.placedAt_setKreg (c : LCore) (n : Nat) (x : KReg) (k : Nat) : (c.setKreg n x k).placedAt = c.placedAt := by unfold LCore.setKreg; split <;> rfl

/-! ## What is read back -/

@[simp] theorem LCore.rd_zero (c : LCore) : c.rd 0 = 0 := by simp [LCore.rd]

@[simp] theorem LCore.rd_wr_same (c : LCore) (r : Reg) (x : Word) (h : r ≠ 0) : (c.wr r x).rd r = x := by
  unfold LCore.rd LCore.wr
  simp only [if_neg h]
  simp

@[simp] theorem LCore.rd_wr_other (c : LCore) {r d : Reg} (x : Word) (h : r ≠ d) : (c.wr d x).rd r = c.rd r := by
  unfold LCore.wr
  split
  · rfl
  · have : d.toNat ≠ r.toNat := fun e => h (BitVec.eq_of_toNat_eq e.symm)
    simp [LCore.rd, this]

@[simp] theorem LCore.wr_zero (c : LCore) (x : Word) : c.wr 0 x = c := by simp [LCore.wr]

@[simp] theorem LCore.pc_advance (c : LCore) : c.advance.pc = c.pc + 4 := rfl

@[simp] theorem LCore.rd_advance (c : LCore) (r : Reg) : c.advance.rd r = c.rd r := rfl

@[simp] theorem LCore.vreg_setVreg_same (c : LCore) (n : Nat) (x : VReg) (k : Nat) (h : n < 32) : (c.setVreg n x k).vreg n = x := by
  simp [LCore.vreg, LCore.setVreg, h]

@[simp] theorem LCore.vreg_setVreg_other (c : LCore) {n m : Nat} (x : VReg) (k : Nat) (h : m ≠ n) :
    (c.setVreg n x k).vreg m = c.vreg m := by
  unfold LCore.setVreg
  split
  · simp only [LCore.vreg]
    split
    · simp [Ne.symm h]
    · rfl
  · rfl

end Sys2Proof.Machine
end

