-- ==== Sys2Proof/Laws/Memory.lean ====
section
/-! SUPPORT. Memory keeps its one canonical form under every operation, and reads back what was written. -/

namespace Sys2Proof.Machine

/-! ## The canonical form -/

/-- Below every key of a canonical memory, a read gives 0. -/
theorem Memory.get_below {m : List Host.Cell} {a : Nat} (h : ∀ c ∈ m, a < c.1) : Memory.get m a = 0 := by
  induction m with
  | nil => rfl
  | cons p m ih =>
    have := h p (by simp)
    simp only [Memory.get]
    rw [if_neg (by omega)]
    exact ih fun c hc => h c (by simp [hc])

theorem Memory.wf_cons {k : Nat} {b : Byte} {m : List Host.Cell} :
    Memory.wf ((k, b) :: m) = true ↔ b ≠ 0 ∧ (∀ c ∈ m, k < c.1) ∧ Memory.wf m = true := by
  simp [Memory.wf, and_assoc]

/-- A filter keeps the canonical form. -/
theorem Memory.wf_filter (p : Host.Cell → Bool) {m : List Host.Cell} (h : Memory.wf m = true) : Memory.wf (m.filter p) = true := by
  induction m with
  | nil => rfl
  | cons c m ih =>
    obtain ⟨k, b⟩ := c
    obtain ⟨h1, h2, h3⟩ := Memory.wf_cons.1 h
    simp only [List.filter]
    split
    · exact Memory.wf_cons.2 ⟨h1, fun c hc => h2 c (List.mem_filter.1 hc).1, ih h3⟩
    · exact ih h3

/-- The keys after a write: those before it, and perhaps the one written. -/
theorem Memory.mem_put {m : List Host.Cell} {a : Nat} {b : Byte} {c : Host.Cell} (h : c ∈ Memory.put m a b) : c.1 = a ∨ c ∈ m := by
  induction m with
  | nil =>
    simp only [Memory.put] at h
    split at h <;> simp_all
  | cons p m ih =>
    obtain ⟨k, x⟩ := p
    simp only [Memory.put] at h
    split at h
    · split at h
      · exact .inr h
      · rcases List.mem_cons.1 h with h | h
        · simp [h]
        · exact .inr h
    · split at h
      · split at h
        · exact .inr (by simp [h])
        · rcases List.mem_cons.1 h with h | h
          · simp [h]
          · exact .inr (by simp [h])
      · rcases List.mem_cons.1 h with h | h
        · exact .inr (by simp [h])
        · rcases ih h with h | h
          · exact .inl h
          · exact .inr (by simp [h])

/-- A write keeps the canonical form. -/
theorem Memory.wf_put {m : List Host.Cell} (a : Nat) (b : Byte) (h : Memory.wf m = true) : Memory.wf (Memory.put m a b) = true := by
  induction m with
  | nil =>
    simp only [Memory.put]
    split
    · rfl
    · exact Memory.wf_cons.2 ⟨by assumption, by simp, rfl⟩
  | cons p m ih =>
    obtain ⟨k, x⟩ := p
    obtain ⟨h1, h2, h3⟩ := Memory.wf_cons.1 h
    simp only [Memory.put]
    split
    · split
      · exact h
      · refine Memory.wf_cons.2 ⟨by assumption, ?_, h⟩
        rintro c hc
        rcases List.mem_cons.1 hc with rfl | hc
        · assumption
        · have := h2 c hc
          omega
    · split
      · rename_i e
        split
        · exact h3
        · exact Memory.wf_cons.2 ⟨by assumption, by rw [e]; exact h2, h3⟩
      · refine Memory.wf_cons.2 ⟨h1, ?_, ih h3⟩
        rintro c hc
        rcases Memory.mem_put hc with e | hc
        · omega
        · exact h2 c hc

/-- Writes keep the canonical form. -/
theorem Memory.wf_putAll {m : List Host.Cell} (l : List (Nat × Byte)) (h : Memory.wf m = true) : Memory.wf (Memory.putAll m l) = true := by
  induction l generalizing m with
  | nil => exact h
  | cons p l ih => exact ih (Memory.wf_put _ _ h)

/-! ## Read after write -/

/-- A read after a write to the same key of a canonical memory gives the byte written. -/
theorem Memory.get_put_same {m : List Host.Cell} (a : Nat) (b : Byte) (h : Memory.wf m = true) : Memory.get (Memory.put m a b) a = b := by
  induction m with
  | nil =>
    simp only [Memory.put]
    split <;> simp_all [Memory.get]
  | cons p m ih =>
    obtain ⟨k, x⟩ := p
    obtain ⟨h1, h2, h3⟩ := Memory.wf_cons.1 h
    simp only [Memory.put]
    split
    · rename_i lt
      split
      · rename_i e
        rw [e]
        refine Memory.get_below ?_
        rintro c hc
        rcases List.mem_cons.1 hc with rfl | hc
        · exact lt
        · have := h2 c hc
          omega
      · simp [Memory.get]
    · split
      · rename_i e
        split
        · rename_i e0
          rw [e0, e]
          exact Memory.get_below h2
        · simp [Memory.get]
      · rename_i ne
        simp only [Memory.get]
        rw [if_neg (by omega)]
        exact ih h3

/-- A write leaves every other key alone. -/
theorem Memory.get_put_other (m : List Host.Cell) {a c : Nat} (b : Byte) (h : c ≠ a) :
    Memory.get (Memory.put m a b) c = Memory.get m c := by
  induction m with
  | nil =>
    simp only [Memory.put]
    split
    · rfl
    · simp [Memory.get, Ne.symm h]
  | cons p m ih =>
    obtain ⟨k, x⟩ := p
    simp only [Memory.put]
    split
    · split
      · rfl
      · simp [Memory.get, Ne.symm h]
    · split
      · rename_i e
        split
        · simp [Memory.get, ← e, Ne.symm h]
        · simp [Memory.get, ← e, Ne.symm h]
      · simp only [Memory.get, ih]

/-- Writes leave every key alone that is not among them. -/
theorem Memory.get_putAll_other (m : List Host.Cell) {c : Nat} (l : List (Nat × Byte)) (h : ∀ p ∈ l, p.1 ≠ c) :
    Memory.get (Memory.putAll m l) c = Memory.get m c := by
  induction l generalizing m with
  | nil => rfl
  | cons p l ih =>
    have e : Memory.putAll m (p :: l) = Memory.putAll (Memory.put m p.1 p.2) l := rfl
    rw [e, ih _ fun q hq => h q (by simp [hq]), Memory.get_put_other _ _ (Ne.symm (h p (by simp)))]

/-- Of writes at different keys, a read at one of them gives its byte. -/
theorem Memory.get_putAll_mem {m : List Host.Cell} (l : List (Nat × Byte)) (hm : Memory.wf m = true)
    (hl : (l.map (·.1)).Nodup) {p : Nat × Byte} (hp : p ∈ l) : Memory.get (Memory.putAll m l) p.1 = p.2 := by
  induction l generalizing m with
  | nil => simp at hp
  | cons q l ih =>
    have e : Memory.putAll m (q :: l) = Memory.putAll (Memory.put m q.1 q.2) l := rfl
    simp only [List.map_cons, List.nodup_cons] at hl
    rw [e]
    rcases List.mem_cons.1 hp with rfl | hp
    · rw [Memory.get_putAll_other _ _ fun r hr he => hl.1 (by rw [← he]; exact List.mem_map_of_mem hr)]
      exact Memory.get_put_same _ _ hm
    · exact ih (Memory.wf_put _ _ hm) hl.2 hp

/-- A filter on keys keeps what it keeps. -/
theorem Memory.get_filter (m : List Host.Cell) (p : Nat → Bool) {a : Nat} (h : p a = true) :
    Memory.get (m.filter fun c => p c.1) a = Memory.get m a := by
  induction m with
  | nil => rfl
  | cons c m ih =>
    obtain ⟨k, b⟩ := c
    by_cases e : k = a
    · subst e
      simp [List.filter, h, Memory.get]
    · simp only [List.filter]
      split <;> simp [Memory.get, e, ih]

/-! ## Bytes and numbers -/

theorem leNat_leBytes (n x : Nat) : leNat (leBytes n x) = x % 256 ^ n := by
  induction n generalizing x with
  | zero => simp [leBytes, leNat, Nat.mod_one]
  | succ n ih =>
    simp only [leBytes, leNat, ih, BitVec.toNat_ofNat]
    have e : x % 256 ^ (n + 1) = x % 256 + 256 * (x / 256 % 256 ^ n) := by
      rw [show 256 ^ (n + 1) = 256 * 256 ^ n from Nat.pow_succ', Nat.mod_mul]
    exact e.symm

@[simp] theorem length_leBytes (n x : Nat) : (leBytes n x).length = n := by
  induction n generalizing x with
  | zero => rfl
  | succ n ih => simp [leBytes, ih]

@[simp] theorem length_keysFrom (a n : Nat) : (keysFrom a n).length = n := by simp [keysFrom]

theorem mem_keysFrom {a n k : Nat} : k ∈ keysFrom a n ↔ a ≤ k ∧ k < a + n := by
  simp only [keysFrom, List.mem_map, List.mem_range]
  constructor
  · rintro ⟨i, h, rfl⟩
    omega
  · rintro ⟨h1, h2⟩
    exact ⟨k - a, by omega, by omega⟩

theorem nodup_keysFrom (a n : Nat) : (keysFrom a n).Nodup :=
  List.Nodup.map (fun _ _ h => Nat.add_left_cancel h) List.nodup_range

/-! ## Reads and writes of the state -/

/-- A read changes no byte of memory. -/
theorem State.mem_read (s : State) (keys : List Nat) : (s.read keys).1.mem = s.mem := by
  have h := congrArg State.mem (State.withErrors_meets s s keys)
  exact h

/-- What a read answers: the bytes of memory as they stand. -/
theorem State.read_some {s t : State} {keys : List Nat} {b : List Byte} (h : s.read keys = (t, some b)) :
    t.mem = s.mem ∧ b = keys.map (Memory.get s.mem) := by
  have hm := State.mem_read s keys
  rw [h] at hm
  refine ⟨hm, ?_⟩
  simp only at hm
  unfold State.read at h
  simp only [Prod.mk.injEq] at h
  obtain ⟨h1, h2⟩ := h
  rw [h1] at h2
  split at h2
  · cases h2
  · rw [← Option.some.inj h2, hm]

/-- A load reads the bytes at the keys of an access, and changes none. -/
theorem State.load_ok {s t : State} {l : List ByteAt} {b : List Byte} (h : s.load l = (t, .ok b)) :
    t.mem = s.mem ∧ b = (l.map (·.key)).map (Memory.get s.mem) := by
  unfold State.load at h
  split at h
  · cases h
  · rename_i e
    cases h
    exact State.read_some e

@[simp] theorem State.mem_write (s : State) (l : List (Nat × Byte)) : (s.write l).mem = Memory.putAll s.mem l := by
  have h := congrArg State.mem (State.withErrors_write s l)
  exact h

/-- A store keeps the canonical form. -/
theorem State.wf_write {s : State} (l : List (Nat × Byte)) (h : Memory.wf s.mem = true) : Memory.wf (s.write l).mem = true := by
  rw [State.mem_write]
  exact Memory.wf_putAll l h

/-- A write of a number keeps the canonical form. -/
theorem State.wf_putNum {s : State} (a n x : Nat) (h : Memory.wf s.mem = true) : Memory.wf (s.putNum a n x).mem = true :=
  Memory.wf_putAll _ h

/-- A number read after it was written. -/
theorem State.num_putNum {s : State} (a n x : Nat) (h : Memory.wf s.mem = true) : (s.putNum a n x).num a n = x % 256 ^ n := by
  have e : (s.putNum a n x).bytes a n = leBytes n x := by
    apply List.ext_getElem
    · simp [State.bytes]
    · intro i h1 h2
      have hi : i < n := by simpa using h2
      have hp : (a + i, (leBytes n x)[i]) ∈ (keysFrom a n).zip (leBytes n x) := by
        rw [List.mem_iff_getElem]
        exact ⟨i, by simpa using hi, by simp [keysFrom]⟩
      have hl : (((keysFrom a n).zip (leBytes n x)).map (·.1)).Nodup := by
        rw [List.map_fst_zip (by simp)]
        exact nodup_keysFrom a n
      simpa [State.bytes, State.putNum, keysFrom] using Memory.get_putAll_mem _ h hl hp
  rw [State.num, e, leNat_leBytes]

/-- Reset memory is canonical. -/
theorem State.wf_reset : Memory.wf State.reset.mem = true := rfl

end Sys2Proof.Machine
end

