-- ==== Sys2Proof/Laws/PerInstr.lean ====
section
/-! SUPPORT. A law stated of every instruction as syntax: it has a word with an assigned major opcode (R54), or it is
a step of an engine or of the outside and has none. -/

namespace Sys2Proof.Laws

theorem major_packS (x : BitVec 10) (b a d : Reg) (n : BitVec 7) : (packS x b a d n).major = n := by
  unfold packS IWord.major
  rw [BitVec.extractLsb'_append_eq_right]

theorem major_packI (x : BitVec 15) (a d : Reg) (n : BitVec 7) : (packI x a d n).major = n := by
  unfold packI IWord.major
  rw [BitVec.extractLsb'_append_eq_right]

theorem major_packU (x : BitVec 20) (d : Reg) (n : BitVec 7) : (packU x d n).major = n := by
  unfold packU IWord.major
  rw [BitVec.extractLsb'_append_eq_right]

theorem major_packC (x : BitVec 12) (y : BitVec 3) (a d : Reg) (n : BitVec 7) : (packC x y a d n).major = n := by
  unfold packC IWord.major
  rw [BitVec.extractLsb'_append_eq_right]

theorem major_packV (x : BitVec 6) (m cv c2 c1 : BitVec 1) (s2 s1 d : Reg) (n : BitVec 7) :
    (packV x m cv c2 c1 s2 s1 d n).major = n := by
  unfold packV IWord.major
  rw [BitVec.extractLsb'_append_eq_right]

theorem major_vf (f : VF) (x : BitVec 6) (n : BitVec 7) : (f.pack x n).major = n := major_packV ..

theorem major_vmf (f : VMF) (x : BitVec 2) (n : BitVec 7) : (f.pack x n).major = n := by
  unfold VMF.pack
  exact major_packV ..

theorem major_tf (f : TF) (x : BitVec 2) (n : BitVec 7) : (f.pack x n).major = n := by
  unfold TF.pack
  exact major_packV ..

/-- An instruction is a step without a word exactly when its encoding has the reserved major 0. -/
def MajorOpcode.Statement (i : Instr) : Prop := i.isEvent = true ↔ (encode i).major = 0#7

/-- An encoding with an assigned major opcode. -/
theorem MajorOpcode.of_major {i : Instr} {n : BitVec 7} (h : (encode i).major = n) (hn : n ≠ 0#7) (he : i.isEvent = false) :
    MajorOpcode.Statement i := by
  simp [MajorOpcode.Statement, h, hn, he]

theorem MajorOpcode.add (f : SF) : MajorOpcode.Statement (.add f) := of_major (major_packS ..) (by decide) rfl
theorem MajorOpcode.sub (f : SF) : MajorOpcode.Statement (.sub f) := of_major (major_packS ..) (by decide) rfl
theorem MajorOpcode.and (f : SF) : MajorOpcode.Statement (.and f) := of_major (major_packS ..) (by decide) rfl
theorem MajorOpcode.or (f : SF) : MajorOpcode.Statement (.or f) := of_major (major_packS ..) (by decide) rfl
theorem MajorOpcode.xor (f : SF) : MajorOpcode.Statement (.xor f) := of_major (major_packS ..) (by decide) rfl
theorem MajorOpcode.sll (f : SF) : MajorOpcode.Statement (.sll f) := of_major (major_packS ..) (by decide) rfl
theorem MajorOpcode.srl (f : SF) : MajorOpcode.Statement (.srl f) := of_major (major_packS ..) (by decide) rfl
theorem MajorOpcode.sra (f : SF) : MajorOpcode.Statement (.sra f) := of_major (major_packS ..) (by decide) rfl
theorem MajorOpcode.slt (f : SF) : MajorOpcode.Statement (.slt f) := of_major (major_packS ..) (by decide) rfl
theorem MajorOpcode.sltn (f : SF) : MajorOpcode.Statement (.sltn f) := of_major (major_packS ..) (by decide) rfl
theorem MajorOpcode.min (f : SF) : MajorOpcode.Statement (.min f) := of_major (major_packS ..) (by decide) rfl
theorem MajorOpcode.max (f : SF) : MajorOpcode.Statement (.max f) := of_major (major_packS ..) (by decide) rfl
theorem MajorOpcode.minn (f : SF) : MajorOpcode.Statement (.minn f) := of_major (major_packS ..) (by decide) rfl
theorem MajorOpcode.maxn (f : SF) : MajorOpcode.Statement (.maxn f) := of_major (major_packS ..) (by decide) rfl
theorem MajorOpcode.mul (f : SF) : MajorOpcode.Statement (.mul f) := of_major (major_packS ..) (by decide) rfl
theorem MajorOpcode.mulh (f : SF) : MajorOpcode.Statement (.mulh f) := of_major (major_packS ..) (by decide) rfl
theorem MajorOpcode.mulhn (f : SF) : MajorOpcode.Statement (.mulhn f) := of_major (major_packS ..) (by decide) rfl
theorem MajorOpcode.div (f : SF) : MajorOpcode.Statement (.div f) := of_major (major_packS ..) (by decide) rfl
theorem MajorOpcode.divn (f : SF) : MajorOpcode.Statement (.divn f) := of_major (major_packS ..) (by decide) rfl
theorem MajorOpcode.rem (f : SF) : MajorOpcode.Statement (.rem f) := of_major (major_packS ..) (by decide) rfl
theorem MajorOpcode.remn (f : SF) : MajorOpcode.Statement (.remn f) := of_major (major_packS ..) (by decide) rfl
theorem MajorOpcode.clz (f : SF) : MajorOpcode.Statement (.clz f) := of_major (major_packS ..) (by decide) rfl
theorem MajorOpcode.ctz (f : SF) : MajorOpcode.Statement (.ctz f) := of_major (major_packS ..) (by decide) rfl
theorem MajorOpcode.popc (f : SF) : MajorOpcode.Statement (.popc f) := of_major (major_packS ..) (by decide) rfl
theorem MajorOpcode.addi (f : IF) : MajorOpcode.Statement (.addi f) := of_major (major_packI ..) (by decide) rfl
theorem MajorOpcode.andi (f : IF) : MajorOpcode.Statement (.andi f) := of_major (major_packI ..) (by decide) rfl
theorem MajorOpcode.ori (f : IF) : MajorOpcode.Statement (.ori f) := of_major (major_packI ..) (by decide) rfl
theorem MajorOpcode.xori (f : IF) : MajorOpcode.Statement (.xori f) := of_major (major_packI ..) (by decide) rfl
theorem MajorOpcode.slti (f : IF) : MajorOpcode.Statement (.slti f) := of_major (major_packI ..) (by decide) rfl
theorem MajorOpcode.slli (f : HF) : MajorOpcode.Statement (.slli f) := of_major (major_packI ..) (by decide) rfl
theorem MajorOpcode.srli (f : HF) : MajorOpcode.Statement (.srli f) := of_major (major_packI ..) (by decide) rfl
theorem MajorOpcode.srai (f : HF) : MajorOpcode.Statement (.srai f) := of_major (major_packI ..) (by decide) rfl
theorem MajorOpcode.lui (f : UF) : MajorOpcode.Statement (.lui f) := of_major (major_packU ..) (by decide) rfl
theorem MajorOpcode.auipc (f : UF) : MajorOpcode.Statement (.auipc f) := of_major (major_packU ..) (by decide) rfl
theorem MajorOpcode.jal (f : UF) : MajorOpcode.Statement (.jal f) := of_major (major_packU ..) (by decide) rfl
theorem MajorOpcode.jalr (f : IF) : MajorOpcode.Statement (.jalr f) := of_major (major_packI ..) (by decide) rfl
theorem MajorOpcode.loop (f : BF) : MajorOpcode.Statement (.loop f) := of_major (major_packI ..) (by decide) rfl
theorem MajorOpcode.fadd (f : FF) : MajorOpcode.Statement (.fadd f) := of_major (major_packS ..) (by decide) rfl
theorem MajorOpcode.fsub (f : FF) : MajorOpcode.Statement (.fsub f) := of_major (major_packS ..) (by decide) rfl
theorem MajorOpcode.fmul (f : FF) : MajorOpcode.Statement (.fmul f) := of_major (major_packS ..) (by decide) rfl
theorem MajorOpcode.fdiv (f : FF) : MajorOpcode.Statement (.fdiv f) := of_major (major_packS ..) (by decide) rfl
theorem MajorOpcode.fsqrt (f : FF) : MajorOpcode.Statement (.fsqrt f) := of_major (major_packS ..) (by decide) rfl
theorem MajorOpcode.fma (f : FF) : MajorOpcode.Statement (.fma f) := of_major (major_packS ..) (by decide) rfl
theorem MajorOpcode.fmin (f : FF) : MajorOpcode.Statement (.fmin f) := of_major (major_packS ..) (by decide) rfl
theorem MajorOpcode.fmax (f : FF) : MajorOpcode.Statement (.fmax f) := of_major (major_packS ..) (by decide) rfl
theorem MajorOpcode.fcmp (f : FCF) : MajorOpcode.Statement (.fcmp f) := of_major (major_packS ..) (by decide) rfl
theorem MajorOpcode.fcvt (f : FF) : MajorOpcode.Statement (.fcvt f) := of_major (major_packS ..) (by decide) rfl
theorem MajorOpcode.fmv (f : FF) : MajorOpcode.Statement (.fmv f) := of_major (major_packS ..) (by decide) rfl
theorem MajorOpcode.ldacq (f : AF) : MajorOpcode.Statement (.ldacq f) := of_major (major_packS ..) (by decide) rfl
theorem MajorOpcode.strel (f : AF) : MajorOpcode.Statement (.strel f) := of_major (major_packS ..) (by decide) rfl
theorem MajorOpcode.amoadd (f : AF) : MajorOpcode.Statement (.amoadd f) := of_major (major_packS ..) (by decide) rfl
theorem MajorOpcode.amoswp (f : AF) : MajorOpcode.Statement (.amoswp f) := of_major (major_packS ..) (by decide) rfl
theorem MajorOpcode.amocas (f : AF) : MajorOpcode.Statement (.amocas f) := of_major (major_packS ..) (by decide) rfl
theorem MajorOpcode.amomin (f : AF) : MajorOpcode.Statement (.amomin f) := of_major (major_packS ..) (by decide) rfl
theorem MajorOpcode.amomax (f : AF) : MajorOpcode.Statement (.amomax f) := of_major (major_packS ..) (by decide) rfl
theorem MajorOpcode.amoand (f : AF) : MajorOpcode.Statement (.amoand f) := of_major (major_packS ..) (by decide) rfl
theorem MajorOpcode.amoor (f : AF) : MajorOpcode.Statement (.amoor f) := of_major (major_packS ..) (by decide) rfl
theorem MajorOpcode.ldb (f : IF) : MajorOpcode.Statement (.ldb f) := of_major (major_packI ..) (by decide) rfl
theorem MajorOpcode.ldbn (f : IF) : MajorOpcode.Statement (.ldbn f) := of_major (major_packI ..) (by decide) rfl
theorem MajorOpcode.ldh (f : IF) : MajorOpcode.Statement (.ldh f) := of_major (major_packI ..) (by decide) rfl
theorem MajorOpcode.ldhn (f : IF) : MajorOpcode.Statement (.ldhn f) := of_major (major_packI ..) (by decide) rfl
theorem MajorOpcode.ldw (f : IF) : MajorOpcode.Statement (.ldw f) := of_major (major_packI ..) (by decide) rfl
theorem MajorOpcode.ldwn (f : IF) : MajorOpcode.Statement (.ldwn f) := of_major (major_packI ..) (by decide) rfl
theorem MajorOpcode.ldd (f : IF) : MajorOpcode.Statement (.ldd f) := of_major (major_packI ..) (by decide) rfl
theorem MajorOpcode.stb (f : IF) : MajorOpcode.Statement (.stb f) := of_major (major_packI ..) (by decide) rfl
theorem MajorOpcode.sth (f : IF) : MajorOpcode.Statement (.sth f) := of_major (major_packI ..) (by decide) rfl
theorem MajorOpcode.stw (f : IF) : MajorOpcode.Statement (.stw f) := of_major (major_packI ..) (by decide) rfl
theorem MajorOpcode.std (f : IF) : MajorOpcode.Statement (.std f) := of_major (major_packI ..) (by decide) rfl
theorem MajorOpcode.beq (f : BF) : MajorOpcode.Statement (.beq f) := of_major (major_packI ..) (by decide) rfl
theorem MajorOpcode.bne (f : BF) : MajorOpcode.Statement (.bne f) := of_major (major_packI ..) (by decide) rfl
theorem MajorOpcode.blt (f : BF) : MajorOpcode.Statement (.blt f) := of_major (major_packI ..) (by decide) rfl
theorem MajorOpcode.bge (f : BF) : MajorOpcode.Statement (.bge f) := of_major (major_packI ..) (by decide) rfl
theorem MajorOpcode.bltn (f : BF) : MajorOpcode.Statement (.bltn f) := of_major (major_packI ..) (by decide) rfl
theorem MajorOpcode.bgen (f : BF) : MajorOpcode.Statement (.bgen f) := of_major (major_packI ..) (by decide) rfl
theorem MajorOpcode.vadd (f : VF) : MajorOpcode.Statement (.vadd f) := of_major (major_vf ..) (by decide) rfl
theorem MajorOpcode.vsub (f : VF) : MajorOpcode.Statement (.vsub f) := of_major (major_vf ..) (by decide) rfl
theorem MajorOpcode.vmul (f : VF) : MajorOpcode.Statement (.vmul f) := of_major (major_vf ..) (by decide) rfl
theorem MajorOpcode.vmulh (f : VF) : MajorOpcode.Statement (.vmulh f) := of_major (major_vf ..) (by decide) rfl
theorem MajorOpcode.vand (f : VF) : MajorOpcode.Statement (.vand f) := of_major (major_vf ..) (by decide) rfl
theorem MajorOpcode.vor (f : VF) : MajorOpcode.Statement (.vor f) := of_major (major_vf ..) (by decide) rfl
theorem MajorOpcode.vxor (f : VF) : MajorOpcode.Statement (.vxor f) := of_major (major_vf ..) (by decide) rfl
theorem MajorOpcode.vsll (f : VF) : MajorOpcode.Statement (.vsll f) := of_major (major_vf ..) (by decide) rfl
theorem MajorOpcode.vsrl (f : VF) : MajorOpcode.Statement (.vsrl f) := of_major (major_vf ..) (by decide) rfl
theorem MajorOpcode.vsra (f : VF) : MajorOpcode.Statement (.vsra f) := of_major (major_vf ..) (by decide) rfl
theorem MajorOpcode.vmin (f : VF) : MajorOpcode.Statement (.vmin f) := of_major (major_vf ..) (by decide) rfl
theorem MajorOpcode.vmax (f : VF) : MajorOpcode.Statement (.vmax f) := of_major (major_vf ..) (by decide) rfl
theorem MajorOpcode.vminn (f : VF) : MajorOpcode.Statement (.vminn f) := of_major (major_vf ..) (by decide) rfl
theorem MajorOpcode.vmaxn (f : VF) : MajorOpcode.Statement (.vmaxn f) := of_major (major_vf ..) (by decide) rfl
theorem MajorOpcode.vsadd (f : VF) : MajorOpcode.Statement (.vsadd f) := of_major (major_vf ..) (by decide) rfl
theorem MajorOpcode.vssub (f : VF) : MajorOpcode.Statement (.vssub f) := of_major (major_vf ..) (by decide) rfl
theorem MajorOpcode.vmerge (f : VF) : MajorOpcode.Statement (.vmerge f) := of_major (major_vf ..) (by decide) rfl
theorem MajorOpcode.vaddScalar (f : VF) : MajorOpcode.Statement (.vaddScalar f) := of_major (major_vf ..) (by decide) rfl
theorem MajorOpcode.vsubScalar (f : VF) : MajorOpcode.Statement (.vsubScalar f) := of_major (major_vf ..) (by decide) rfl
theorem MajorOpcode.vmulScalar (f : VF) : MajorOpcode.Statement (.vmulScalar f) := of_major (major_vf ..) (by decide) rfl
theorem MajorOpcode.vmulhScalar (f : VF) : MajorOpcode.Statement (.vmulhScalar f) := of_major (major_vf ..) (by decide) rfl
theorem MajorOpcode.vandScalar (f : VF) : MajorOpcode.Statement (.vandScalar f) := of_major (major_vf ..) (by decide) rfl
theorem MajorOpcode.vorScalar (f : VF) : MajorOpcode.Statement (.vorScalar f) := of_major (major_vf ..) (by decide) rfl
theorem MajorOpcode.vxorScalar (f : VF) : MajorOpcode.Statement (.vxorScalar f) := of_major (major_vf ..) (by decide) rfl
theorem MajorOpcode.vsllScalar (f : VF) : MajorOpcode.Statement (.vsllScalar f) := of_major (major_vf ..) (by decide) rfl
theorem MajorOpcode.vsrlScalar (f : VF) : MajorOpcode.Statement (.vsrlScalar f) := of_major (major_vf ..) (by decide) rfl
theorem MajorOpcode.vsraScalar (f : VF) : MajorOpcode.Statement (.vsraScalar f) := of_major (major_vf ..) (by decide) rfl
theorem MajorOpcode.vminScalar (f : VF) : MajorOpcode.Statement (.vminScalar f) := of_major (major_vf ..) (by decide) rfl
theorem MajorOpcode.vmaxScalar (f : VF) : MajorOpcode.Statement (.vmaxScalar f) := of_major (major_vf ..) (by decide) rfl
theorem MajorOpcode.vminnScalar (f : VF) : MajorOpcode.Statement (.vminnScalar f) := of_major (major_vf ..) (by decide) rfl
theorem MajorOpcode.vmaxnScalar (f : VF) : MajorOpcode.Statement (.vmaxnScalar f) := of_major (major_vf ..) (by decide) rfl
theorem MajorOpcode.vsaddScalar (f : VF) : MajorOpcode.Statement (.vsaddScalar f) := of_major (major_vf ..) (by decide) rfl
theorem MajorOpcode.vssubScalar (f : VF) : MajorOpcode.Statement (.vssubScalar f) := of_major (major_vf ..) (by decide) rfl
theorem MajorOpcode.vmergeScalar (f : VF) : MajorOpcode.Statement (.vmergeScalar f) := of_major (major_vf ..) (by decide) rfl
theorem MajorOpcode.vpopc (f : VF) : MajorOpcode.Statement (.vpopc f) := of_major (major_vf ..) (by decide) rfl
theorem MajorOpcode.vclz (f : VF) : MajorOpcode.Statement (.vclz f) := of_major (major_vf ..) (by decide) rfl
theorem MajorOpcode.vid (f : VF) : MajorOpcode.Statement (.vid f) := of_major (major_vf ..) (by decide) rfl
theorem MajorOpcode.vmvs (f : VF) : MajorOpcode.Statement (.vmvs f) := of_major (major_vf ..) (by decide) rfl
theorem MajorOpcode.vmvx (f : VF) : MajorOpcode.Statement (.vmvx f) := of_major (major_vf ..) (by decide) rfl
theorem MajorOpcode.vfadd (f : VF) : MajorOpcode.Statement (.vfadd f) := of_major (major_vf ..) (by decide) rfl
theorem MajorOpcode.vfsub (f : VF) : MajorOpcode.Statement (.vfsub f) := of_major (major_vf ..) (by decide) rfl
theorem MajorOpcode.vfmul (f : VF) : MajorOpcode.Statement (.vfmul f) := of_major (major_vf ..) (by decide) rfl
theorem MajorOpcode.vfma (f : VF) : MajorOpcode.Statement (.vfma f) := of_major (major_vf ..) (by decide) rfl
theorem MajorOpcode.vfnma (f : VF) : MajorOpcode.Statement (.vfnma f) := of_major (major_vf ..) (by decide) rfl
theorem MajorOpcode.vfdiv (f : VF) : MajorOpcode.Statement (.vfdiv f) := of_major (major_vf ..) (by decide) rfl
theorem MajorOpcode.vfmin (f : VF) : MajorOpcode.Statement (.vfmin f) := of_major (major_vf ..) (by decide) rfl
theorem MajorOpcode.vfmax (f : VF) : MajorOpcode.Statement (.vfmax f) := of_major (major_vf ..) (by decide) rfl
theorem MajorOpcode.vfaddScalar (f : VF) : MajorOpcode.Statement (.vfaddScalar f) := of_major (major_vf ..) (by decide) rfl
theorem MajorOpcode.vfsubScalar (f : VF) : MajorOpcode.Statement (.vfsubScalar f) := of_major (major_vf ..) (by decide) rfl
theorem MajorOpcode.vfmulScalar (f : VF) : MajorOpcode.Statement (.vfmulScalar f) := of_major (major_vf ..) (by decide) rfl
theorem MajorOpcode.vfmaScalar (f : VF) : MajorOpcode.Statement (.vfmaScalar f) := of_major (major_vf ..) (by decide) rfl
theorem MajorOpcode.vfnmaScalar (f : VF) : MajorOpcode.Statement (.vfnmaScalar f) := of_major (major_vf ..) (by decide) rfl
theorem MajorOpcode.vfdivScalar (f : VF) : MajorOpcode.Statement (.vfdivScalar f) := of_major (major_vf ..) (by decide) rfl
theorem MajorOpcode.vfminScalar (f : VF) : MajorOpcode.Statement (.vfminScalar f) := of_major (major_vf ..) (by decide) rfl
theorem MajorOpcode.vfmaxScalar (f : VF) : MajorOpcode.Statement (.vfmaxScalar f) := of_major (major_vf ..) (by decide) rfl
theorem MajorOpcode.vfsqrt (f : VF) : MajorOpcode.Statement (.vfsqrt f) := of_major (major_vf ..) (by decide) rfl
theorem MajorOpcode.vfabs (f : VF) : MajorOpcode.Statement (.vfabs f) := of_major (major_vf ..) (by decide) rfl
theorem MajorOpcode.vfneg (f : VF) : MajorOpcode.Statement (.vfneg f) := of_major (major_vf ..) (by decide) rfl
theorem MajorOpcode.vfexp2 (f : VF) : MajorOpcode.Statement (.vfexp2 f) := of_major (major_vf ..) (by decide) rfl
theorem MajorOpcode.vflog2 (f : VF) : MajorOpcode.Statement (.vflog2 f) := of_major (major_vf ..) (by decide) rfl
theorem MajorOpcode.vfrsq (f : VF) : MajorOpcode.Statement (.vfrsq f) := of_major (major_vf ..) (by decide) rfl
theorem MajorOpcode.vfrcp (f : VF) : MajorOpcode.Statement (.vfrcp f) := of_major (major_vf ..) (by decide) rfl
theorem MajorOpcode.vcvt (f : VF) : MajorOpcode.Statement (.vcvt f) := of_major (major_vf ..) (by decide) rfl
theorem MajorOpcode.vcmpeq (f : VF) : MajorOpcode.Statement (.vcmpeq f) := of_major (major_vf ..) (by decide) rfl
theorem MajorOpcode.vcmpne (f : VF) : MajorOpcode.Statement (.vcmpne f) := of_major (major_vf ..) (by decide) rfl
theorem MajorOpcode.vcmplt (f : VF) : MajorOpcode.Statement (.vcmplt f) := of_major (major_vf ..) (by decide) rfl
theorem MajorOpcode.vcmple (f : VF) : MajorOpcode.Statement (.vcmple f) := of_major (major_vf ..) (by decide) rfl
theorem MajorOpcode.vcmpltn (f : VF) : MajorOpcode.Statement (.vcmpltn f) := of_major (major_vf ..) (by decide) rfl
theorem MajorOpcode.vcmplen (f : VF) : MajorOpcode.Statement (.vcmplen f) := of_major (major_vf ..) (by decide) rfl
theorem MajorOpcode.vfcmpeq (f : VF) : MajorOpcode.Statement (.vfcmpeq f) := of_major (major_vf ..) (by decide) rfl
theorem MajorOpcode.vfcmplt (f : VF) : MajorOpcode.Statement (.vfcmplt f) := of_major (major_vf ..) (by decide) rfl
theorem MajorOpcode.vfcmple (f : VF) : MajorOpcode.Statement (.vfcmple f) := of_major (major_vf ..) (by decide) rfl
theorem MajorOpcode.vcmpeqScalar (f : VF) : MajorOpcode.Statement (.vcmpeqScalar f) := of_major (major_vf ..) (by decide) rfl
theorem MajorOpcode.vcmpneScalar (f : VF) : MajorOpcode.Statement (.vcmpneScalar f) := of_major (major_vf ..) (by decide) rfl
theorem MajorOpcode.vcmpltScalar (f : VF) : MajorOpcode.Statement (.vcmpltScalar f) := of_major (major_vf ..) (by decide) rfl
theorem MajorOpcode.vcmpleScalar (f : VF) : MajorOpcode.Statement (.vcmpleScalar f) := of_major (major_vf ..) (by decide) rfl
theorem MajorOpcode.vcmpltnScalar (f : VF) : MajorOpcode.Statement (.vcmpltnScalar f) := of_major (major_vf ..) (by decide) rfl
theorem MajorOpcode.vcmplenScalar (f : VF) : MajorOpcode.Statement (.vcmplenScalar f) := of_major (major_vf ..) (by decide) rfl
theorem MajorOpcode.vfcmpeqScalar (f : VF) : MajorOpcode.Statement (.vfcmpeqScalar f) := of_major (major_vf ..) (by decide) rfl
theorem MajorOpcode.vfcmpltScalar (f : VF) : MajorOpcode.Statement (.vfcmpltScalar f) := of_major (major_vf ..) (by decide) rfl
theorem MajorOpcode.vfcmpleScalar (f : VF) : MajorOpcode.Statement (.vfcmpleScalar f) := of_major (major_vf ..) (by decide) rfl
theorem MajorOpcode.vslideup (f : VF) : MajorOpcode.Statement (.vslideup f) := of_major (major_vf ..) (by decide) rfl
theorem MajorOpcode.vslidedn (f : VF) : MajorOpcode.Statement (.vslidedn f) := of_major (major_vf ..) (by decide) rfl
theorem MajorOpcode.vrgath (f : VF) : MajorOpcode.Statement (.vrgath f) := of_major (major_vf ..) (by decide) rfl
theorem MajorOpcode.vcmpr (f : VF) : MajorOpcode.Statement (.vcmpr f) := of_major (major_vf ..) (by decide) rfl
theorem MajorOpcode.vredsum (f : VF) : MajorOpcode.Statement (.vredsum f) := of_major (major_vf ..) (by decide) rfl
theorem MajorOpcode.vredmax (f : VF) : MajorOpcode.Statement (.vredmax f) := of_major (major_vf ..) (by decide) rfl
theorem MajorOpcode.vredmin (f : VF) : MajorOpcode.Statement (.vredmin f) := of_major (major_vf ..) (by decide) rfl
theorem MajorOpcode.vfredsum (f : VF) : MajorOpcode.Statement (.vfredsum f) := of_major (major_vf ..) (by decide) rfl
theorem MajorOpcode.vfredmax (f : VF) : MajorOpcode.Statement (.vfredmax f) := of_major (major_vf ..) (by decide) rfl
theorem MajorOpcode.vfredmin (f : VF) : MajorOpcode.Statement (.vfredmin f) := of_major (major_vf ..) (by decide) rfl
theorem MajorOpcode.vargmax (f : VF) : MajorOpcode.Statement (.vargmax f) := of_major (major_vf ..) (by decide) rfl
theorem MajorOpcode.vspsel (f : VF) : MajorOpcode.Statement (.vspsel f) := of_major (major_vf ..) (by decide) rfl
theorem MajorOpcode.vconfl (f : VF) : MajorOpcode.Statement (.vconfl f) := of_major (major_vf ..) (by decide) rfl
theorem MajorOpcode.vfcomb (f : VF) : MajorOpcode.Statement (.vfcomb f) := of_major (major_vf ..) (by decide) rfl
theorem MajorOpcode.capp (f : VF) : MajorOpcode.Statement (.capp f) := of_major (major_vf ..) (by decide) rfl
theorem MajorOpcode.setvl (f : SF) : MajorOpcode.Statement (.setvl f) := of_major (major_packS ..) (by decide) rfl
theorem MajorOpcode.setvli (f : IF) : MajorOpcode.Statement (.setvli f) := of_major (major_packI ..) (by decide) rfl
theorem MajorOpcode.vld (f : VMF) : MajorOpcode.Statement (.vld f) := of_major (major_vmf ..) (by decide) rfl
theorem MajorOpcode.vlds (f : VMF) : MajorOpcode.Statement (.vlds f) := of_major (major_vmf ..) (by decide) rfl
theorem MajorOpcode.vldx (f : VMF) : MajorOpcode.Statement (.vldx f) := of_major (major_vmf ..) (by decide) rfl
theorem MajorOpcode.vldt (f : VMF) : MajorOpcode.Statement (.vldt f) := of_major (major_vmf ..) (by decide) rfl
theorem MajorOpcode.vst (f : VMF) : MajorOpcode.Statement (.vst f) := of_major (major_vmf ..) (by decide) rfl
theorem MajorOpcode.vsts (f : VMF) : MajorOpcode.Statement (.vsts f) := of_major (major_vmf ..) (by decide) rfl
theorem MajorOpcode.vstx (f : VMF) : MajorOpcode.Statement (.vstx f) := of_major (major_vmf ..) (by decide) rfl
theorem MajorOpcode.vstt (f : VMF) : MajorOpcode.Statement (.vstt f) := of_major (major_vmf ..) (by decide) rfl
theorem MajorOpcode.vldff (f : VMF) : MajorOpcode.Statement (.vldff f) := of_major (major_vmf ..) (by decide) rfl
theorem MajorOpcode.vldv (f : VMF) : MajorOpcode.Statement (.vldv f) := of_major (major_vmf ..) (by decide) rfl
theorem MajorOpcode.vstv (f : VMF) : MajorOpcode.Statement (.vstv f) := of_major (major_vmf ..) (by decide) rfl
theorem MajorOpcode.vldxa (f : VMF) : MajorOpcode.Statement (.vldxa f) := of_major (major_vmf ..) (by decide) rfl
theorem MajorOpcode.vstxr (f : VMF) : MajorOpcode.Statement (.vstxr f) := of_major (major_vmf ..) (by decide) rfl
theorem MajorOpcode.vamoadd (f : VMF) : MajorOpcode.Statement (.vamoadd f) := of_major (major_vmf ..) (by decide) rfl
theorem MajorOpcode.vamomin (f : VMF) : MajorOpcode.Statement (.vamomin f) := of_major (major_vmf ..) (by decide) rfl
theorem MajorOpcode.vamomax (f : VMF) : MajorOpcode.Statement (.vamomax f) := of_major (major_vmf ..) (by decide) rfl
theorem MajorOpcode.vamoswp (f : VMF) : MajorOpcode.Statement (.vamoswp f) := of_major (major_vmf ..) (by decide) rfl
theorem MajorOpcode.fence (f : IF) : MajorOpcode.Statement (.fence f) := of_major (major_packI ..) (by decide) rfl
theorem MajorOpcode.kand (f : VF) : MajorOpcode.Statement (.kand f) := of_major (major_vf ..) (by decide) rfl
theorem MajorOpcode.kor (f : VF) : MajorOpcode.Statement (.kor f) := of_major (major_vf ..) (by decide) rfl
theorem MajorOpcode.kxor (f : VF) : MajorOpcode.Statement (.kxor f) := of_major (major_vf ..) (by decide) rfl
theorem MajorOpcode.knot (f : VF) : MajorOpcode.Statement (.knot f) := of_major (major_vf ..) (by decide) rfl
theorem MajorOpcode.kmov (f : VF) : MajorOpcode.Statement (.kmov f) := of_major (major_vf ..) (by decide) rfl
theorem MajorOpcode.kffs (f : VF) : MajorOpcode.Statement (.kffs f) := of_major (major_vf ..) (by decide) rfl
theorem MajorOpcode.kpopc (f : VF) : MajorOpcode.Statement (.kpopc f) := of_major (major_vf ..) (by decide) rfl
theorem MajorOpcode.hvset (f : VF) : MajorOpcode.Statement (.hvset f) := of_major (major_vf ..) (by decide) rfl
theorem MajorOpcode.hvrand (f : VF) : MajorOpcode.Statement (.hvrand f) := of_major (major_vf ..) (by decide) rfl
theorem MajorOpcode.hvbind (f : VF) : MajorOpcode.Statement (.hvbind f) := of_major (major_vf ..) (by decide) rfl
theorem MajorOpcode.hvperm (f : VF) : MajorOpcode.Statement (.hvperm f) := of_major (major_vf ..) (by decide) rfl
theorem MajorOpcode.hvbund (f : VF) : MajorOpcode.Statement (.hvbund f) := of_major (major_vf ..) (by decide) rfl
theorem MajorOpcode.hvmaj (f : VF) : MajorOpcode.Statement (.hvmaj f) := of_major (major_vf ..) (by decide) rfl
theorem MajorOpcode.hvsim (f : VF) : MajorOpcode.Statement (.hvsim f) := of_major (major_vf ..) (by decide) rfl
theorem MajorOpcode.hvclean (f : VF) : MajorOpcode.Statement (.hvclean f) := of_major (major_vf ..) (by decide) rfl
theorem MajorOpcode.hvfact (f : VF) : MajorOpcode.Statement (.hvfact f) := of_major (major_vf ..) (by decide) rfl
theorem MajorOpcode.hvstat (f : VF) : MajorOpcode.Statement (.hvstat f) := of_major (major_vf ..) (by decide) rfl
theorem MajorOpcode.skset (f : VF) : MajorOpcode.Statement (.skset f) := of_major (major_vf ..) (by decide) rfl
theorem MajorOpcode.skfeed (f : VF) : MajorOpcode.Statement (.skfeed f) := of_major (major_vf ..) (by decide) rfl
theorem MajorOpcode.skest (f : VF) : MajorOpcode.Statement (.skest f) := of_major (major_vf ..) (by decide) rfl
theorem MajorOpcode.skstat (f : VF) : MajorOpcode.Statement (.skstat f) := of_major (major_vf ..) (by decide) rfl
theorem MajorOpcode.skclr (f : VF) : MajorOpcode.Statement (.skclr f) := of_major (major_vf ..) (by decide) rfl
theorem MajorOpcode.matt (f : VF) : MajorOpcode.Statement (.matt f) := of_major (major_vf ..) (by decide) rfl
theorem MajorOpcode.mdet (f : VF) : MajorOpcode.Statement (.mdet f) := of_major (major_vf ..) (by decide) rfl
theorem MajorOpcode.mzero (f : VF) : MajorOpcode.Statement (.mzero f) := of_major (major_vf ..) (by decide) rfl
theorem MajorOpcode.mma (f : TF) : MajorOpcode.Statement (.mma f) := of_major (major_tf ..) (by decide) rfl
theorem MajorOpcode.mldb (f : TF) : MajorOpcode.Statement (.mldb f) := of_major (major_tf ..) (by decide) rfl
theorem MajorOpcode.mst (f : TF) : MajorOpcode.Statement (.mst f) := of_major (major_tf ..) (by decide) rfl
theorem MajorOpcode.mgemv (f : TF) : MajorOpcode.Statement (.mgemv f) := of_major (major_tf ..) (by decide) rfl
theorem MajorOpcode.strm (f : VF) : MajorOpcode.Statement (.strm f) := of_major (major_vf ..) (by decide) rfl
theorem MajorOpcode.savail (f : VF) : MajorOpcode.Statement (.savail f) := of_major (major_vf ..) (by decide) rfl
theorem MajorOpcode.swait (f : VF) : MajorOpcode.Statement (.swait f) := of_major (major_vf ..) (by decide) rfl
theorem MajorOpcode.scancel (f : VF) : MajorOpcode.Statement (.scancel f) := of_major (major_vf ..) (by decide) rfl
theorem MajorOpcode.ssusp (f : VF) : MajorOpcode.Statement (.ssusp f) := of_major (major_vf ..) (by decide) rfl
theorem MajorOpcode.sresm (f : VF) : MajorOpcode.Statement (.sresm f) := of_major (major_vf ..) (by decide) rfl
theorem MajorOpcode.vldp (f : VF) : MajorOpcode.Statement (.vldp f) := of_major (major_vf ..) (by decide) rfl
theorem MajorOpcode.vstp (f : VF) : MajorOpcode.Statement (.vstp f) := of_major (major_vf ..) (by decide) rfl
theorem MajorOpcode.vstc (f : VF) : MajorOpcode.Statement (.vstc f) := of_major (major_vf ..) (by decide) rfl
theorem MajorOpcode.vldc (f : VF) : MajorOpcode.Statement (.vldc f) := of_major (major_vf ..) (by decide) rfl
theorem MajorOpcode.cwait (f : VF) : MajorOpcode.Statement (.cwait f) := of_major (major_vf ..) (by decide) rfl
theorem MajorOpcode.dpost (f : VF) : MajorOpcode.Statement (.dpost f) := of_major (major_vf ..) (by decide) rfl
theorem MajorOpcode.dposta (f : VF) : MajorOpcode.Statement (.dposta f) := of_major (major_vf ..) (by decide) rfl
theorem MajorOpcode.xtrim (f : VF) : MajorOpcode.Statement (.xtrim f) := of_major (major_vf ..) (by decide) rfl
theorem MajorOpcode.xgo (f : VF) : MajorOpcode.Statement (.xgo f) := of_major (major_vf ..) (by decide) rfl
theorem MajorOpcode.xwait (f : VF) : MajorOpcode.Statement (.xwait f) := of_major (major_vf ..) (by decide) rfl
theorem MajorOpcode.xstat (f : VF) : MajorOpcode.Statement (.xstat f) := of_major (major_vf ..) (by decide) rfl
theorem MajorOpcode.cset (f : KF) : MajorOpcode.Statement (.cset f) := of_major (major_packS ..) (by decide) rfl
theorem MajorOpcode.csrrd (f : CF) : MajorOpcode.Statement (.csrrd f) := of_major (major_packC ..) (by decide) rfl
theorem MajorOpcode.csrwr (f : CF) : MajorOpcode.Statement (.csrwr f) := of_major (major_packC ..) (by decide) rfl
theorem MajorOpcode.csrset (f : CF) : MajorOpcode.Statement (.csrset f) := of_major (major_packC ..) (by decide) rfl
theorem MajorOpcode.csrclr (f : CF) : MajorOpcode.Statement (.csrclr f) := of_major (major_packC ..) (by decide) rfl
theorem MajorOpcode.trap (f : CF) : MajorOpcode.Statement (.trap f) := of_major (major_packC ..) (by decide) rfl
theorem MajorOpcode.tret (f : CF) : MajorOpcode.Statement (.tret f) := of_major (major_packC ..) (by decide) rfl
theorem MajorOpcode.wfe (f : CF) : MajorOpcode.Statement (.wfe f) := of_major (major_packC ..) (by decide) rfl
theorem MajorOpcode.sev (f : CF) : MajorOpcode.Statement (.sev f) := of_major (major_packC ..) (by decide) rfl
theorem MajorOpcode.pause (f : CF) : MajorOpcode.Statement (.pause f) := of_major (major_packC ..) (by decide) rfl
theorem MajorOpcode.tend (f : CF) : MajorOpcode.Statement (.tend f) := of_major (major_packC ..) (by decide) rfl
theorem MajorOpcode.bjoin (f : SF) : MajorOpcode.Statement (.bjoin f) := of_major (major_packS ..) (by decide) rfl
theorem MajorOpcode.bleave (f : SF) : MajorOpcode.Statement (.bleave f) := of_major (major_packS ..) (by decide) rfl
theorem MajorOpcode.barr (f : SF) : MajorOpcode.Statement (.barr f) := of_major (major_packS ..) (by decide) rfl
theorem MajorOpcode.bwait (f : SF) : MajorOpcode.Statement (.bwait f) := of_major (major_packS ..) (by decide) rfl
theorem MajorOpcode.barw (f : SF) : MajorOpcode.Statement (.barw f) := of_major (major_packS ..) (by decide) rfl
theorem MajorOpcode.btest (f : SF) : MajorOpcode.Statement (.btest f) := of_major (major_packS ..) (by decide) rfl
theorem MajorOpcode.waitc (f : SF) : MajorOpcode.Statement (.waitc f) := of_major (major_packS ..) (by decide) rfl
theorem MajorOpcode.qpost (f : SF) : MajorOpcode.Statement (.qpost f) := of_major (major_packS ..) (by decide) rfl
theorem MajorOpcode.swappg (f : SF) : MajorOpcode.Statement (.swappg f) := of_major (major_packS ..) (by decide) rfl
theorem MajorOpcode.tlbinv (f : SF) : MajorOpcode.Statement (.tlbinv f) := of_major (major_packS ..) (by decide) rfl
theorem MajorOpcode.savectx (f : SF) : MajorOpcode.Statement (.savectx f) := of_major (major_packS ..) (by decide) rfl
theorem MajorOpcode.tlbinvRetire : MajorOpcode.Statement .tlbinvRetire := ⟨fun _ => rfl, fun _ => rfl⟩
theorem MajorOpcode.swapSubblockMove (swap : Nat) : MajorOpcode.Statement (.swapSubblockMove swap) := ⟨fun _ => rfl, fun _ => rfl⟩
theorem MajorOpcode.swapComplete (swap : Nat) : MajorOpcode.Statement (.swapComplete swap) := ⟨fun _ => rfl, fun _ => rfl⟩
theorem MajorOpcode.homeAtomic (r : RemoteAtomic) : MajorOpcode.Statement (.homeAtomic r) := ⟨fun _ => rfl, fun _ => rfl⟩
theorem MajorOpcode.vamoswpOldValue (thr : Nat) : MajorOpcode.Statement (.vamoswpOldValue thr) := ⟨fun _ => rfl, fun _ => rfl⟩
theorem MajorOpcode.clusterSpanPacket (n : Nat) : MajorOpcode.Statement (.clusterSpanPacket n) := ⟨fun _ => rfl, fun _ => rfl⟩
theorem MajorOpcode.gatherResponse (n : Nat) : MajorOpcode.Statement (.gatherResponse n) := ⟨fun _ => rfl, fun _ => rfl⟩
theorem MajorOpcode.streamDispatch (core port : Nat) : MajorOpcode.Statement (.streamDispatch core port) := ⟨fun _ => rfl, fun _ => rfl⟩
theorem MajorOpcode.streamElementGroup (core port : Nat) : MajorOpcode.Statement (.streamElementGroup core port) := ⟨fun _ => rfl, fun _ => rfl⟩
theorem MajorOpcode.streamComplete (core port : Nat) : MajorOpcode.Statement (.streamComplete core port) := ⟨fun _ => rfl, fun _ => rfl⟩
theorem MajorOpcode.streamStop (core port : Nat) : MajorOpcode.Statement (.streamStop core port) := ⟨fun _ => rfl, fun _ => rfl⟩
theorem MajorOpcode.portDisplace (core port thr : Nat) : MajorOpcode.Statement (.portDisplace core port thr) := ⟨fun _ => rfl, fun _ => rfl⟩
theorem MajorOpcode.attachmentReacquire (thr : Nat) : MajorOpcode.Statement (.attachmentReacquire thr) := ⟨fun _ => rfl, fun _ => rfl⟩
theorem MajorOpcode.matrixPass (cluster : Nat) : MajorOpcode.Statement (.matrixPass cluster) := ⟨fun _ => rfl, fun _ => rfl⟩
theorem MajorOpcode.tileWrite (cluster : Nat) : MajorOpcode.Statement (.tileWrite cluster) := ⟨fun _ => rfl, fun _ => rfl⟩
theorem MajorOpcode.mgemvRow (core port row : Nat) : MajorOpcode.Statement (.mgemvRow core port row) := ⟨fun _ => rfl, fun _ => rfl⟩
theorem MajorOpcode.factoringBufferTake (core thr : Nat) : MajorOpcode.Statement (.factoringBufferTake core thr) := ⟨fun _ => rfl, fun _ => rfl⟩
theorem MajorOpcode.collectivePacket (p : CollPacket) : MajorOpcode.Statement (.collectivePacket p) := ⟨fun _ => rfl, fun _ => rfl⟩
theorem MajorOpcode.arrivalReport (p : CollPacket) : MajorOpcode.Statement (.arrivalReport p) := ⟨fun _ => rfl, fun _ => rfl⟩
theorem MajorOpcode.collectiveDeadline (gid : Nat) : MajorOpcode.Statement (.collectiveDeadline gid) := ⟨fun _ => rfl, fun _ => rfl⟩
theorem MajorOpcode.homeCombine (gid home : Nat) (told : Option SetMsg) : MajorOpcode.Statement (.homeCombine gid home told) := ⟨fun _ => rfl, fun _ => rfl⟩
theorem MajorOpcode.roundRelease (gid : Nat) (told : Option ReleaseMsg) (homes : List HomeMsg) : MajorOpcode.Statement (.roundRelease gid told homes) := ⟨fun _ => rfl, fun _ => rfl⟩
theorem MajorOpcode.memberDead (dev : Nat) : MajorOpcode.Statement (.memberDead dev) := ⟨fun _ => rfl, fun _ => rfl⟩
theorem MajorOpcode.demandRow (m : DemandMsg) : MajorOpcode.Statement (.demandRow m) := ⟨fun _ => rfl, fun _ => rfl⟩
theorem MajorOpcode.calendarDeadline (gid : Nat) : MajorOpcode.Statement (.calendarDeadline gid) := ⟨fun _ => rfl, fun _ => rfl⟩
theorem MajorOpcode.grantWrite (gid : Nat) (told : Option GrantsMsg) : MajorOpcode.Statement (.grantWrite gid told) := ⟨fun _ => rfl, fun _ => rfl⟩
theorem MajorOpcode.sheetStart (gid sheet : Nat) : MajorOpcode.Statement (.sheetStart gid sheet) := ⟨fun _ => rfl, fun _ => rfl⟩
theorem MajorOpcode.exchangeBytes (m : ExchangeMsg) : MajorOpcode.Statement (.exchangeBytes m) := ⟨fun _ => rfl, fun _ => rfl⟩
theorem MajorOpcode.readyFlit (m : ReadyMsg) : MajorOpcode.Statement (.readyFlit m) := ⟨fun _ => rfl, fun _ => rfl⟩
theorem MajorOpcode.looseTailStart (gid : Nat) : MajorOpcode.Statement (.looseTailStart gid) := ⟨fun _ => rfl, fun _ => rfl⟩
theorem MajorOpcode.imposerHeartbeat (gid : Nat) (heard : Bool) : MajorOpcode.Statement (.imposerHeartbeat gid heard) := ⟨fun _ => rfl, fun _ => rfl⟩
theorem MajorOpcode.standbyTakeover (gid : Nat) : MajorOpcode.Statement (.standbyTakeover gid) := ⟨fun _ => rfl, fun _ => rfl⟩
theorem MajorOpcode.leaveGrant : MajorOpcode.Statement .leaveGrant := ⟨fun _ => rfl, fun _ => rfl⟩
theorem MajorOpcode.leaveExpiry (n : Nat) : MajorOpcode.Statement (.leaveExpiry n) := ⟨fun _ => rfl, fun _ => rfl⟩
theorem MajorOpcode.renewalTimeout (n : Nat) : MajorOpcode.Statement (.renewalTimeout n) := ⟨fun _ => rfl, fun _ => rfl⟩
theorem MajorOpcode.deckCurrentSample (ia ib : Nat) : MajorOpcode.Statement (.deckCurrentSample ia ib) := ⟨fun _ => rfl, fun _ => rfl⟩
theorem MajorOpcode.launchPortWrite (off size : Nat) (data : BitVec 512) : MajorOpcode.Statement (.launchPortWrite off size data) := ⟨fun _ => rfl, fun _ => rfl⟩
theorem MajorOpcode.launchPacket (slot : Nat) : MajorOpcode.Statement (.launchPacket slot) := ⟨fun _ => rfl, fun _ => rfl⟩
theorem MajorOpcode.waitcPacket (slot : Nat) : MajorOpcode.Statement (.waitcPacket slot) := ⟨fun _ => rfl, fun _ => rfl⟩
theorem MajorOpcode.signalPacket (slot : Nat) : MajorOpcode.Statement (.signalPacket slot) := ⟨fun _ => rfl, fun _ => rfl⟩
theorem MajorOpcode.setdetPacket (slot : Nat) : MajorOpcode.Statement (.setdetPacket slot) := ⟨fun _ => rfl, fun _ => rfl⟩
theorem MajorOpcode.drainPacket (slot : Nat) : MajorOpcode.Statement (.drainPacket slot) := ⟨fun _ => rfl, fun _ => rfl⟩
theorem MajorOpcode.markPacket (slot : Nat) : MajorOpcode.Statement (.markPacket slot) := ⟨fun _ => rfl, fun _ => rfl⟩
theorem MajorOpcode.counterReread (slot : Nat) : MajorOpcode.Statement (.counterReread slot) := ⟨fun _ => rfl, fun _ => rfl⟩
theorem MajorOpcode.dispatch : MajorOpcode.Statement .dispatch := ⟨fun _ => rfl, fun _ => rfl⟩
theorem MajorOpcode.preempt (groups : Nat) : MajorOpcode.Statement (.preempt groups) := ⟨fun _ => rfl, fun _ => rfl⟩
theorem MajorOpcode.quantumExpiry (groups : Nat) : MajorOpcode.Statement (.quantumExpiry groups) := ⟨fun _ => rfl, fun _ => rfl⟩
theorem MajorOpcode.preemptSave (thr : Nat) : MajorOpcode.Statement (.preemptSave thr) := ⟨fun _ => rfl, fun _ => rfl⟩
theorem MajorOpcode.restore : MajorOpcode.Statement .restore := ⟨fun _ => rfl, fun _ => rfl⟩
theorem MajorOpcode.unpark : MajorOpcode.Statement .unpark := ⟨fun _ => rfl, fun _ => rfl⟩
theorem MajorOpcode.ctxctlMakeResident (v : Word) : MajorOpcode.Statement (.ctxctlMakeResident v) := ⟨fun _ => rfl, fun _ => rfl⟩
theorem MajorOpcode.ctxctlKill (v : Word) : MajorOpcode.Statement (.ctxctlKill v) := ⟨fun _ => rfl, fun _ => rfl⟩
theorem MajorOpcode.tfwd (v : Word) : MajorOpcode.Statement (.tfwd v) := ⟨fun _ => rfl, fun _ => rfl⟩
theorem MajorOpcode.ckillRead : MajorOpcode.Statement .ckillRead := ⟨fun _ => rfl, fun _ => rfl⟩
theorem MajorOpcode.qdescEnable (slot : Nat) (v : Word) : MajorOpcode.Statement (.qdescEnable slot v) := ⟨fun _ => rfl, fun _ => rfl⟩
theorem MajorOpcode.qdescDisable (slot : Nat) (v : Word) : MajorOpcode.Statement (.qdescDisable slot v) := ⟨fun _ => rfl, fun _ => rfl⟩
theorem MajorOpcode.mcrec0Clear (v : Word) : MajorOpcode.Statement (.mcrec0Clear v) := ⟨fun _ => rfl, fun _ => rfl⟩
theorem MajorOpcode.alog0Clear (v : Word) : MajorOpcode.Statement (.alog0Clear v) := ⟨fun _ => rfl, fun _ => rfl⟩
theorem MajorOpcode.llog0Clear (v : Word) : MajorOpcode.Statement (.llog0Clear v) := ⟨fun _ => rfl, fun _ => rfl⟩
theorem MajorOpcode.secntClear (i : Nat) : MajorOpcode.Statement (.secntClear i) := ⟨fun _ => rfl, fun _ => rfl⟩
theorem MajorOpcode.configWrite (off : Nat) (v : HostWrite) : MajorOpcode.Statement (.configWrite off v) := ⟨fun _ => rfl, fun _ => rfl⟩
theorem MajorOpcode.kernelLoad (v : Word) : MajorOpcode.Statement (.kernelLoad v) := ⟨fun _ => rfl, fun _ => rfl⟩
theorem MajorOpcode.kernelUnload (v : Word) : MajorOpcode.Statement (.kernelUnload v) := ⟨fun _ => rfl, fun _ => rfl⟩
theorem MajorOpcode.kernelLoadDone : MajorOpcode.Statement .kernelLoadDone := ⟨fun _ => rfl, fun _ => rfl⟩
theorem MajorOpcode.attcmdGo (v : Word) : MajorOpcode.Statement (.attcmdGo v) := ⟨fun _ => rfl, fun _ => rfl⟩
theorem MajorOpcode.attestationReport : MajorOpcode.Statement .attestationReport := ⟨fun _ => rfl, fun _ => rfl⟩
theorem MajorOpcode.deviceReset : MajorOpcode.Statement .deviceReset := ⟨fun _ => rfl, fun _ => rfl⟩
theorem MajorOpcode.hostCxlMemAccess (r : RemoteAccess) : MajorOpcode.Statement (.hostCxlMemAccess r) := ⟨fun _ => rfl, fun _ => rfl⟩
theorem MajorOpcode.hbmPatrolScrub (addr : Nat) : MajorOpcode.Statement (.hbmPatrolScrub addr) := ⟨fun _ => rfl, fun _ => rfl⟩
theorem MajorOpcode.vaultPatrolScrub (addr : Nat) : MajorOpcode.Statement (.vaultPatrolScrub addr) := ⟨fun _ => rfl, fun _ => rfl⟩
theorem MajorOpcode.tsvParityRetry (stack chan : Nat) (write : Bool) (retries : Nat) : MajorOpcode.Statement (.tsvParityRetry stack chan write retries) := ⟨fun _ => rfl, fun _ => rfl⟩
theorem MajorOpcode.laneTest (stack chan : Nat) (write : Bool) (lane addr : Nat) (passed : Bool) : MajorOpcode.Statement (.laneTest stack chan write lane addr passed) := ⟨fun _ => rfl, fun _ => rfl⟩
theorem MajorOpcode.bondLaneSwap (core bank lane : Nat) : MajorOpcode.Statement (.bondLaneSwap core bank lane) := ⟨fun _ => rfl, fun _ => rfl⟩
theorem MajorOpcode.remapPoisonWalk (vault : Bool) (unit chan bank group : Nat) : MajorOpcode.Statement (.remapPoisonWalk vault unit chan bank group) := ⟨fun _ => rfl, fun _ => rfl⟩
theorem MajorOpcode.remoteDomainAccess (r : RemoteAccess) : MajorOpcode.Statement (.remoteDomainAccess r) := ⟨fun _ => rfl, fun _ => rfl⟩
theorem MajorOpcode.dtimeDiscipline (dtime : Nat) (offset : Int) : MajorOpcode.Statement (.dtimeDiscipline dtime offset) := ⟨fun _ => rfl, fun _ => rfl⟩

end Sys2Proof.Laws
end

