-- ==== Sys2Proof/Laws/Shared.lean ====
section
/-! SUPPORT. One lemma for each shared operation: all that it can do when it answers a next state, and what it does
when nothing is in its way. -/

namespace Sys2Proof.Machine

variable {s t u : State} {gs : List Reg} {k : State → Host.Outcome State Fault Refusal}

/-! ## The scoreboard (R213) -/

theorem State.gate_go (h : s.Free gs) : s.gate gs = .go := by
  unfold State.gate
  rw [show s.pendingPort gs = none from h]

/-- With no pending token among its registers a scalar instruction acts on what its thread now sees. -/
theorem scalar_free (h : s.Free gs) : scalar gs s k = k (s.seen gs) := by
  unfold scalar
  rw [State.gate_go h]
  rfl

/-- A scalar instruction that answers a next state has waited, has delivered a recorded fault, or has acted. -/
theorem scalar_next (h : scalar gs s k = .next t) :
    (∃ v, s.gate gs = .wait v ∧ t = v) ∨ (∃ v f, s.gate gs = .fault v f ∧ t = v.trap f.cause f.addr)
      ∨ (s.gate gs = .go ∧ k (s.seen gs) = .next t) := by
  unfold scalar at h
  split at h
  · exact .inl ⟨_, by assumption, by cases h; rfl⟩
  · exact .inr (.inl ⟨_, _, by assumption, by cases h; rfl⟩)
  · exact .inr (.inr ⟨by assumption, h⟩)

/-- A gate is open only when no pending token is among the registers. -/
theorem State.free_of_gate (h : s.gate gs = .go) : s.Free gs := by
  unfold State.gate at h
  split at h
  · assumption
  · split at h
    · cases h
    · split at h <;> cases h

/-- No register, no token. -/
theorem State.free_nil : s.Free [] := by
  simp [State.Free, State.pendingPort]

@[simp] theorem State.seen_nil : s.seen [] = s := by
  simp [State.seen, State.observe]

/-- What a thread has seen changes no register of its logical core but the tokens not yet read. -/
theorem State.lc_seen : ∃ l, (s.seen gs).lc = { s.lc with unseen := l } := by
  unfold State.seen State.observe
  dsimp only
  split
  · exact ⟨s.lc.unseen, rfl⟩
  · refine ⟨s.lc.unseen.filter fun u => !(u.1 != 0 && gs.contains u.1), ?_⟩
    unfold State.dropLines
    split
    · simp
    · exact State.lc_setLc s _

/-- What a thread has seen changes nothing outside its thread but the scalar data cache. -/
theorem State.seen_frame : ({ s.seen gs with threads := s.threads, dcache := s.dcache } : State) = s := by
  unfold State.seen State.observe State.dropLines
  dsimp only
  split
  · rfl
  · split <;> rfl

@[simp] theorem State.mem_seen : (s.seen gs).mem = s.mem := by
  have h := congrArg State.mem (State.seen_frame (s := s) (gs := gs))
  exact h
@[simp] theorem State.cur_seen : (s.seen gs).cur = s.cur := by
  have h := congrArg State.cur (State.seen_frame (s := s) (gs := gs))
  exact h
@[simp] theorem State.ports_seen : (s.seen gs).ports = s.ports := by
  have h := congrArg State.ports (State.seen_frame (s := s) (gs := gs))
  exact h
@[simp] theorem State.gov_seen : (s.seen gs).gov = s.gov := by
  have h := congrArg State.gov (State.seen_frame (s := s) (gs := gs))
  exact h
@[simp] theorem State.host_seen : (s.seen gs).host = s.host := by
  have h := congrArg State.host (State.seen_frame (s := s) (gs := gs))
  exact h
@[simp] theorem State.passes_seen : (s.seen gs).passes = s.passes := by
  have h := congrArg State.passes (State.seen_frame (s := s) (gs := gs))
  exact h

@[simp] theorem State.rd_seen (r : Reg) : (s.seen gs).lc.rd r = s.lc.rd r := by
  obtain ⟨l, h⟩ := State.lc_seen (s := s) (gs := gs)
  rw [h]
  rfl

@[simp] theorem State.pc_seen : (s.seen gs).lc.pc = s.lc.pc := by
  obtain ⟨l, h⟩ := State.lc_seen (s := s) (gs := gs)
  rw [h]

@[simp] theorem State.vstart_seen : (s.seen gs).lc.vstart = s.lc.vstart := by
  obtain ⟨l, h⟩ := State.lc_seen (s := s) (gs := gs)
  rw [h]

/-! ## Releases (R184, R189) -/

/-- Whether what a command waits for needs the thread depends on the ports and on the commands displaced from them. -/
theorem State.stuck_congr (hp : t.ports = s.ports) (hc : t.cur = s.cur) (hd : t.lc.displaced = s.lc.displaced) (n : Nat) (l : FMap Nat) :
    t.stuck n l = s.stuck n l := by
  have hm : ∀ p, t.myCmds p = s.myCmds p := fun p => by simp [State.myCmds, State.port, State.core, hp, hc, LCore.displacedAt, hd]
  induction n generalizing l with
  | zero => rfl
  | succ n ih => simp only [State.stuck, hm, LCore.displacedAt, hd, ih]

/-- What VSTP has pushed depends on the ports and on the commands displaced from them. -/
theorem State.owes_congr (hp : t.ports = s.ports) (hc : t.cur = s.cur) (hd : t.lc.displaced = s.lc.displaced) : t.owes = s.owes := by
  have ho : ∀ p, t.ownCmds p = s.ownCmds p := fun p => by simp [State.ownCmds, State.port, State.core, hp, hc]
  have hs : t.stuck 16 = s.stuck 16 := funext fun l => State.stuck_congr hp hc hd 16 l
  simp only [State.owes, ho, hs]

@[simp] theorem State.owes_seen : (s.seen gs).owes = s.owes := by
  obtain ⟨l, hl⟩ := State.lc_seen (s := s) (gs := gs)
  have h := State.seen_frame (s := s) (gs := gs)
  have hp := congrArg State.ports h
  have hc := congrArg State.cur h
  exact State.owes_congr hp hc (by rw [hl])

/-- A release with nothing of VSTP on its way acts. -/
theorem afterPushes_go {rel : Bool} (h : rel = true → s.owes = false) : afterPushes rel k s = k s := by
  cases rel <;> simp_all [afterPushes]

theorem afterPushes_waits (h : s.owes = true) : afterPushes true k s = .next (s.waiting .other) := by
  simp [afterPushes, h]

/-- A release that answers a next state has waited for what VSTP has pushed, or has acted. -/
theorem afterPushes_next {rel : Bool} (h : afterPushes rel k s = .next t) :
    (rel = true ∧ s.owes = true ∧ t = s.waiting .other) ∨ k s = .next t := by
  unfold afterPushes at h
  split at h
  · rename_i hw
    simp only [Bool.and_eq_true] at hw
    exact .inl ⟨hw.1, hw.2, by cases h; rfl⟩
  · exact .inr h

/-! ## Cluster-span packets and stops (R117, R241) -/

/-- Packing keeps every element, in order. -/
theorem packGroups_flatten {α : Type} (n : Nat) (gs : List (List α)) : (packGroups n gs).flatten = gs.flatten := by
  suffices h : ∀ (ps : List (List α)), (gs.foldl (fun ps g =>
      match ps.getLast? with
      | some p => if p.length + g.length ≤ n then ps.dropLast ++ [p ++ g] else ps ++ [g]
      | none => [g]) ps).flatten = ps.flatten ++ gs.flatten from h []
  induction gs with
  | nil => simp
  | cons g gs ih =>
    intro ps
    rw [List.foldl_cons, ih]
    cases hl : ps.getLast? with
    | none => simp [List.getLast?_eq_none_iff.mp hl]
    | some p =>
      obtain ⟨q, rfl⟩ := List.getLast?_eq_some_iff.mp hl
      dsimp only
      split <;> simp

/-- A stop ends a convoy at VSTART or later, below the element of a trap, else no later than VL. -/
theorem State.convoyStop_some {vl e : Nat} {stop : Option (Nat × Stop)} (h : s.convoyStop vl stop = some e) :
    s.lc.vstart.toNat ≤ e ∧ (∀ x, stop = some x → e < x.1) ∧ (stop = none → e ≤ max s.lc.vstart.toNat vl) := by
  cases stop with
  | some x =>
    simp only [State.convoyStop, State.stopAt, State.groupEnd, Option.filter_eq_some_iff, Option.map_eq_some_iff] at h
    obtain ⟨⟨j, -, rfl⟩, h⟩ := h
    simp at h
    refine ⟨by omega, ?_, by simp⟩
    rintro y ⟨rfl⟩
    omega
  | none =>
    simp only [State.convoyStop, State.groupEnd, Option.filter_eq_some_iff, Option.map_eq_some_iff] at h
    obtain ⟨a, ⟨⟨j, -, rfl⟩, -⟩, rfl⟩ := h
    exact ⟨by omega, by simp, by omega⟩

/-! ## Serial instructions (R264) -/

/-- An instruction that waits for earlier ones to complete: with none outstanding it is a scalar instruction. -/
theorem serial_drained (h : s.notDrained = false) : serial gs s k = scalar gs s k := by
  simp [serial, h]

theorem serial_next (h : serial gs s k = .next t) :
    (s.notDrained = true ∧ t = s.waiting .other) ∨ (s.notDrained = false ∧ scalar gs s k = .next t) := by
  unfold serial at h
  split at h
  · exact .inl ⟨by assumption, by cases h; rfl⟩
  · exact .inr ⟨Bool.eq_false_iff.2 (by assumption), h⟩

/-! ## The checks of R78 -/

/-- An instruction that is no member, its checks passed and its registers ready, acts. -/
theorem checked_passes {x : Member} (h : s.Passes x) : checked x s k = k (s.seen x.gs) := by
  unfold checked
  rw [h.arrived, h.passes]
  exact scalar_free h.free

theorem checked_next {x : Member} (h : checked x s k = .next t) :
    (s.lc.awaits x.groups = true ∧ t = s.waiting .other)
      ∨ (∃ cause n, issueCheck s.lc none [x] = some (cause, n) ∧ t = s.trap cause (x.word.setWidth 64))
      ∨ (issueCheck s.lc none [x] = none ∧ scalar x.gs s k = .next t) := by
  unfold checked at h
  split at h
  · exact .inl ⟨by assumption, by cases h; rfl⟩
  · split at h
    · exact .inr (.inl ⟨_, _, by assumption, by cases h; rfl⟩)
    · exact .inr (.inr ⟨by assumption, h⟩)

/-- In a window a member has its effect alone. -/
theorem member_window {i : Instr} {eff : Window → State → State} {w : Window} (h : s.win = some w) :
    member i eff s = .next (eff w s) := by
  simp [member, h]

/-- A member alone in its convoy, ready, runs its window (R241). -/
theorem member_issues {i : Instr} {eff : Window → State → State} {x : Member} (h : s.Issues i x) :
    member i eff s = runGroup [i] [x] (fun _ w s => eff w s) (s.seen x.gs) := by
  have hg : s.Free (List.flatMap (·.gs) [x]) := by simpa using h.free
  simp only [member, h.alone, issueGroup, List.filterMap_cons, h.member, List.filterMap_nil]
  rw [show (List.flatMap (·.groups) [x]) = x.groups by simp, h.arrived, h.passes]
  simp only [Bool.false_eq_true, if_false]
  rw [scalar_free hg]
  simp

/-- A member that is no memory instruction, alone and ready, has its effect on the elements from VSTART to VL − 1
and completes (R241). -/
theorem member_completes {i : Instr} {eff : Window → State → State} {x : Member} (h : s.Issues i x)
    (hp : x.pipes.contains .memory = false) :
    member i eff s =
      let u := s.seen x.gs
      let v := eff ⟨u.lc.vstart.toNat, u.lc.vl, u.lc.vl, true, [], [], none⟩ u
      .next (v.setLc (v.lc.finish 1 u.lc.vl)) := by
  have hs : (s.seen x.gs).convoyStop (s.seen x.gs).lc.vl none = none := by
    have e : ((s.seen x.gs).thr (s.seen x.gs).cur).stopAsked = none := by
      have hc := State.cur_seen (s := s) (gs := x.gs)
      rw [hc]
      unfold State.seen State.observe State.dropLines
      dsimp only
      split
      · exact h.goesOn
      · split
        · rw [State.thr_setLc_same]
          exact h.goesOn
        · exact (congrArg HThread.stopAsked (State.thr_setLc_same s _)).trans h.goesOn
    unfold State.convoyStop State.groupEnd
    rw [e]
    rfl
  rw [member_issues h]
  have hm : [x].findIdx? (fun y => y.pipes.contains .memory) = none := by simp only [List.findIdx?_cons, hp]; simp
  simp only [runGroup, hm, runWindow, hs, runAll, List.length_singleton]

/-! ## Groups, attachments and the Stick -/

/-- With no group, XFAIL 1 (R370). -/
theorem onGroup_none {g : Nat → Group → Nat → State → Host.Outcome State Fault Refusal} (h : s.lc.cgrp.getLsbD 63 = false) :
    onGroup s g = .next (s.xfail 1) := by
  simp only [onGroup, h, Bool.not_false, if_true]

theorem onGroup_some {g : Nat → Group → Nat → State → Host.Outcome State Fault Refusal} {gid rank : Nat} {x : Group}
    (h : s.lc.cgrp.getLsbD 63 = true) (hg : s.myGroup = some (gid, x, rank)) : onGroup s g = g gid x rank s := by
  simp only [onGroup, h, hg, Bool.not_true, Bool.false_eq_true, if_false]

/-- With no attachment, NOATTACH with the word (R360). -/
theorem attached_none {w : IWord} {g : Attach → State → Host.Outcome State Fault Refusal} (h : s.lc.attach = none) :
    attached w s g = .next (s.trap .noattach (w.setWidth 64)) := by
  simp [attached, h]

theorem attached_some {w : IWord} {g : Attach → State → Host.Outcome State Fault Refusal} {a : Attach} (h : s.lc.attach = some a)
    (hd : a.displaced = false) : attached w s g = g a s := by
  simp [attached, h, hd]

/-- A displaced holder waits for its slots (R352, R360). -/
theorem attached_displaced {w : IWord} {g : Attach → State → Host.Outcome State Fault Refusal} {a : Attach} (h : s.lc.attach = some a)
    (hd : a.displaced = true) : ∃ v, attached w s g = .next v ∧ v.lc.waitFor = .tiles := by
  simp only [attached, h, hd, if_true]
  exact ⟨_, rfl, by simp [State.waiting]⟩

theorem tileChecked_ok {w : IWord} (h : s.Free gs) : tileChecked w false false gs s k = k (s.seen gs) := by
  simp [tileChecked, scalar_free h]

/-! ## Stops (R95, R440) and traps (R420) -/

/-- A stop is a trap, the kill of the context, a wait, or a place that does not exist. -/
theorem State.stopped_cases {why : Stop} {memb : Nat} {v : BitVec 13} :
    (∃ c a, why = .trap c a ∧ s.stopped why memb v = .next (s.deliver ⟨c, a, BitVec.ofNat 2 memb, s.lc.pc, v⟩))
      ∨ (why = .poison ∧ s.stopped why memb v = .next (s.kill s.lc.job.ctx Cause.poison.code s.cur))
      ∨ (why = .held ∧ s.stopped why memb v = .next (s.waiting .other))
      ∨ (∃ a, why = .noPlace a ∧ s.stopped why memb v = .fault (.noSuchPlace a)) := by
  cases why with
  | trap c a => exact .inl ⟨c, a, rfl, rfl⟩
  | poison => exact .inr (.inl ⟨rfl, rfl⟩)
  | held => exact .inr (.inr (.inl ⟨rfl, rfl⟩))
  | noPlace a => exact .inr (.inr (.inr ⟨a, rfl, rfl⟩))

/-- A trap kills the context, or enters a handler with TCAUSE, TVAL, TPC, VSTART, PPRV and TACT written (R420). -/
theorem State.deliverTo_cases (n : Nat) (x : Trap) :
    s.deliverTo n x = s.stamp.kill (s.thr n).lc.job.ctx x.cause.code n
      ∨ ∃ l pc b, s.deliverTo n x = s.stamp.setLcOf n { ((s.thr n).lc.trapped x) with level := l, pc := pc, atRtvec := b } := by
  unfold State.deliverTo
  dsimp only
  split
  · exact .inl rfl
  · split
    · split
      · exact .inl rfl
      · exact .inr ⟨_, _, _, rfl⟩
    · split
      · exact .inr ⟨_, _, _, rfl⟩
      · split
        · exact .inl rfl
        · exact .inr ⟨_, _, _, rfl⟩

/-! ## The step -/

/-- With an empty agenda and no logical core on the thread whose turn it is, the management core boots. -/
theorem step_boot (ha : s.agenda = []) (ho : (s.thr s.cur).occupied = false) : step s = .next s.boot := by
  simp [step, State.advance, ha, ho]

/-- With an empty agenda the thread whose turn it is goes on. -/
theorem step_turn (ha : s.agenda = []) (ho : (s.thr s.cur).occupied = true) : step s = State.turn decodeWord exec s := by
  simp [step, State.advance, ha, ho]

/-- The head of the agenda takes effect. -/
theorem step_act {a : Act} {l : List Act} (ha : s.agenda = a :: l) :
    step s = State.act exec (State.turn decodeWord exec) State.boot { s with agenda := l } a := by
  simp [step, State.advance, ha]

end Sys2Proof.Machine
end

