-- ==== Sys2Proof/Tests/Slice0.lean ====
section
/-! SUPPORT. Tests: words from the spec's encodings and listings, ill-formed terms, results that the spec gives, and,
named `meets_…`, states and operands that meet the hypotheses of each statement, clause by clause. -/

namespace Sys2Proof.Machine

set_option Elab.async false

open Sys2Proof

/-! ## Words written out by the formats of R43 -/

def wordS (fn : BitVec 10) (b a d : Reg) (major : BitVec 7) : IWord := fn ++ b ++ a ++ d ++ major
def wordI (imm : BitVec 15) (a d : Reg) (major : BitVec 7) : IWord := imm ++ a ++ d ++ major
def wordB (off : BitVec 15) (a b : Reg) (major : BitVec 7) : IWord := off ++ a ++ b ++ major
def wordU (imm : BitVec 20) (d : Reg) (major : BitVec 7) : IWord := imm ++ d ++ major
def wordC (csr : BitVec 12) (fn : BitVec 3) (a d : Reg) (major : BitVec 7) : IWord := csr ++ fn ++ a ++ d ++ major
def wordV (fn : BitVec 6) (m cv c2 c1 : BitVec 1) (s2 s1 d : Reg) (major : BitVec 7) : IWord :=
  fn ++ m ++ cv ++ c2 ++ c1 ++ s2 ++ s1 ++ d ++ major
def wordM (fmt : BitVec 4) (mop : BitVec 2) (m cv o c : BitVec 1) (x base d : Reg) (major : BitVec 7) : IWord :=
  fmt ++ mop ++ m ++ cv ++ o ++ c ++ x ++ base ++ d ++ major

/-- Whether the decoder reads each word as the instruction beside it. -/
noncomputable def allRead (l : List (IWord × Instr)) : Bool :=
  l.all fun p => match decode p.1 with
    | .ok i => i == p.2
    | .error _ => false


/-! ## Decoding: words written out from the encodings (R221, R253 and the opcode pages) -/

theorem test_decode_major_01_a : allRead
    [(wordS 0x0 31 7 30 0x01, .add ⟨31, 7, 30⟩),
     (wordS 0x1 3 3 1 0x01, .sub ⟨3, 3, 1⟩),
     (wordS 0x2 12 1 30 0x01, .and ⟨12, 1, 30⟩),
     (wordS 0x3 31 3 1 0x01, .or ⟨31, 3, 1⟩),
     (wordS 0x4 12 3 31 0x01, .xor ⟨12, 3, 31⟩),
     (wordS 0x5 1 31 3 0x01, .sll ⟨1, 31, 3⟩),
     (wordS 0x6 1 12 3 0x01, .srl ⟨1, 12, 3⟩),
     (wordS 0x7 12 1 31 0x01, .sra ⟨12, 1, 31⟩),
     (wordS 0x8 21 7 1 0x01, .slt ⟨21, 7, 1⟩),
     (wordS 0x9 3 7 31 0x01, .sltn ⟨3, 7, 31⟩),
     (wordS 0xa 3 7 21 0x01, .min ⟨3, 7, 21⟩),
     (wordS 0xb 3 30 12 0x01, .max ⟨3, 30, 12⟩)] = true := by decide +kernel

theorem test_decode_major_01_b : allRead
    [(wordS 0xc 12 1 3 0x01, .minn ⟨12, 1, 3⟩),
     (wordS 0xd 30 31 18 0x01, .maxn ⟨30, 31, 18⟩),
     (wordS 0x10 30 18 18 0x01, .mul ⟨30, 18, 18⟩),
     (wordS 0x11 7 12 21 0x01, .mulh ⟨7, 12, 21⟩),
     (wordS 0x12 21 3 12 0x01, .mulhn ⟨21, 3, 12⟩),
     (wordS 0x14 18 30 18 0x01, .div ⟨18, 30, 18⟩),
     (wordS 0x15 3 3 21 0x01, .divn ⟨3, 3, 21⟩),
     (wordS 0x16 30 7 31 0x01, .rem ⟨30, 7, 31⟩),
     (wordS 0x17 31 18 7 0x01, .remn ⟨31, 18, 7⟩),
     (wordS 0x18 0 3 1 0x01, .clz ⟨0, 3, 1⟩),
     (wordS 0x19 0 30 30 0x01, .ctz ⟨0, 30, 30⟩),
     (wordS 0x1a 0 18 30 0x01, .popc ⟨0, 18, 30⟩)] = true := by decide +kernel

theorem test_decode_major_02 : allRead
    [(wordI 0x7fff 18 3 0x02, .addi ⟨0x7fff, 18, 3⟩)] = true := by decide +kernel

theorem test_decode_major_03 : allRead
    [(wordI 0x1234 21 18 0x03, .andi ⟨0x1234, 21, 18⟩)] = true := by decide +kernel

theorem test_decode_major_04 : allRead
    [(wordI 0x1234 3 1 0x04, .ori ⟨0x1234, 3, 1⟩)] = true := by decide +kernel

theorem test_decode_major_05 : allRead
    [(wordI 0x4001 21 18 0x05, .xori ⟨0x4001, 21, 18⟩)] = true := by decide +kernel

theorem test_decode_major_06 : allRead
    [(wordI 0x7fff 31 30 0x06, .slti ⟨0x7fff, 31, 30⟩)] = true := by decide +kernel

theorem test_decode_major_07 : allRead
    [(wordI 0x3f 18 30 0x07, .slli ⟨63, 18, 30⟩),
     (wordI 0x203f 3 18 0x07, .srli ⟨63, 3, 18⟩),
     (wordI 0x403f 12 21 0x07, .srai ⟨63, 12, 21⟩)] = true := by decide +kernel

theorem test_decode_major_08 : allRead
    [(wordU 0x12345 12 0x08, .lui ⟨0x12345, 12⟩)] = true := by decide +kernel

theorem test_decode_major_09 : allRead
    [(wordU 0x12345 31 0x09, .auipc ⟨0x12345, 31⟩)] = true := by decide +kernel

theorem test_decode_major_0a : allRead
    [(wordU 0x80001 3 0x0a, .jal ⟨0x80001, 3⟩)] = true := by decide +kernel

theorem test_decode_major_0b : allRead
    [(wordI 0x1234 18 31 0x0b, .jalr ⟨0x1234, 18, 31⟩)] = true := by decide +kernel

theorem test_decode_major_0c : allRead
    [(wordB 0x4001 21 0 0x0c, .loop ⟨0x4001, 21, 0⟩)] = true := by decide +kernel

theorem test_decode_major_0d : allRead
    [(wordS 0x1 30 31 21 0x0d, .fadd ⟨true, 30, 31, 21⟩),
     (wordS 0x2 3 7 12 0x0d, .fsub ⟨false, 3, 7, 12⟩),
     (wordS 0x4 12 12 7 0x0d, .fmul ⟨false, 12, 12, 7⟩),
     (wordS 0x7 21 7 18 0x0d, .fdiv ⟨true, 21, 7, 18⟩),
     (wordS 0x9 0 7 1 0x0d, .fsqrt ⟨true, 0, 7, 1⟩),
     (wordS 0xa 7 30 30 0x0d, .fma ⟨false, 7, 30, 30⟩),
     (wordS 0xd 31 31 18 0x0d, .fmin ⟨true, 31, 31, 18⟩),
     (wordS 0xf 18 3 31 0x0d, .fmax ⟨true, 18, 3, 31⟩),
     (wordS 0x15 3 12 1 0x0d, .fcmp ⟨2, true, 3, 12, 1⟩),
     (wordS 0x16 4 18 12 0x0d, .fcvt ⟨false, 4, 18, 12⟩),
     (wordS 0x18 0 30 3 0x0d, .fmv ⟨false, 0, 30, 3⟩)] = true := by decide +kernel

theorem test_decode_major_0e : allRead
    [(wordS 0x0 0 1 3 0x0e, .ldacq ⟨0, 0, 0, 1, 3⟩),
     (wordS 0x40 3 7 0 0x0e, .strel ⟨0, 0, 3, 7, 0⟩),
     (wordS 0x84 3 1 30 0x0e, .amoadd ⟨1, 0, 3, 1, 30⟩),
     (wordS 0xc8 21 7 31 0x0e, .amoswp ⟨2, 0, 21, 7, 31⟩),
     (wordS 0x105 3 18 30 0x0e, .amocas ⟨1, 1, 3, 18, 30⟩),
     (wordS 0x148 18 18 18 0x0e, .amomin ⟨2, 0, 18, 18, 18⟩),
     (wordS 0x184 7 3 21 0x0e, .amomax ⟨1, 0, 7, 3, 21⟩),
     (wordS 0x1cc 18 21 30 0x0e, .amoand ⟨3, 0, 18, 21, 30⟩),
     (wordS 0x20c 12 1 7 0x0e, .amoor ⟨3, 0, 12, 1, 7⟩)] = true := by decide +kernel

theorem test_decode_major_0f : allRead
    [(wordI 0x1234 30 7 0x0f, .ldb ⟨0x1234, 30, 7⟩)] = true := by decide +kernel

theorem test_decode_major_10 : allRead
    [(wordI 0x1234 1 21 0x10, .ldbn ⟨0x1234, 1, 21⟩)] = true := by decide +kernel

theorem test_decode_major_11 : allRead
    [(wordI 0x1234 3 21 0x11, .ldh ⟨0x1234, 3, 21⟩)] = true := by decide +kernel

theorem test_decode_major_12 : allRead
    [(wordI 0x4001 30 7 0x12, .ldhn ⟨0x4001, 30, 7⟩)] = true := by decide +kernel

theorem test_decode_major_13 : allRead
    [(wordI 0x1234 12 30 0x13, .ldw ⟨0x1234, 12, 30⟩)] = true := by decide +kernel

theorem test_decode_major_14 : allRead
    [(wordI 0x7fff 12 12 0x14, .ldwn ⟨0x7fff, 12, 12⟩)] = true := by decide +kernel

theorem test_decode_major_15 : allRead
    [(wordI 0x7fff 31 12 0x15, .ldd ⟨0x7fff, 31, 12⟩)] = true := by decide +kernel

theorem test_decode_major_16 : allRead
    [(wordI 0x1234 18 30 0x16, .stb ⟨0x1234, 18, 30⟩)] = true := by decide +kernel

theorem test_decode_major_17 : allRead
    [(wordI 0x4001 1 1 0x17, .sth ⟨0x4001, 1, 1⟩)] = true := by decide +kernel

theorem test_decode_major_18 : allRead
    [(wordI 0x7fff 18 21 0x18, .stw ⟨0x7fff, 18, 21⟩)] = true := by decide +kernel

theorem test_decode_major_19 : allRead
    [(wordI 0x1234 30 18 0x19, .std ⟨0x1234, 30, 18⟩)] = true := by decide +kernel

theorem test_decode_major_1a : allRead
    [(wordB 0x7fff 30 30 0x1a, .beq ⟨0x7fff, 30, 30⟩)] = true := by decide +kernel

theorem test_decode_major_1b : allRead
    [(wordB 0x7fff 12 3 0x1b, .bne ⟨0x7fff, 12, 3⟩)] = true := by decide +kernel

theorem test_decode_major_1c : allRead
    [(wordB 0x4001 18 12 0x1c, .blt ⟨0x4001, 18, 12⟩)] = true := by decide +kernel

theorem test_decode_major_1d : allRead
    [(wordB 0x1234 12 18 0x1d, .bge ⟨0x1234, 12, 18⟩)] = true := by decide +kernel

theorem test_decode_major_1e : allRead
    [(wordB 0x1234 1 18 0x1e, .bltn ⟨0x1234, 1, 18⟩)] = true := by decide +kernel

theorem test_decode_major_1f : allRead
    [(wordB 0x1234 30 3 0x1f, .bgen ⟨0x1234, 30, 3⟩)] = true := by decide +kernel

theorem test_decode_major_20_a : allRead
    [(wordV 0x0 0 1 1 1 7 18 12 0x20, .vadd ⟨false, true, true, true, 7, 18, 12⟩),
     (wordV 0x1 0 1 0 0 3 31 18 0x20, .vsub ⟨false, true, false, false, 3, 31, 18⟩),
     (wordV 0x2 0 0 1 1 7 18 7 0x20, .vmul ⟨false, false, true, true, 7, 18, 7⟩),
     (wordV 0x3 0 0 1 0 3 1 1 0x20, .vmulh ⟨false, false, true, false, 3, 1, 1⟩),
     (wordV 0x4 0 0 0 1 12 21 1 0x20, .vand ⟨false, false, false, true, 12, 21, 1⟩),
     (wordV 0x5 1 1 1 1 1 7 31 0x20, .vor ⟨true, true, true, true, 1, 7, 31⟩),
     (wordV 0x6 1 0 0 0 18 1 7 0x20, .vxor ⟨true, false, false, false, 18, 1, 7⟩),
     (wordV 0x7 0 0 1 0 3 18 7 0x20, .vsll ⟨false, false, true, false, 3, 18, 7⟩),
     (wordV 0x8 1 0 0 1 12 12 1 0x20, .vsrl ⟨true, false, false, true, 12, 12, 1⟩),
     (wordV 0x9 0 1 0 1 18 3 1 0x20, .vsra ⟨false, true, false, true, 18, 3, 1⟩),
     (wordV 0xa 1 1 1 0 21 12 18 0x20, .vmin ⟨true, true, true, false, 21, 12, 18⟩),
     (wordV 0xb 0 1 0 1 18 31 3 0x20, .vmax ⟨false, true, false, true, 18, 31, 3⟩)] = true := by decide +kernel

theorem test_decode_major_20_b : allRead
    [(wordV 0xc 0 1 0 0 21 12 3 0x20, .vminn ⟨false, true, false, false, 21, 12, 3⟩),
     (wordV 0xd 1 0 0 0 18 7 21 0x20, .vmaxn ⟨true, false, false, false, 18, 7, 21⟩),
     (wordV 0xe 1 1 1 1 7 12 7 0x20, .vsadd ⟨true, true, true, true, 7, 12, 7⟩),
     (wordV 0xf 1 1 1 0 30 30 12 0x20, .vssub ⟨true, true, true, false, 30, 30, 12⟩),
     (wordV 0x10 1 1 1 1 1 18 18 0x20, .vmerge ⟨true, true, true, true, 1, 18, 18⟩),
     (wordV 0x18 1 0 0 0 0 7 30 0x20, .vpopc ⟨true, false, false, false, 0, 7, 30⟩),
     (wordV 0x19 1 1 0 1 0 18 3 0x20, .vclz ⟨true, true, false, true, 0, 18, 3⟩),
     (wordV 0x1a 0 0 0 0 0 0 1 0x20, .vid ⟨false, false, false, false, 0, 0, 1⟩),
     (wordV 0x1b 0 1 0 0 0 7 3 0x20, .vmvs ⟨false, true, false, false, 0, 7, 3⟩),
     (wordV 0x1c 0 0 0 1 0 1 31 0x20, .vmvx ⟨false, false, false, true, 0, 1, 31⟩)] = true := by decide +kernel

theorem test_decode_major_21_a : allRead
    [(wordV 0x0 1 0 0 0 3 12 3 0x21, .vaddScalar ⟨true, false, false, false, 3, 12, 3⟩),
     (wordV 0x1 1 1 0 0 21 7 1 0x21, .vsubScalar ⟨true, true, false, false, 21, 7, 1⟩),
     (wordV 0x2 1 1 0 1 18 7 31 0x21, .vmulScalar ⟨true, true, false, true, 18, 7, 31⟩),
     (wordV 0x3 0 1 0 0 31 7 1 0x21, .vmulhScalar ⟨false, true, false, false, 31, 7, 1⟩),
     (wordV 0x4 1 0 0 0 3 21 3 0x21, .vandScalar ⟨true, false, false, false, 3, 21, 3⟩),
     (wordV 0x5 0 1 0 1 1 18 3 0x21, .vorScalar ⟨false, true, false, true, 1, 18, 3⟩),
     (wordV 0x6 1 1 0 0 12 1 7 0x21, .vxorScalar ⟨true, true, false, false, 12, 1, 7⟩),
     (wordV 0x7 0 1 0 1 12 7 1 0x21, .vsllScalar ⟨false, true, false, true, 12, 7, 1⟩),
     (wordV 0x8 1 0 0 1 7 18 21 0x21, .vsrlScalar ⟨true, false, false, true, 7, 18, 21⟩),
     (wordV 0x9 1 0 0 0 1 1 21 0x21, .vsraScalar ⟨true, false, false, false, 1, 1, 21⟩),
     (wordV 0xa 0 1 0 1 3 18 12 0x21, .vminScalar ⟨false, true, false, true, 3, 18, 12⟩),
     (wordV 0xb 1 1 0 1 12 12 21 0x21, .vmaxScalar ⟨true, true, false, true, 12, 12, 21⟩)] = true := by decide +kernel

theorem test_decode_major_21_b : allRead
    [(wordV 0xc 0 0 0 0 1 30 31 0x21, .vminnScalar ⟨false, false, false, false, 1, 30, 31⟩),
     (wordV 0xd 0 0 0 0 7 31 21 0x21, .vmaxnScalar ⟨false, false, false, false, 7, 31, 21⟩),
     (wordV 0xe 0 1 0 0 21 12 21 0x21, .vsaddScalar ⟨false, true, false, false, 21, 12, 21⟩),
     (wordV 0xf 1 0 0 0 18 21 7 0x21, .vssubScalar ⟨true, false, false, false, 18, 21, 7⟩),
     (wordV 0x10 1 1 0 0 12 30 30 0x21, .vmergeScalar ⟨true, true, false, false, 12, 30, 30⟩)] = true := by decide +kernel

theorem test_decode_major_22_a : allRead
    [(wordV 0x0 1 0 1 1 31 7 3 0x22, .vfadd ⟨true, false, true, true, 31, 7, 3⟩),
     (wordV 0x1 0 1 0 0 31 1 7 0x22, .vfsub ⟨false, true, false, false, 31, 1, 7⟩),
     (wordV 0x2 0 0 0 1 7 1 1 0x22, .vfmul ⟨false, false, false, true, 7, 1, 1⟩),
     (wordV 0x3 1 1 1 1 12 1 1 0x22, .vfma ⟨true, true, true, true, 12, 1, 1⟩),
     (wordV 0x4 0 1 1 1 3 3 3 0x22, .vfnma ⟨false, true, true, true, 3, 3, 3⟩),
     (wordV 0x5 0 1 1 1 12 12 12 0x22, .vfdiv ⟨false, true, true, true, 12, 12, 12⟩),
     (wordV 0x6 1 0 0 0 1 21 18 0x22, .vfmin ⟨true, false, false, false, 1, 21, 18⟩),
     (wordV 0x7 0 1 1 0 7 21 21 0x22, .vfmax ⟨false, true, true, false, 7, 21, 21⟩),
     (wordV 0x10 1 1 0 0 0 30 3 0x22, .vfsqrt ⟨true, true, false, false, 0, 30, 3⟩),
     (wordV 0x11 1 1 0 0 0 3 31 0x22, .vfabs ⟨true, true, false, false, 0, 3, 31⟩),
     (wordV 0x12 0 1 0 0 0 30 21 0x22, .vfneg ⟨false, true, false, false, 0, 30, 21⟩),
     (wordV 0x13 1 1 0 1 0 30 3 0x22, .vfexp2 ⟨true, true, false, true, 0, 30, 3⟩)] = true := by decide +kernel

theorem test_decode_major_22_b : allRead
    [(wordV 0x14 1 0 0 0 0 3 21 0x22, .vflog2 ⟨true, false, false, false, 0, 3, 21⟩),
     (wordV 0x15 1 0 0 1 0 21 12 0x22, .vfrsq ⟨true, false, false, true, 0, 21, 12⟩),
     (wordV 0x16 1 0 0 0 0 31 30 0x22, .vfrcp ⟨true, false, false, false, 0, 31, 30⟩),
     (wordV 0x18 1 0 0 1 9 1 3 0x22, .vcvt ⟨true, false, false, true, 9, 1, 3⟩)] = true := by decide +kernel

theorem test_decode_major_23 : allRead
    [(wordV 0x0 0 1 0 1 12 3 21 0x23, .vfaddScalar ⟨false, true, false, true, 12, 3, 21⟩),
     (wordV 0x1 1 1 0 0 18 18 18 0x23, .vfsubScalar ⟨true, true, false, false, 18, 18, 18⟩),
     (wordV 0x2 0 1 0 1 1 18 3 0x23, .vfmulScalar ⟨false, true, false, true, 1, 18, 3⟩),
     (wordV 0x3 1 0 0 0 31 21 18 0x23, .vfmaScalar ⟨true, false, false, false, 31, 21, 18⟩),
     (wordV 0x4 0 0 0 1 21 7 3 0x23, .vfnmaScalar ⟨false, false, false, true, 21, 7, 3⟩),
     (wordV 0x5 0 1 0 1 12 30 3 0x23, .vfdivScalar ⟨false, true, false, true, 12, 30, 3⟩),
     (wordV 0x6 1 1 0 1 1 7 1 0x23, .vfminScalar ⟨true, true, false, true, 1, 7, 1⟩),
     (wordV 0x7 1 1 0 1 31 7 21 0x23, .vfmaxScalar ⟨true, true, false, true, 31, 7, 21⟩)] = true := by decide +kernel

theorem test_decode_major_24 : allRead
    [(wordV 0x0 1 0 0 0 18 21 6 0x24, .vcmpeq ⟨true, false, false, false, 18, 21, 6⟩),
     (wordV 0x1 0 1 1 1 21 30 4 0x24, .vcmpne ⟨false, true, true, true, 21, 30, 4⟩),
     (wordV 0x2 1 1 1 1 21 12 6 0x24, .vcmplt ⟨true, true, true, true, 21, 12, 6⟩),
     (wordV 0x3 0 0 1 0 3 7 6 0x24, .vcmple ⟨false, false, true, false, 3, 7, 6⟩),
     (wordV 0x4 0 1 0 0 31 18 3 0x24, .vcmpltn ⟨false, true, false, false, 31, 18, 3⟩),
     (wordV 0x5 0 0 0 1 3 30 2 0x24, .vcmplen ⟨false, false, false, true, 3, 30, 2⟩),
     (wordV 0x8 1 1 1 1 1 12 7 0x24, .vfcmpeq ⟨true, true, true, true, 1, 12, 7⟩),
     (wordV 0x9 1 0 1 0 30 21 4 0x24, .vfcmplt ⟨true, false, true, false, 30, 21, 4⟩),
     (wordV 0xa 1 1 0 1 3 12 2 0x24, .vfcmple ⟨true, true, false, true, 3, 12, 2⟩)] = true := by decide +kernel

theorem test_decode_major_25 : allRead
    [(wordV 0x0 1 1 0 1 31 18 6 0x25, .vcmpeqScalar ⟨true, true, false, true, 31, 18, 6⟩),
     (wordV 0x1 0 0 0 1 18 31 1 0x25, .vcmpneScalar ⟨false, false, false, true, 18, 31, 1⟩),
     (wordV 0x2 0 0 0 0 18 18 4 0x25, .vcmpltScalar ⟨false, false, false, false, 18, 18, 4⟩),
     (wordV 0x3 0 0 0 1 3 7 2 0x25, .vcmpleScalar ⟨false, false, false, true, 3, 7, 2⟩),
     (wordV 0x4 0 0 0 0 12 7 1 0x25, .vcmpltnScalar ⟨false, false, false, false, 12, 7, 1⟩),
     (wordV 0x5 1 0 0 0 31 21 6 0x25, .vcmplenScalar ⟨true, false, false, false, 31, 21, 6⟩),
     (wordV 0x8 0 0 0 1 31 12 3 0x25, .vfcmpeqScalar ⟨false, false, false, true, 31, 12, 3⟩),
     (wordV 0x9 0 0 0 1 18 21 1 0x25, .vfcmpltScalar ⟨false, false, false, true, 18, 21, 1⟩),
     (wordV 0xa 1 0 0 0 12 12 4 0x25, .vfcmpleScalar ⟨true, false, false, false, 12, 12, 4⟩)] = true := by decide +kernel

theorem test_decode_major_26_a : allRead
    [(wordV 0x0 1 1 0 1 12 1 1 0x26, .vslideup ⟨true, true, false, true, 12, 1, 1⟩),
     (wordV 0x1 1 0 0 1 31 12 21 0x26, .vslidedn ⟨true, false, false, true, 31, 12, 21⟩),
     (wordV 0x2 0 1 1 1 31 30 1 0x26, .vrgath ⟨false, true, true, true, 31, 30, 1⟩),
     (wordV 0x3 1 0 0 0 0 3 21 0x26, .vcmpr ⟨true, false, false, false, 0, 3, 21⟩),
     (wordV 0x8 1 0 0 1 12 12 21 0x26, .vredsum ⟨true, false, false, true, 12, 12, 21⟩),
     (wordV 0x9 0 1 0 0 18 3 21 0x26, .vredmax ⟨false, true, false, false, 18, 3, 21⟩),
     (wordV 0xa 0 1 0 1 7 1 31 0x26, .vredmin ⟨false, true, false, true, 7, 1, 31⟩),
     (wordV 0xb 0 0 0 0 31 7 1 0x26, .vfredsum ⟨false, false, false, false, 31, 7, 1⟩),
     (wordV 0xc 0 0 0 0 30 18 31 0x26, .vfredmax ⟨false, false, false, false, 30, 18, 31⟩),
     (wordV 0xd 0 0 0 1 7 12 30 0x26, .vfredmin ⟨false, false, false, true, 7, 12, 30⟩),
     (wordV 0xe 0 1 0 1 0 30 31 0x26, .vargmax ⟨false, true, false, true, 0, 30, 31⟩),
     (wordV 0x10 1 0 0 0 2 1 3 0x26, .vspsel ⟨true, false, false, false, 2, 1, 3⟩)] = true := by decide +kernel

theorem test_decode_major_26_b : allRead
    [(wordV 0x11 1 0 0 0 0 31 30 0x26, .vconfl ⟨true, false, false, false, 0, 31, 30⟩),
     (wordV 0x12 0 1 0 0 31 21 30 0x26, .vfcomb ⟨false, true, false, false, 31, 21, 30⟩),
     (wordV 0x13 1 0 0 0 0 30 0 0x26, .capp ⟨true, false, false, false, 0, 30, 0⟩)] = true := by decide +kernel

theorem test_decode_major_27 : allRead
    [(wordS 0x0 30 12 18 0x27, .setvl ⟨30, 12, 18⟩)] = true := by decide +kernel

theorem test_decode_major_28 : allRead
    [(wordI 0x2a5 30 18 0x28, .setvli ⟨0x2a5, 30, 18⟩)] = true := by decide +kernel

theorem test_decode_major_40 : allRead
    [(wordM 11 0 0 1 1 0 0 1 31 0x40, .vld ⟨11, false, true, true, false, 0, 1, 31⟩),
     (wordM 1 1 0 0 1 0 21 12 3 0x40, .vlds ⟨1, false, false, true, false, 21, 12, 3⟩),
     (wordM 15 2 1 1 1 1 30 1 21 0x40, .vldx ⟨15, true, true, true, true, 30, 1, 21⟩),
     (wordM 0 3 1 1 1 0 1 3 1 0x40, .vldt ⟨0, true, true, true, false, 1, 3, 1⟩)] = true := by decide +kernel

theorem test_decode_major_41 : allRead
    [(wordM 14 0 0 1 0 1 0 18 31 0x41, .vst ⟨14, false, true, false, true, 0, 18, 31⟩),
     (wordM 13 1 1 1 1 1 7 18 7 0x41, .vsts ⟨13, true, true, true, true, 7, 18, 7⟩),
     (wordM 1 2 0 0 1 1 30 30 18 0x41, .vstx ⟨1, false, false, true, true, 30, 30, 18⟩),
     (wordM 0 3 0 1 0 1 7 12 31 0x41, .vstt ⟨0, false, true, false, true, 7, 12, 31⟩)] = true := by decide +kernel

theorem test_decode_major_42 : allRead
    [(wordM 2 0 1 1 0 0 0 7 31 0x42, .vldff ⟨2, true, true, false, false, 0, 7, 31⟩)] = true := by decide +kernel

theorem test_decode_major_43 : allRead
    [(wordM 15 0 0 0 0 0 0 21 3 0x43, .vldv ⟨15, false, false, false, false, 0, 21, 3⟩)] = true := by decide +kernel

theorem test_decode_major_44 : allRead
    [(wordM 4 0 0 1 0 1 0 18 18 0x44, .vstv ⟨4, false, true, false, true, 0, 18, 18⟩)] = true := by decide +kernel

theorem test_decode_major_45 : allRead
    [(wordM 6 2 0 0 0 1 31 18 12 0x45, .vldxa ⟨6, false, false, false, true, 31, 18, 12⟩)] = true := by decide +kernel

theorem test_decode_major_46 : allRead
    [(wordM 6 2 0 1 0 1 21 21 21 0x46, .vstxr ⟨6, false, true, false, true, 21, 21, 21⟩)] = true := by decide +kernel

theorem test_decode_major_47 : allRead
    [(wordM 0 2 1 1 0 1 12 18 12 0x47, .vamoadd ⟨0, true, true, false, true, 12, 18, 12⟩)] = true := by decide +kernel

theorem test_decode_major_48 : allRead
    [(wordM 0 2 0 0 0 1 7 21 12 0x48, .vamomin ⟨0, false, false, false, true, 7, 21, 12⟩)] = true := by decide +kernel

theorem test_decode_major_49 : allRead
    [(wordM 0 2 0 1 0 1 21 12 12 0x49, .vamomax ⟨0, false, true, false, true, 21, 12, 12⟩)] = true := by decide +kernel

theorem test_decode_major_4a : allRead
    [(wordM 0 2 0 1 0 1 1 3 1 0x4a, .vamoswp ⟨0, false, true, false, true, 1, 3, 1⟩)] = true := by decide +kernel

theorem test_decode_major_4b : allRead
    [(wordI 0x1ee 0 0 0x4b, .fence ⟨0x1ee, 0, 0⟩)] = true := by decide +kernel

theorem test_decode_major_50 : allRead
    [(wordV 0x0 0 0 0 0 8 8 3 0x50, .kand ⟨false, false, false, false, 8, 8, 3⟩),
     (wordV 0x1 0 0 0 0 8 8 1 0x50, .kor ⟨false, false, false, false, 8, 8, 1⟩),
     (wordV 0x2 0 0 0 0 8 8 1 0x50, .kxor ⟨false, false, false, false, 8, 8, 1⟩),
     (wordV 0x3 0 0 0 0 0 8 4 0x50, .knot ⟨false, false, false, false, 0, 8, 4⟩),
     (wordV 0x4 0 0 0 0 0 8 8 0x50, .kmov ⟨false, false, false, false, 0, 8, 8⟩),
     (wordV 0x8 0 1 0 0 0 8 12 0x50, .kffs ⟨false, true, false, false, 0, 8, 12⟩),
     (wordV 0x9 0 1 0 0 0 8 30 0x50, .kpopc ⟨false, true, false, false, 0, 8, 30⟩)] = true := by decide +kernel

theorem test_decode_major_58 : allRead
    [(wordV 0x0 0 0 0 0 0 1 0 0x58, .hvset ⟨false, false, false, false, 0, 1, 0⟩),
     (wordV 0x1 0 0 0 0 0 1 21 0x58, .hvrand ⟨false, false, false, false, 0, 1, 21⟩),
     (wordV 0x2 0 0 1 0 30 31 30 0x58, .hvbind ⟨false, false, true, false, 30, 31, 30⟩),
     (wordV 0x3 0 0 0 0 18 18 1 0x58, .hvperm ⟨false, false, false, false, 18, 18, 1⟩),
     (wordV 0x4 0 0 0 0 3 7 31 0x58, .hvbund ⟨false, false, false, false, 3, 7, 31⟩),
     (wordV 0x5 0 1 0 1 21 21 31 0x58, .hvmaj ⟨false, true, false, true, 21, 21, 31⟩),
     (wordV 0x6 0 1 0 1 1 31 31 0x58, .hvsim ⟨false, true, false, true, 1, 31, 31⟩),
     (wordV 0x8 0 0 0 0 0 12 31 0x58, .hvclean ⟨false, false, false, false, 0, 12, 31⟩),
     (wordV 0x9 0 0 0 0 0 31 7 0x58, .hvfact ⟨false, false, false, false, 0, 31, 7⟩),
     (wordV 0xa 0 0 0 0 0 0 31 0x58, .hvstat ⟨false, false, false, false, 0, 0, 31⟩)] = true := by decide +kernel

theorem test_decode_major_60 : allRead
    [(wordV 0x0 0 0 0 0 0 18 0 0x60, .skset ⟨false, false, false, false, 0, 18, 0⟩),
     (wordV 0x1 0 0 0 0 0 7 0 0x60, .skfeed ⟨false, false, false, false, 0, 7, 0⟩),
     (wordV 0x2 0 0 0 0 0 0 7 0x60, .skest ⟨false, false, false, false, 0, 0, 7⟩),
     (wordV 0x3 0 0 0 0 3 30 1 0x60, .skstat ⟨false, false, false, false, 3, 30, 1⟩),
     (wordV 0x4 0 0 0 0 0 0 0 0x60, .skclr ⟨false, false, false, false, 0, 0, 0⟩)] = true := by decide +kernel

theorem test_decode_major_64 : allRead
    [(wordV 0x0 0 0 0 0 0 21 30 0x64, .matt ⟨false, false, false, false, 0, 21, 30⟩),
     (wordV 0x1 0 0 0 0 0 0 0 0x64, .mdet ⟨false, false, false, false, 0, 0, 0⟩),
     (wordV 0x2 0 0 0 0 0 0 2 0x64, .mzero ⟨false, false, false, false, 0, 0, 2⟩)] = true := by decide +kernel

theorem test_decode_major_65 : allRead
    [(wordV 0xa 0 0 0 0 1 31 2 0x65, .mma ⟨10, false, false, false, false, 1, 31, 2⟩),
     (wordV 0x1a 0 0 0 0 0 18 1 0x65, .mldb ⟨10, false, false, false, false, 0, 18, 1⟩),
     (wordV 0x2f 0 0 0 0 7 21 2 0x65, .mst ⟨15, false, false, false, false, 7, 21, 2⟩),
     (wordV 0x3a 0 0 0 0 30 18 9 0x65, .mgemv ⟨10, false, false, false, false, 30, 18, 9⟩)] = true := by decide +kernel

theorem test_decode_major_68 : allRead
    [(wordV 0x0 0 0 0 0 12 7 9 0x68, .strm ⟨false, false, false, false, 12, 7, 9⟩),
     (wordV 0x1 0 0 0 0 0 15 12 0x68, .savail ⟨false, false, false, false, 0, 15, 12⟩),
     (wordV 0x2 0 0 0 0 0 5 0 0x68, .swait ⟨false, false, false, false, 0, 5, 0⟩),
     (wordV 0x3 0 0 0 0 0 9 0 0x68, .scancel ⟨false, false, false, false, 0, 9, 0⟩),
     (wordV 0x4 0 0 0 0 0 5 0 0x68, .ssusp ⟨false, false, false, false, 0, 5, 0⟩),
     (wordV 0x5 0 0 0 0 0 15 0 0x68, .sresm ⟨false, false, false, false, 0, 15, 0⟩),
     (wordV 0x8 1 0 0 0 0 9 7 0x68, .vldp ⟨true, false, false, false, 0, 9, 7⟩),
     (wordV 0x9 0 0 1 0 1 5 0 0x68, .vstp ⟨false, false, true, false, 1, 5, 0⟩)] = true := by decide +kernel

theorem test_decode_major_6c : allRead
    [(wordV 0x0 0 0 1 0 18 31 0 0x6c, .vstc ⟨false, false, true, false, 18, 31, 0⟩),
     (wordV 0x1 1 0 0 0 0 12 21 0x6c, .vldc ⟨true, false, false, false, 0, 12, 21⟩),
     (wordV 0x2 0 0 0 0 0 0 0 0x6c, .cwait ⟨false, false, false, false, 0, 0, 0⟩),
     (wordV 0x3 0 0 0 1 0 30 0 0x6c, .dpost ⟨false, false, false, true, 0, 30, 0⟩),
     (wordV 0x4 0 0 0 0 0 7 0 0x6c, .dposta ⟨false, false, false, false, 0, 7, 0⟩),
     (wordV 0x8 0 0 0 0 18 18 0 0x6c, .xtrim ⟨false, false, false, false, 18, 18, 0⟩),
     (wordV 0x9 0 0 0 0 0 0 0 0x6c, .xgo ⟨false, false, false, false, 0, 0, 0⟩),
     (wordV 0xa 0 0 0 0 0 7 18 0x6c, .xwait ⟨false, false, false, false, 0, 7, 18⟩),
     (wordV 0xb 0 0 0 0 0 0 31 0x6c, .xstat ⟨false, false, false, false, 0, 0, 31⟩)] = true := by decide +kernel

theorem test_decode_major_6d : allRead
    [(wordS 0x4 7 3 3 0x6d, .cset ⟨4, 7, 3, 3⟩)] = true := by decide +kernel

theorem test_decode_major_70 : allRead
    [(wordC 0x2d 0 0 31 0x70, .csrrd ⟨0x2d, 0, 31⟩),
     (wordC 0x2d 1 30 3 0x70, .csrwr ⟨0x2d, 30, 3⟩),
     (wordC 0x2d 2 18 1 0x70, .csrset ⟨0x2d, 18, 1⟩),
     (wordC 0x2d 3 1 7 0x70, .csrclr ⟨0x2d, 1, 7⟩)] = true := by decide +kernel

theorem test_decode_major_71 : allRead
    [(wordC 0xabc 0 0 0 0x71, .trap ⟨0xabc, 0, 0⟩),
     (wordC 0x0 1 0 0 0x71, .tret ⟨0x0, 0, 0⟩),
     (wordC 0x0 2 0 0 0x71, .wfe ⟨0x0, 0, 0⟩),
     (wordC 0x0 3 1 0 0x71, .sev ⟨0x0, 1, 0⟩),
     (wordC 0x0 4 0 0 0x71, .pause ⟨0x0, 0, 0⟩),
     (wordC 0x0 5 0 0 0x71, .tend ⟨0x0, 0, 0⟩)] = true := by decide +kernel

theorem test_decode_major_72 : allRead
    [(wordS 0x0 0 21 0 0x72, .bjoin ⟨0, 21, 0⟩),
     (wordS 0x1 0 7 0 0x72, .bleave ⟨0, 7, 0⟩),
     (wordS 0x2 0 3 12 0x72, .barr ⟨0, 3, 12⟩),
     (wordS 0x3 21 30 0 0x72, .bwait ⟨21, 30, 0⟩),
     (wordS 0x4 0 30 7 0x72, .barw ⟨0, 30, 7⟩),
     (wordS 0x5 7 18 21 0x72, .btest ⟨7, 18, 21⟩),
     (wordS 0x6 18 21 0 0x72, .waitc ⟨18, 21, 0⟩),
     (wordS 0x7 12 21 12 0x72, .qpost ⟨12, 21, 12⟩)] = true := by decide +kernel

theorem test_decode_major_73 : allRead
    [(wordS 0x0 1 30 30 0x73, .swappg ⟨1, 30, 30⟩),
     (wordS 0x1 7 12 0 0x73, .tlbinv ⟨7, 12, 0⟩),
     (wordS 0x2 0 7 31 0x73, .savectx ⟨0, 7, 31⟩)] = true := by decide +kernel

/-! ## Words that the spec's worked programs list -/

theorem test_listing_newline_search : allRead
    [(0x0000A581, .add ⟨0, 10, 11⟩), (0x00140382, .addi ⟨10, 0, 7⟩), (0x00046628, .setvli ⟨2, 6, 12⟩),
     (0x0100B242, .vldff ⟨0, false, true, false, false, 0, 11, 4⟩),
     (0x004E40A5, .vcmpeqScalar ⟨false, false, false, true, 7, 4, 1⟩), (0x00000670, .csrrd ⟨0x000, 0, 12⟩),
     (0x20001450, .kffs ⟨false, false, false, false, 0, 1, 8⟩), (0x0006801D, .bge ⟨3, 8, 0⟩),
     (0xFFFF900A, .jal ⟨0xFFFF9, 0⟩), (0x00543181, .sub ⟨10, 3, 3⟩), (0x0001F00B, .jalr ⟨0, 31, 0⟩),
     (0xFFFE0182, .addi ⟨0x7FFF, 0, 3⟩)] = true := by decide +kernel

theorem test_listing_scatter_add : allRead
    [(0x040E2381, .mul ⟨7, 2, 7⟩), (0x0000A640, .vld ⟨0, false, false, false, false, 0, 10, 12⟩),
     (0x4400CA26, .vconfl ⟨false, false, false, false, 0, 12, 20⟩), (0x68000AA0, .vid ⟨false, false, false, false, 0, 0, 21⟩),
     (0x002B4024, .vcmpeq ⟨false, false, false, false, 21, 20, 0⟩), (0x00186028, .setvli ⟨12, 6, 0⟩),
     (0x48290C26, .vfcomb ⟨false, false, false, false, 20, 16, 24⟩),
     (0x0A18CC47, .vamoadd ⟨0, true, false, false, false, 12, 12, 24⟩), (0x010092F2, .barw ⟨0, 9, 5⟩),
     (0x00200770, .csrrd ⟨0x002, 0, 14⟩), (0x0022E070, .csrwr ⟨0x002, 14, 0⟩)] = true := by decide +kernel

theorem test_listing_hypervector_record : allRead
    [(0x0212A070, .csrwr ⟨0x021, 10, 0⟩), (0x080813D8, .hvbind ⟨false, false, false, false, 4, 1, 7⟩),
     (0x0100B2C0, .vld ⟨0, false, true, false, false, 0, 11, 5⟩), (0x088A2458, .hvbind ⟨false, false, true, false, 5, 2, 8⟩),
     (0x18000020, .vxor ⟨false, false, false, false, 0, 0, 0⟩), (0x10087058, .hvbund ⟨false, false, false, false, 4, 7, 0⟩),
     (0x14140658, .hvmaj ⟨false, false, false, false, 10, 0, 12⟩), (0x180AD3D8, .hvsim ⟨false, false, false, false, 5, 13, 7⟩),
     (0x2000D458, .hvclean ⟨false, false, false, false, 0, 13, 8⟩),
     (0x280007D8, .hvstat ⟨false, false, false, false, 0, 0, 15⟩)] = true := by decide +kernel

theorem test_listing_stick_series : allRead
    [(0x68000A20, .vid ⟨false, false, false, false, 0, 0, 20⟩), (0x100F4A21, .vandScalar ⟨false, false, false, false, 7, 20, 20⟩),
     (0x082880A6, .vrgath ⟨false, false, false, false, 20, 8, 1⟩), (0x04001060, .skfeed ⟨false, false, false, false, 0, 1, 0⟩),
     (0x0C0290E0, .skstat ⟨false, false, false, false, 1, 9, 1⟩), (0x000A901C, .blt ⟨5, 9, 0⟩),
     (0x08041222, .vfmul ⟨false, false, false, false, 2, 1, 4⟩), (0x000640A2, .vfadd ⟨false, false, false, false, 3, 4, 1⟩),
     (0xFFF4801B, .bne ⟨0x7FFA, 8, 0⟩), (0x08000360, .skest ⟨false, false, false, false, 0, 0, 6⟩)] = true := by decide +kernel

theorem test_listing_imposed_exchange : allRead
    [(0x05029070, .csrwr ⟨0x050, 9, 0⟩), (0x000E62ED, .cset ⟨0, 7, 6, 5⟩), (0x0C00806C, .dpost ⟨false, false, false, false, 0, 8, 0⟩),
     (0x0000E68E, .ldacq ⟨0, 0, 0, 14, 13⟩), (0x0040D707, .slli ⟨32, 13, 14⟩), (0x00114B12, .ldhn ⟨8, 20, 22⟩),
     (0x2023506C, .xtrim ⟨false, false, false, false, 17, 21, 0⟩), (0xFFFF7B1E, .bltn ⟨0x7FFF, 23, 22⟩),
     (0x2800646C, .xwait ⟨false, false, false, false, 0, 6, 8⟩), (0x0200A583, .andi ⟨256, 10, 11⟩)] = true := by decide +kernel

theorem test_reserved_words_refused :
    (decode 0x00000000 = .error .reservedMajor ∧ decode 0xFFFFFFFF = .error .reservedMajor)
      ∧ decode (wordS 0x13 1 1 1 0x01) = .error .reservedFunction ∧ decode (wordS 0x18 1 2 3 0x01) = .error .fieldRule
      ∧ decode (wordC 0x006 0 0 1 0x70) = .error .fieldRule := by decide +kernel


/-! ## Ill-formed terms: one for each check of WellFormed -/

/-- Whether each instruction breaks a field rule of its row. -/
def allIll (l : List Instr) : Bool := l.all fun i => !i.wf

theorem test_wf_refuses_field_kinds : allIll
    [.clz ⟨1, 2, 3⟩,                                                   -- b must be 0
     .strel ⟨0, 0, 1, 2, 3⟩,                                          -- d must be 0
     .kand ⟨false, false, false, false, 0, 0, 8⟩,                     -- d names ksm, kind k
     .kand ⟨false, false, false, false, 0, 9, 1⟩,                     -- s1 9, kind ks
     .vcmpeq ⟨false, false, false, false, 0, 0, 8⟩,                   -- mask register 8
     .strm ⟨false, false, false, false, 1, 2, 16⟩,                    -- port 16
     .mzero ⟨false, false, false, false, 0, 0, 4⟩,                    -- tile 4
     .vcvt ⟨false, false, false, false, 10, 1, 2⟩,                    -- code 10 of 9
     .skstat ⟨false, false, false, false, 4, 1, 2⟩,                   -- condition 4 of 3
     .fcvt ⟨false, 5, 1, 2⟩, .fcmp ⟨3, false, 1, 2, 3⟩, .cset ⟨5, 1, 2, 3⟩, .loop ⟨1, 2, 3⟩,
     .setvli ⟨0x400, 1, 2⟩, .bjoin ⟨0, 1, 1⟩] = true := by decide +kernel

theorem test_wf_refuses_bits : allIll
    [.vmerge ⟨false, false, false, false, 1, 2, 3⟩,                   -- the mask bit is required
     .vmvx ⟨true, false, false, false, 0, 2, 3⟩,                      -- and here not allowed
     .vmvs ⟨false, false, false, true, 0, 2, 3⟩,                      -- c1 of a g register
     .vaddScalar ⟨false, false, true, false, 1, 2, 3⟩,                -- c2 of a g register
     .skfeed ⟨false, true, false, false, 0, 1, 0⟩,                    -- a convoy bit outside a convoy
     .strm ⟨false, false, false, true, 1, 2, 3⟩] = true := by decide +kernel

theorem test_wf_refuses_memory_and_tile_fields : allIll
    [.vldt ⟨1, false, false, false, false, 2, 3, 4⟩,                  -- fmt must be 0
     .vldxa ⟨7, false, false, false, false, 2, 3, 4⟩,                 -- scope 7
     .vldv ⟨0, false, false, true, false, 0, 3, 4⟩,                   -- o where it has no meaning
     .vld ⟨0, false, false, false, true, 0, 3, 4⟩,                    -- c where no source chains
     .vld ⟨0, false, false, false, false, 1, 3, 4⟩,                   -- x must be 0
     .mma ⟨2, false, false, false, false, 0, 1, 2⟩,                   -- format 2
     .mldb ⟨0, false, false, false, false, 0, 1, 2⟩,                  -- B buffer 2
     .mgemv ⟨9, false, false, false, false, 1, 2, 16⟩] = true := by decide +kernel

theorem test_wf_refuses_orders_fences_csrs : allIll
    [.ldacq ⟨1, 0, 0, 1, 2⟩, .amoadd ⟨0, 1, 1, 2, 3⟩, .amocas ⟨0, 2, 1, 2, 3⟩,
     .fence ⟨0x00F, 0, 0⟩, .fence ⟨0x006, 0, 0⟩, .fence ⟨0x208, 0, 0⟩, .fence ⟨0x008, 1, 0⟩,  -- scope 7; no class; bit 9; a
     .csrrd ⟨0x000, 1, 2⟩, .csrrd ⟨0x006, 0, 2⟩, .csrwr ⟨0x052, 0, 0⟩, .trap ⟨0, 1, 0⟩, .tret ⟨1, 0, 0⟩] = true := by decide +kernel


/-! ## States to test on -/

/-- A logical core that runs at U. -/
def core0 : LCore := .start .nothing

/-- A logical core with a VTYPE and a VL. -/
def vec (vtype : Word) (vl : Nat) : LCore := { core0 with vtype := vtype, vl := vl }

/-- Thread 0 holds this logical core; memory is empty and nothing is mapped. -/
def one (c : LCore) : State := { State.reset with threads := [(0, { HThread.idle with occupied := true, lc := c })] }

/-- A booted device whose pages map 32 KiB from 0x80000 of context 0; thread 0 holds this logical core. -/
def paged (c : LCore) : State := (State.reset.withFetchWord 32 0).setLc { c with job := { c.job with ctx := 0 } }

/-- The g registers named hold these values. -/
def LCore.gs (c : LCore) (l : List (Reg × Word)) : LCore := l.foldl (fun c p => c.wr p.1 p.2) c

/-- The elements of the group at register r, at width w, from element 0. -/
def LCore.els (c : LCore) (r w : Nat) (l : List Nat) : LCore := l.zipIdx.foldl (fun c p => c.setElem r w p.2 p.1) c

/-- What the group at register r holds. -/
def LCore.list (c : LCore) (r w n : Nat) : List Nat := (List.range n).map (c.elem r w)

/-- The state after; reset where there is none. -/
def after (o : Host.Outcome State Fault Refusal) : State := match o with
  | .next t => t
  | _ => State.reset

/-- Whether there is a next state. -/
def goesOn (o : Host.Outcome State Fault Refusal) : Bool := match o with
  | .next _ => true
  | _ => false

/-- What g1 holds once the instruction has run with g2 and g3. -/
noncomputable def result (i : Instr) (a b : Word) : Word := (after (exec i (one (core0.gs [(2, a), (3, b)])))).lc.rd 1

/-- The cause and TVAL that a step leaves, with TACT. -/
def trapped (t : State) : Bool × BitVec 10 × Word := (t.lc.tact, t.lc.tcause, t.lc.tval)

/-- Bytes of memory. -/
def bytesAt (t : State) (key n : Nat) : List Nat := ((keysFrom key n).map (Memory.get t.mem)).map (·.toNat)

/-! ## Results -/

/-- R254, R255: wrap, signed division toward zero, division by 0 and of the most negative number by −1. -/
theorem test_scalar_integers :
    result (.add ⟨3, 2, 1⟩) 0xFFFFFFFFFFFFFFFF 1 = 0 ∧ result (.sub ⟨3, 2, 1⟩) 0 1 = 0xFFFFFFFFFFFFFFFF
      ∧ result (.sra ⟨3, 2, 1⟩) 0x8000000000000000 0x41 = 0xC000000000000000
      ∧ result (.slt ⟨3, 2, 1⟩) 0xFFFFFFFFFFFFFFFF 0 = 1 ∧ result (.sltn ⟨3, 2, 1⟩) 0xFFFFFFFFFFFFFFFF 0 = 0
      ∧ result (.mulh ⟨3, 2, 1⟩) 0xFFFFFFFFFFFFFFFF 2 = 0xFFFFFFFFFFFFFFFF ∧ result (.mulhn ⟨3, 2, 1⟩) 0xFFFFFFFFFFFFFFFF 2 = 1
      ∧ result (.div ⟨3, 2, 1⟩) 0xFFFFFFFFFFFFFFF9 2 = 0xFFFFFFFFFFFFFFFD ∧ result (.rem ⟨3, 2, 1⟩) 0xFFFFFFFFFFFFFFF9 2 = 0xFFFFFFFFFFFFFFFF
      ∧ result (.div ⟨3, 2, 1⟩) 0x8000000000000000 0xFFFFFFFFFFFFFFFF = 0x8000000000000000
      ∧ result (.rem ⟨3, 2, 1⟩) 0x8000000000000000 0xFFFFFFFFFFFFFFFF = 0
      ∧ result (.divn ⟨3, 2, 1⟩) 7 0 = 0xFFFFFFFFFFFFFFFF ∧ result (.remn ⟨3, 2, 1⟩) 7 0 = 7
      ∧ result (.clz ⟨0, 2, 1⟩) 1 0 = 63 ∧ result (.ctz ⟨0, 2, 1⟩) 0 0 = 64 ∧ result (.popc ⟨0, 2, 1⟩) 0xF0F 0 = 8 := by decide +kernel

/-- R256, and g0 reads 0 and discards writes. -/
theorem test_immediates :
    result (.addi ⟨0x7FFF, 2, 1⟩) 5 0 = 4 ∧ result (.andi ⟨0x4000, 2, 1⟩) 0xFFFFFFFFFFFFFFFF 0 = 0xFFFFFFFFFFFFC000
      ∧ result (.srai ⟨63, 2, 1⟩) 0x8000000000000000 0 = 0xFFFFFFFFFFFFFFFF ∧ result (.lui ⟨0x80000, 1⟩) 0 0 = 0xFFFFFFFC00000000
      ∧ (after (exec (.addi ⟨7, 0, 0⟩) (one core0))).lc.rd 0 = 0 := by decide +kernel

/-- R257 to R259: 1 + 2^-24 ties to even, 1/0 raises DZ, sqrt of -1 is the NaN and raises NV, FP32 to n64 saturates. -/
theorem test_scalar_floats :
    result (.fadd ⟨false, 3, 2, 1⟩) 0x3F800000 0x33800000 = 0x3F800000
      ∧ (after (exec (.fadd ⟨false, 3, 2, 1⟩) (one (core0.gs [(2, 0x3F800000), (3, 0x33800000)])))).lc.fflags = 0x01
      ∧ (after (exec (.fdiv ⟨true, 3, 2, 1⟩) (one (core0.gs [(2, 0x3FF0000000000000)])))).lc.fflags = 0x08
      ∧ result (.fdiv ⟨true, 3, 2, 1⟩) 0x3FF0000000000000 0 = 0x7FF0000000000000
      ∧ result (.fsqrt ⟨false, 0, 2, 1⟩) 0xBF800000 0 = 0x7FC00000
      ∧ result (.fcmp ⟨1, false, 3, 2, 1⟩) 0xBF800000 0x3F800000 = 1 := by decide +kernel

/-- R260, R261, R270: the offset counts words; LOOP stops at 0; TRAP keeps the address after it. -/
theorem test_control :
    (after (exec (.blt ⟨0x7FFF, 2, 3⟩) (one ({ core0 with pc := 0x100 }.gs [(2, 0xFFFFFFFFFFFFFFFF)])))).lc.pc = 0xFC
      ∧ (after (exec (.bltn ⟨0x7FFF, 2, 3⟩) (one ({ core0 with pc := 0x100 }.gs [(2, 0xFFFFFFFFFFFFFFFF)])))).lc.pc = 0x104
      ∧ (after (exec (.loop ⟨2, 2, 0⟩) (one ({ core0 with pc := 0x100 }.gs [(2, 2)])))).lc.pc = 0x108
      ∧ (after (exec (.loop ⟨2, 2, 0⟩) (one ({ core0 with pc := 0x100 }.gs [(2, 1)])))).lc.pc = 0x104
      ∧ (after (exec (.jalr ⟨4, 2, 2⟩) (one ({ core0 with pc := 0x100 }.gs [(2, 0x200)])))).lc.pc = 0x204
      ∧ trapped (after (exec (.trap ⟨0x123, 0, 0⟩) (one { core0 with pc := 0x100, tvec := 0x400 }))) = (true, 0x050, 0x123)
      ∧ (after (exec (.trap ⟨0x123, 0, 0⟩) (one { core0 with pc := 0x100, tvec := 0x400 }))).lc.tpc = 0x104 := by decide +kernel

/-- The lengths that the spec's table grants (R53, R285). -/
theorem test_lengths_granted :
    ([(10, 1, 8), (3, 1, 3), (7, 0, 6), (1, 0, 1), (300, 5, 256), (5000, 0x3C, 4096), (5000, 0x33, 4096), (9, 0x0A, 0)] :
        List (Word × Word × Nat)).all (fun x =>
      (after (exec (.setvl ⟨3, 2, 1⟩) (one (core0.gs [(2, x.1), (3, x.2.1)])))).lc.vl == x.2.2) = true := by decide +kernel

/-- The spec's example of VCONFL and VFCOMB (R303, R304). -/
theorem test_conflicting_updates :
    let s := one ((vec 0x4 8).els 12 32 [3, 5, 3, 3, 7, 5, 2, 3])
    let t := after (exec (.vconfl ⟨false, false, false, false, 0, 12, 20⟩) s)
    let u := t.setLc ({ t.lc with vtype := 0xC }.els 16 32
      [0x4B800000, 0x3F800000, 0x3F800000, 0x3F800000, 0x40800000, 0x3E800000, 0x40400000, 0xCB800000])
    let v := after (exec (.vfcomb ⟨false, false, false, false, 20, 16, 24⟩) u)
    t.lc.list 20 32 8 = [0, 1, 0, 0, 4, 1, 6, 0] ∧ v.lc.list 24 32 8 = [0, 0x3FA00000, 0, 0, 0x40800000, 0, 0x40400000, 0]
      ∧ v.lc.fflags = 0x01 := by decide +kernel

/-- The spec's five-element sum (R144). -/
theorem test_five_element_sum :
    let s := one (((vec 0xC 5).els 2 32 [0x4B800000, 0x3F800000, 0x3F800000, 0x3F800000, 0xCB800000]).gs [(3, 0x3F000000)])
    (after (exec (.vfredsum ⟨false, false, false, false, 3, 2, 1⟩) s)).lc.rd 1 = 0x40600000
      ∧ (after (exec (.vfredsum ⟨false, false, false, false, 3, 2, 1⟩) s)).lc.fflags = 0 := by decide +kernel

/-- The spec's store of eight FP32 values as E4M3 (R138 to R140). -/
theorem test_store_as_e4m3 :
    let c := ((vec 0xC 8).els 8 32
      [0x3F800000, 0x43960000, 0x43FA0000, 0x7FC00000, 0xC47A0000, 0x3A83126F, 0x40300000, 0x80000000]).gs [(5, 0x80100)]
    let t := after (exec (.vst ⟨9, false, false, false, false, 0, 5, 8⟩) (paged ({ c with satk := 0xB }.setKbit 3 0 true)))
    bytesAt t 0x40100 8 = [0x38, 0x79, 0x7E, 0x7F, 0xFE, 0x01, 0x43, 0x80] ∧ (t.lc.kreg 3).toNat = 0x1D ∧ t.lc.fflags = 0x07 := by
  decide +kernel

/-- The spec's block of E2M1B (R133). -/
theorem test_store_as_block :
    let c := ((vec 0xC 4).els 2 32 [0x40A00000, 0xBFA66666, 0x3F333333, 0x3E75C28F]).gs [(6, 0x80200)]
    let t := after (exec (.vst ⟨13, false, false, false, false, 0, 6, 2⟩) (paged c))
    bytesAt t 0x40200 18 = [0xB8, 0x01] ++ List.replicate 14 0 ++ [0x7F, 0x4A] ∧ t.lc.fflags = 0x01 := by decide +kernel

/-- The worked program of the hypervector record: v7 = R0 xor F0 and the index of its sort 0 filler (R315). -/
theorem test_hypervectors :
    let s := one (({ core0 with hvw := 64, vtype := 0x3, vl := 64 }.els 1 64 [0xF00FFF000FFF000F]).els 4 64 [0xF00FFF00F000FFF0])
    let t := after (exec (.hvbind ⟨false, false, false, false, 4, 1, 7⟩) s)
    t.lc.elem 7 64 0 = 0x00000000FFFFFFFF
      ∧ (after (exec (.hvsim ⟨false, false, false, false, 4, 1, 3⟩) s)).lc.rd 3 = 32
      ∧ (after (exec (.hvperm ⟨false, false, false, false, 2, 1, 7⟩) (s.setLc (s.lc.gs [(2, 0xFFFFFFFFFFFFFFFC)])))).lc.elem 7 64 0
          = 0xFF00FFF000FFF000 := by decide +kernel

/-- The spec's dot product rounded once (R145), and one element at each determinism level (R375). -/
theorem test_dot_product_and_levels :
    let r := dotRound false 0x3F800000 (rowVals 14 ([0x80, 0x3F, 0x80, 0x3F] ++ List.replicate 60 0)) (rowVals 14 ([0x80, 0x33, 0x80, 0x33] ++ List.replicate 60 0))
    r = (0x3F800001, 0) ∧ dotRound true 0x80000000 (rowVals 0 (0xFF :: List.replicate 63 0)) (rowVals 0 (List.replicate 64 0)) = (0, 0)
      ∧ combineAt 0 32 true 1 [(0, 0x3F800000), (1, 0x4B800000), (2, 0x3F800000)] = 0x4B800000
      ∧ combineAt 0 32 true 2 [(0, 0x3F800000), (1, 0x4B800000), (2, 0x3F800000)] = 0x4B800001 := by decide +kernel

/-- R148, R151: sign extension, little-endian bytes, and an AMOCAS whose d gives what it compares. -/
theorem test_scalar_memory :
    let s := paged (core0.gs [(1, 0x80100), (2, 0x80)])
    let t := after (exec (.stb ⟨7, 1, 2⟩) s)
    let u := after (exec (.amocas ⟨0, 0, 2, 1, 3⟩) (t.setLc (t.lc.wr 3 0x8000000000000000)))
    bytesAt t 0x40100 8 = [0, 0, 0, 0, 0, 0, 0, 0x80]
      ∧ (after (exec (.ldb ⟨7, 1, 3⟩) t)).lc.rd 3 = 0xFFFFFFFFFFFFFF80 ∧ (after (exec (.ldd ⟨0, 1, 3⟩) t)).lc.rd 3 = 0x8000000000000000
      ∧ u.lc.rd 3 = 0x8000000000000000 ∧ bytesAt u 0x40100 8 = [0x80, 0, 0, 0, 0, 0, 0, 0]
      ∧ trapped (after (exec (.ldd ⟨1, 1, 3⟩) (s.setLc { s.lc with tvec := 0x80000 }))) = (true, 0x003, 0x80101) := by decide +kernel

/-- R288, R290: an element below VSTART and one whose mask bit is 0 keep their values. -/
theorem test_vector_window_and_mask :
    let c := ((vec 0x2 4).els 1 8 [250, 2, 3, 4]).els 2 8 [10, 20, 30, 40]
    let t := after (exec (.vadd ⟨true, false, false, false, 2, 1, 3⟩)
      (one ({ c with vstart := 1 }.setKbit 0 1 true |>.setKbit 0 3 true |>.setKbit 0 0 true)))
    t.lc.list 3 8 5 = [0, 22, 0, 44, 0] ∧ t.lc.vstart = 0
      ∧ (after (exec (.vsadd ⟨false, false, false, false, 2, 1, 3⟩) (one ((vec 0x2 2).els 1 8 [127, 128] |>.els 2 8 [1, 255])))).lc.list 3 8 2
          = [127, 128] := by decide +kernel


/-! ## States and operands that meet the hypotheses of the statements -/

/-- The conditions of `Issues`. -/
noncomputable def State.issuesAlone (s : State) (i : Instr) : Bool :=
  s.win.isNone && (s.thr s.cur).stopAsked.isNone && match s.memberOf i with
  | some x => !s.lc.awaits x.groups && (issueCheck s.lc none [x]).isNone && (s.pendingPort x.gs).isNone
  | none => false

/-- The conditions of `Passes`. -/
def State.allPass (s : State) (x : Member) : Bool :=
  !s.lc.awaits x.groups && (issueCheck s.lc none [x]).isNone && (s.pendingPort x.gs).isNone

theorem State.issues_of {s : State} {i : Instr} (h : s.issuesAlone i = true) : ∃ x, s.Issues i x := by
  unfold State.issuesAlone at h
  cases hm : s.memberOf i with
  | none => simp [hm] at h
  | some x =>
    simp only [hm, Bool.and_eq_true, Bool.not_eq_true', Option.isNone_iff_eq_none] at h
    exact ⟨x, h.1.1, hm, h.2.1.1, h.2.1.2, h.2.2, h.1.2⟩

theorem State.passes_of {s : State} {x : Member} (h : s.allPass x = true) : s.Passes x := by
  simp only [State.allPass, Bool.and_eq_true, Bool.not_eq_true', Option.isNone_iff_eq_none] at h
  exact ⟨h.1.1, h.1.2, h.2⟩

/-- Every instruction of a list is well formed and issues alone. -/
theorem State.all_issue {s : State} {l : List Instr} (h : (l.all fun i => i.wf && s.issuesAlone i) = true) :
    ∀ i ∈ l, i.wf = true ∧ ∃ x, s.Issues i x := fun i hi => by
  have := List.all_eq_true.mp h i hi
  simp only [Bool.and_eq_true] at this
  exact ⟨this.1, State.issues_of this.2⟩

/-- A result that is good, with the state beside it. -/
theorem answers {α β ε : Type} {r : α × Except ε β} (h : (match r.2 with | .ok _ => true | .error _ => false) = true) :
    ∃ v l, r = (v, .ok l) := by
  obtain ⟨v, e | l⟩ := r
  · simp at h
  · exact ⟨v, l, rfl⟩

/-- A reading that meets no poison. -/
theorem reads {α β : Type} {r : α × Option β} (h : r.2.isSome = true) : ∃ v b, r = (v, some b) := by
  obtain ⟨v, _ | b⟩ := r
  · simp at h
  · exact ⟨v, b, rfl⟩

/-- A state of these pages where a number of n bytes stands at a key. -/
def holding (s : State) (l : List (Nat × Nat × Nat)) : State := l.foldl (fun s x => s.putNum x.1 x.2.1 x.2.2) s

theorem meets_DecodeEncode :
    (∃ i : Instr, i.isEvent = false ∧ i.wf = true) ∧ (∃ w i, decode w = .ok i) ∧ ¬ (0x29 ≤ 0x28 ∨ 0x40 ≤ 0x29) :=
  ⟨⟨.add ⟨31, 31, 31⟩, by decide⟩, ⟨0x00000001, .add ⟨0, 0, 0⟩, by decide +kernel⟩, by decide⟩

/-- The thread that runs at the placed word, whose bytes are read; a word that decodes to nothing; a fetch that fails; two
words of a convoy, a word that breaks it, one whose fetch fails, one that decodes to nothing; a turn on the agenda. -/
theorem meets_StepRunsDecoded :
    let s := State.reset.withFetchWord 32 0x00800182
    let two (w : Nat) : State := State.reset.withFetchWord 64 (0x010411A0 + 2 ^ 32 * w)
    let v := two 0x000A4320
    let last : State := let t := holding (State.reset.withFetchWord 32 0) [(0x47FFC, 4, 0x010411A0)]
      t.setLc { t.lc with pc := 0x87FFC }
    (s.agenda = [] ∧ (s.thr s.cur).occupied = true ∧ (s.thr s.cur).stopped = false ∧ (s.thr s.cur).stopAsked = none ∧ (s.thr s.cur).fwd = false
        ∧ s.passWaits s.cur = false ∧ s.lc.waitFor = .none)
      ∧ (match s.span .fetch .fetch s.lc.pc 4 with
          | (u, .ok l) => (u.read (l.map (·.key))).2.isSome && l.all fun x => (Cells.get? u.icache (cacheKey u.core x.key)).isNone
          | _ => false) = true
      ∧ ((s.fetchWord s.lc.pc).2 = .ok 0x00800182 ∧ (convoyWord 0x00800182 && convoyBit 0x00800182) = false
        ∧ decode 0x00800182 = .ok (.addi ⟨0x40, 0, 3⟩))
      ∧ (((State.reset.withFetchWord 32 0).fetchWord s.lc.pc).2 = .ok 0 ∧ decode 0 = .error .reservedMajor)
      ∧ (s.fetchWord 0).2 = .error (.trap .pageNp 0)
      ∧ ((v.fetchWord v.lc.pc).2 = .ok 0x010411A0 ∧ convoyWord 0x010411A0 = true ∧ convoyBit 0x010411A0 = true
        ∧ (v.fetchGroup v.lc.pc).2 = .ok ([0x010411A0, 0x000A4320], none)
        ∧ decodeAll decodeWord 0 [0x010411A0, 0x000A4320]
          = .ok [.vadd ⟨false, true, false, false, 2, 1, 3⟩, .vadd ⟨false, false, false, false, 5, 4, 6⟩])
      ∧ ((two 0x00800182).fetchGroup v.lc.pc).2 = .ok ([0x010411A0], some 0)
      ∧ (last.fetchWord last.lc.pc).2 = .ok 0x010411A0 ∧ (last.fetchGroup last.lc.pc).2 = .error (.trap .pageNp 0x88000, 1)
      ∧ ((two 0xFC000020).fetchGroup v.lc.pc).2 = .ok ([0x010411A0, 0xFC000020], none)
      ∧ decodeAll decodeWord 0 [0x010411A0, 0xFC000020] = .error (1, 0xFC000020)
      ∧ ({ s with agenda := [.turn 0] } : State).agenda = [.turn 0] := by decide +kernel

theorem meets_StepKeepsMemoryCanonical :
    let s := State.reset.withFetchWord 32 0x00800182
    Memory.wf s.mem = true ∧ goesOn (step s) = true := by decide +kernel


/-- A shape record whose every word is 0. -/
def shape0 : Shape := ⟨0, 0, [0, 0, 0, 0, 0], [0, 0, 0, 0, 0], [0, 0, 0, 0, 0]⟩

/-- A command of thread 0 that has moved nothing. -/
def cmd0 : Cmd :=
  { owner := 0, shape := shape0, vtype := 0x4, exp := 4, mem := 0, reg := 0, token := 5, tokenPending := true, started := false,
    done := false, suspended := false, paused := false, stopAsked := false, fault := none, hold := false, satk := 0, buf := [], wrote := [],
    xlat := none, after := [], mgemv := none }

/-- Port 3 of core 0 holds these commands of thread 0. -/
def portHolds (s : State) (l : List Cmd) : State := { s with ports := [(3, ⟨some 0, l⟩)] }

/-- With two elements that thread 0 has pushed on port 3 on their way to memory. -/
def owing (s : State) : State :=
  portHolds s [{ cmd0 with shape := { shape0 with e1 := 0x800001 }, reg := 2, tokenPending := false, started := true }]

theorem meets_ScalarRegisterResults :
    let f : SF := ⟨31, 1, 31⟩
    let s := one core0
    (registerRules f).length = 21 ∧ s.Free [f.d, f.a, f.b] ∧ s.Free [f.d, f.a] ∧ s.lc.rd f.a = 0 := by
  unfold State.Free
  decide +kernel

theorem meets_ImmediateResults :
    let s := one core0
    (immediateRules ⟨0x7FFF, 0, 31⟩).length = 5 ∧ (shiftRules ⟨63, 0, 31⟩).length = 3 ∧ s.Free [31, 0] ∧ s.Free [31] := by
  unfold State.Free
  decide +kernel

/-- Both sides of every condition. -/
theorem meets_BranchResults :
    let f : BF := ⟨0x4000, 1, 2⟩
    let s := one (core0.gs [(1, 0x8000000000000000), (2, 1)])
    let t := one (core0.gs [(1, 1), (2, 0x8000000000000000)])
    s.Free [f.a, f.b] ∧ t.Free [f.a, f.b]
      ∧ (∀ p ∈ [decide (s.lc.rd 1 ≠ s.lc.rd 2), decide ((s.lc.rd 1).toInt < (s.lc.rd 2).toInt), !decide ((t.lc.rd 1).toInt < (t.lc.rd 2).toInt),
          decide ((t.lc.rd 1).toNat < (t.lc.rd 2).toNat), !decide ((s.lc.rd 1).toNat < (s.lc.rd 2).toNat)], p = true)
      ∧ (one core0).lc.rd 1 = (one core0).lc.rd 2 := by
  unfold State.Free
  decide +kernel

theorem meets_JumpAndLoopResults :
    let s (a : Word) := one (core0.gs [(1, a)])
    (s 0).Free [31] ∧ (s 0).Free [31, 1] ∧ (s 0).Free [1] ∧ ((s 0).lc.rd 1 + BitVec.ofInt 64 (4 : BitVec 15).toInt).toNat % 4 = 0
      ∧ ((s 2).lc.rd 1 + BitVec.ofInt 64 (0 : BitVec 15).toInt).toNat % 4 ≠ 0 ∧ (s 0).lc.rd 1 = 0 ∧ (s 1).lc.rd 1 = 1 ∧ (s 2).lc.rd 1 ≠ 1 := by
  unfold State.Free
  decide +kernel

theorem meets_ScalarFloatResults :
    let f : FF := ⟨true, 31, 1, 31⟩
    (one core0).Free [f.d, f.a, f.b] ∧ (one core0).Free [f.d, f.a] ∧ (floatRules f).length = 6 := by
  unfold State.Free
  decide +kernel

theorem meets_ScalarFrame :
    scalarShape (.fadd ⟨true, 3, 2, 31⟩) = some (31, [31, 2, 3]) ∧ (one core0).Free [31, 2, 3]
      ∧ goesOn (exec (.fadd ⟨true, 3, 2, 31⟩) (one core0)) = true ∧ mayRaise (.fmin ⟨true, 3, 2, 31⟩) = false := by
  unfold State.Free
  decide +kernel

/-- A token on a port of another thread, one whose command holds a fault, one that is still to come; for a scalar
instruction, a CSR instruction and a member alone in its convoy. -/
theorem meets_PendingTokenHolds :
    let i := Instr.add ⟨5, 6, 7⟩
    let s := portHolds (one { vec 0x4 4 with level := .s }) [cmd0]
    let t := portHolds (one core0) [{ cmd0 with fault := some ⟨.poison, 0⟩ }]
    let v := { one { core0 with displaced := [⟨3, cmd0⟩] } with ports := [(3, ⟨some 1, []⟩)] }
    tokenRegs i = some [7, 6, 5] ∧ s.pendingPort [7, 6, 5] = some (3, cmd0) ∧ (s.reclaim 3).isSome = true
      ∧ (t.pendingPort [7, 6, 5]).isSome = true ∧ (t.reclaim 3).isSome = true
      ∧ v.pendingPort [7, 6, 5] = some (3, cmd0) ∧ v.reclaim 3 = none
      ∧ tokenRegs (.ldd ⟨0, 5, 1⟩) = some [1, 5] ∧ s.pendingPort [1, 5] = some (3, cmd0) ∧ tokenRegs (.amoadd ⟨0, 0, 5, 2, 1⟩) = some [1, 2, 5]
      ∧ csrMask .s (0x045 : BitVec 12).toNat ≠ 0 ∧ (s.lc.level == .u && csrPriv 0x045) = false
      ∧ (s.win = none ∧ (match s.memberOf (.vaddScalar ⟨false, false, false, false, 5, 2, 1⟩) with
          | some x => !s.lc.awaits x.groups && (issueCheck s.lc none [x]).isNone && (s.pendingPort x.gs).isSome
          | none => false) = true) := by decide +kernel

/-- A logical core at integer e32 and at e32f, with VL 4 and VSTART 1. -/
def int4 : State := one { vec 0x4 4 with vstart := 1 }
def flt4 : State := one { vec 0xC 4 with vstart := 1 }
/-- Fields of a masked member, of one without a mask, and of one that names no s2. -/
def fieldsM : VF := ⟨true, false, false, false, 3, 2, 1⟩
def fieldsP : VF := ⟨false, false, false, false, 3, 2, 1⟩
def fieldsZ : VF := ⟨false, false, false, false, 0, 2, 1⟩

theorem meets_VectorIntegerResults :
    ∀ i ∈ (integerRules fieldsM).flatMap (fun p => [p.1, p.2.1]), i.wf = true ∧ ∃ x, int4.Issues i x :=
  State.all_issue (by decide +kernel)

theorem meets_VectorFloatResults :
    (∀ i ∈ (floatingRules fieldsM).flatMap (fun p => [p.1, p.2.1]), i.wf = true ∧ ∃ x, flt4.Issues i x)
      ∧ flt4.lc.vl ≤ Vtype.vlmax flt4.lc.vtype ∧ 2 ^ 32 - 1 < 2 ^ (Vtype.fmt flt4.lc.vtype).w :=
  ⟨State.all_issue (by decide +kernel), by decide +kernel⟩

theorem meets_VectorUnaryResults :
    (∀ i ∈ [Instr.vpopc fieldsZ, .vclz fieldsZ, .vid { fieldsZ with s1 := 0 }, .vmvs fieldsZ, .vmerge fieldsM, .vmergeScalar fieldsM],
        i.wf = true ∧ ∃ x, int4.Issues i x)
      ∧ (∀ i ∈ (unaryFloatRules fieldsZ).map (·.1), i.wf = true ∧ ∃ x, flt4.Issues i x)
      ∧ int4.lc.vl ≤ Vtype.vlmax int4.lc.vtype ∧ flt4.lc.vl ≤ Vtype.vlmax flt4.lc.vtype
      ∧ 2 ^ 32 - 1 < 2 ^ (Vtype.fmt flt4.lc.vtype).w :=
  ⟨State.all_issue (by decide +kernel), State.all_issue (by decide +kernel), by decide +kernel, by decide +kernel, by decide +kernel⟩

theorem meets_MaskRegisterResults :
    (∀ i ∈ (compareRules { fieldsM with d := 7 }).flatMap (fun p => [p.1, p.2.1]), i.wf = true ∧ ∃ x, int4.Issues i x)
      ∧ (∀ i ∈ (floatCompareRules { fieldsM with d := 7 }).flatMap (fun p => [p.1, p.2.1]), i.wf = true ∧ ∃ x, flt4.Issues i x)
      ∧ (∀ i ∈ [Instr.kand { fieldsP with s1 := 8 }, .kor fieldsP, .kxor fieldsP, .knot fieldsZ, .kmov { fieldsZ with d := 8 }],
        i.wf = true ∧ ∃ x, int4.Issues i x) :=
  ⟨State.all_issue (by decide +kernel), State.all_issue (by decide +kernel), State.all_issue (by decide +kernel)⟩

/-- With active elements, and, masked under an empty k0, with none. -/
theorem meets_ReductionResults :
    (∀ i ∈ [Instr.kffs fieldsZ, .kpopc fieldsZ, .vmvx fieldsZ, .vredsum fieldsP, .vredmax fieldsP, .vredmin fieldsP, .vargmax fieldsZ,
        .vargmax { fieldsZ with m := true }], i.wf = true ∧ ∃ x, int4.Issues i x)
      ∧ (∀ i ∈ [Instr.vfredsum fieldsP, .vfredmax fieldsP, .vfredmin fieldsP], i.wf = true ∧ ∃ x, flt4.Issues i x)
      ∧ int4.lc.vl ≤ 4096 ∧ (int4.lc.vl ≤ 2 ^ 2 ∧ ∀ i, i < 2 → ¬ int4.lc.vl ≤ 2 ^ i)
      ∧ (List.range int4.lc.vl).filter (int4.lc.active true) = []
      ∧ (List.range int4.lc.vl).filter (int4.lc.active false) = [0, 1, 2, 3] :=
  ⟨State.all_issue (by decide +kernel), State.all_issue (by decide +kernel), by decide +kernel, by decide +kernel, by decide +kernel,
    by decide +kernel⟩

theorem meets_PermuteResults :
    (∀ i ∈ [Instr.vslideup fieldsM, .vslidedn fieldsM, .vrgath fieldsM, .vcmpr { fieldsZ with m := true }, .vspsel { fieldsM with s2 := 2 },
        .vconfl fieldsZ], i.wf = true ∧ ∃ x, (one (vec 0x4 4)).Issues i x)
      ∧ (∀ i ∈ [Instr.vfcomb fieldsP], i.wf = true ∧ ∃ x, (one (vec 0xC 4)).Issues i x) :=
  ⟨State.all_issue (by decide +kernel), State.all_issue (by decide +kernel)⟩

theorem meets_ConversionResults :
    (∀ i ∈ [Instr.vcvt ⟨true, false, false, false, 0, 2, 1⟩], i.wf = true ∧ ∃ x, flt4.Issues i x)
      ∧ ∀ i ∈ [Instr.vcvt ⟨false, false, false, false, 9, 2, 4⟩], i.wf = true ∧ ∃ x, (one (vec 0x3 4)).Issues i x :=
  ⟨State.all_issue (by decide +kernel), State.all_issue (by decide +kernel)⟩

/-- The members of a convoy. -/
def State.members (s : State) (l : List Instr) : List Member := l.filterMap s.memberOf

def decideRuns (p q : List (Nat × Nat)) : Decidable (RunsMeet p q) := by unfold RunsMeet; infer_instance

def decideClashes (w o : Member) : Decidable (w.Clashes o) := by
  unfold Member.Clashes
  letI : ∀ p q, Decidable (RunsMeet p q) := decideRuns
  infer_instance

def decideGuards (c : LCore) (x o : Member) : Decidable (x.Guards c o) := by unfold Member.Guards; infer_instance

/-- Whether member k fails check n. -/
def decideFails (c : LCore) (b : Option Nat) (xs : List Member) (n k : Nat) (x : Member) : Decidable (Fails c b xs n k x) := by
  unfold Fails
  letI : ∀ p q, Decidable (RunsMeet p q) := decideRuns
  letI : ∀ w o, Decidable (Member.Clashes w o) := decideClashes
  letI : ∀ w o, Decidable (Member.Guards c w o) := decideGuards c
  infer_instance

def fails (c : LCore) (b : Option Nat) (xs : List Member) (n k : Nat) (x : Member) : Bool := (decideFails c b xs n k x).decide

theorem fails_iff {c : LCore} {b : Option Nat} {xs : List Member} {n k : Nat} {x : Member} : fails c b xs n k x = true ↔ Fails c b xs n k x :=
  @decide_eq_true_iff _ (decideFails c b xs n k x)

/-- A floating operation at an integer VTYPE at the second place; a group of 2 at an odd register; a broken convoy; three
members of a class of two; a whole result that another member writes; a gather whose d overlaps its index. -/
theorem meets_VectorCheckTraps :
    let add (s1 s2 d : Reg) : Instr := .vfadd ⟨false, true, false, false, s2, s1, d⟩
    let first (s : State) (b : Option Nat) (l : List Instr) (n k : Nat) : Bool := l.map s.memberOf == (s.members l).map some
      && !s.lc.awaits ((s.members l).flatMap (·.groups)) && ((s.members l)[k]?).any (fails s.lc b (s.members l) n k)
      && (s.members l).zipIdx.all fun y => (List.range (n + 1)).all fun m =>
          !(decide (m < n) || decide (y.2 < k)) || !fails s.lc b (s.members l) m y.2 y.1
    first int4 none [.vadd fieldsP, .vfadd fieldsP] 4 1 = true ∧ first (one (vec 0x14 4)) none [.vadd fieldsP] 5 0 = true
      ∧ first flt4 (some 0) [add 2 3 1] 6 0 = true ∧ first flt4 none [add 2 3 1, add 2 3 4, add 2 3 5] 6 2 = true
      ∧ first int4 none [.vredsum fieldsP, .vaddScalar ⟨false, false, false, false, 1, 2, 3⟩] 6 0 = true
      ∧ first int4 none [.vldx ⟨0, false, false, false, false, 1, 2, 1⟩] 7 0 = true := by decide +kernel

/-- Two floating members that pass, in a window that no stop cuts, one that a stop cuts after a group or at the end
of the last, and one whose stop would come later. -/
theorem meets_VectorCheckTraps_runs :
    let l : List Instr := [.vfadd ⟨false, true, false, false, 3, 2, 1⟩, .vfmul ⟨false, false, false, false, 1, 2, 4⟩]
    let s := one (vec 0xC 100)
    let t : State := s.setThr 0 { s.thr 0 with stopAsked := some 1 }
    let end_ (j : Nat) : Nat := let g := Vtype.groupOf (Vtype.c s.lc.vtype); max s.lc.vstart.toNat ((s.lc.vstart.toNat / g + j) * g)
    let last : Nat := let g := Vtype.groupOf (Vtype.c s.lc.vtype); (s.lc.vl + g - 1) / g * g
    (l.map s.memberOf = (s.members l).map some ∧ s.lc.awaits ((s.members l).flatMap (·.groups)) = false
        ∧ s.pendingPort ((s.members l).flatMap (·.gs)) = none ∧ s.lc.oldVals = [] ∧ (∀ x ∈ s.members l, Pipe.memory ∉ x.pipes))
      ∧ ((s.thr s.cur).stopAsked = none ∧ (t.thr t.cur).stopAsked = some 1 ∧ end_ 1 < s.lc.vl ∧ s.lc.vl < end_ 2 ∧ end_ 2 = last ∧ last < end_ 3
        ∧ max t.lc.vstart.toNat ((t.lc.vstart.toNat / Vtype.groupOf (Vtype.c t.lc.vtype) + 1) * Vtype.groupOf (Vtype.c t.lc.vtype)) < t.lc.vl)
      ∧ ((s.members l).zipIdx.all fun y => (List.range 8).all fun m => !fails s.lc none (s.members l) m y.2 y.1) = true
      ∧ (int4.memberOf (.vredsum fieldsP)).any (·.whole) = true := by decide +kernel

/-- SETVL and SETVLI with a legal request and with e8f. -/
theorem meets_ConfigureResults :
    let s := one (core0.gs [(3, 0x0A)])
    s.passes.any (·.thr == s.cur) = false ∧ s.lc.oldVals = [] ∧ s.pendingPort [31, 2, 3] = none ∧ s.pendingPort [31, 2] = none
      ∧ (s.lc.rd 3).toNat / 8 % 2 = 1 ∧ (s.lc.rd 3).toNat % 8 = 2 ∧ BitVec.ofNat 64 ((5 : BitVec 15).toNat % 1024) = 5 := by decide +kernel


/-- A good result with what holds of it. -/
theorem answers_with {α β ε : Type} {r : α × Except ε β} {p : α → β → Bool}
    (h : (match r.2 with | .ok l => p r.1 l | .error _ => false) = true) : ∃ v l, r = (v, .ok l) ∧ p v l = true := by
  obtain ⟨v, e | l⟩ := r
  · simp at h
  · exact ⟨v, l, rfl, h⟩

/-- A reading without poison with what holds of it. -/
theorem reads_with {α β : Type} {r : α × Option β} {p : α → β → Bool}
    (h : (match r.2 with | some b => p r.1 b | none => false) = true) : ∃ v b, r = (v, some b) ∧ p v b = true := by
  obtain ⟨v, _ | b⟩ := r
  · simp at h
  · exact ⟨v, b, rfl, h⟩

/-- What a barrier access reaches: the key of the object and the state that performs. -/
def State.toBarrier (u : State) (acc : Acc) (addr : Word) : Option (Nat × State) :=
  match u.scalarAccess .vectorAtomic acc addr 64 with
  | (u1, .ok l) =>
    match u1.load l with
    | (u2, .ok _) =>
      let b := ((l.map (·.key)).head?).getD 0
      if u2.barBad b then none else some (b, u2.dropLines u2.core (l.map (·.key)))
    | _ => none
  | _ => none

/-- A barrier at a key is reached in a state of which something holds. -/
theorem State.reaches_barrier {u : State} {acc : Acc} {addr : Word} {b : Nat} {p : State → Bool}
    (h : (match u.toBarrier acc addr with | some (k, v) => k == b && p v | none => false) = true) :
    ∃ v, u.AtBarrier acc addr b v ∧ p v = true := by
  cases hb : u.toBarrier acc addr with
  | none => simp [hb] at h
  | some kv =>
    obtain ⟨k, v⟩ := kv
    simp only [hb, Bool.and_eq_true, beq_iff_eq] at h
    obtain ⟨rfl, hp⟩ := h
    refine ⟨v, ?_, hp⟩
    unfold State.toBarrier at hb
    split at hb <;> try cases hb
    rename_i u1 l h1
    split at hb <;> try cases hb
    rename_i u2 x h2
    dsimp only at hb
    split at hb <;> cases hb
    rename_i hbad
    exact ⟨u1, u2, l, x, h1, h2, rfl, by simpa using hbad, rfl⟩

/-- A logical core of a privileged context. -/
def corePriv : LCore := .start { Job.nothing with priv := true }

/-- A privileged context; a runtime call; a trap of a context that is not privileged; a second trap; no handler. -/
theorem meets_TrapDelivery :
    let a := one { corePriv with tvec := 0x400 }
    let b : State := { one core0 with host := { HostRegs.reset with rtvec := 4 } }
    let c := one { core0 with tvec := 0x400 }
    let d := one { core0 with tact := true }
    (a.lc.tact = false ∧ a.lc.job.priv = true ∧ a.lc.tvec ≠ 0) ∧ (b.lc.tact = false ∧ b.lc.job.priv = false ∧ b.host.rtvec ≠ 0)
      ∧ (0xC00 ≤ (0xC00 : Word).toNat ∧ (0xFFF : Word).toNat ≤ 0xFFF)
      ∧ (c.lc.tact = false ∧ c.lc.job.priv = false ∧ c.host.rtvec = 0 ∧ c.lc.tvec ≠ 0) ∧ d.lc.tact = true
      ∧ ((one core0).lc.tvec = 0 ∧ (one core0).host.rtvec = 0) := by decide +kernel

theorem meets_KillFreesContext :
    let s : State := { one core0 with threads := [(0, { HThread.idle with occupied := true }),
      (767, { HThread.idle with occupied := true, lc := { core0 with job := { Job.nothing with ctx := 4095 } } })] }
    (s.thr 767).occupied = true ∧ (s.thr 767).lc.job.ctx ≠ 0 ∧ (s.thr 0).lc.job.ctx = 0 ∧ s.latent = [] := by decide +kernel

theorem meets_TrapInstructions :
    (one { core0 with tact := true }).lc.tact = true ∧ (one core0).lc.tact = false := by decide +kernel

theorem meets_EventAndPauseResults :
    let s : State := { one core0 with saved := [⟨.slot 0 0, core0, false, false, 0, 0, none⟩] }
    (one { core0 with evf := true }).lc.evf = true ∧ (one core0).lc.evf = false ∧ s.pendingPort [1] = none ∧ s.saved.length = 1
      ∧ (s.lc.rd 1).toNat = core0.job.lcore := by decide +kernel

/-- SSCR at U; a CSR that no level writes; one with writable fields; TFWD at S. -/
theorem meets_CsrReadsAndWrites :
    let s := one core0
    let t := one corePriv
    s.notDrained = false ∧ t.notDrained = false ∧ (s.lc.level = .u ∧ t.lc.level = .s) ∧ s.pendingPort [31, 1] = none
      ∧ csrMask .u (0x000 : BitVec 12).toNat = 0 ∧ csrMask .u (0x002 : BitVec 12).toNat ≠ 0 ∧ csrMask .s (0x046 : BitVec 12).toNat ≠ 0
      ∧ csrMask .s (0x045 : BitVec 12).toNat ≠ 0 := by decide +kernel

theorem meets_CsrWriteReadsBack :
    csrNamed 0x000 = true ∧ csrNamed 0x051 = true ∧ csrNamed 0x045 = true ∧ (0x051 : BitVec 12) ≠ 0x046 := by decide +kernel

/-- An empty explicit barrier; one whose next arrival completes it; one that expects two, whose phase is found unable to
complete. -/
theorem meets_BarrierArrival :
    let s := paged (core0.gs [(1, 0x80100)])
    let one := holding s [(0x40100, 4, 1), (0x40110, 4, 1)]
    let two : State := { holding s [(0x40100, 4, 2), (0x40110, 4, 1)] with unreach := [(0x40100, 0)] }
    (s.pendingPort [31, 1] = none ∧ s.lc.bwp = false ∧ s.lc.barw = none ∧ s.lc.unreachMark = false ∧ s.lc.waitFor = .none ∧ s.launches = []
          ∧ (owing s).owes = true ∧ (owing s).pendingPort [31, 1] = none ∧ (owing s).lc = s.lc
          ∧ s.owes = false ∧ one.owes = false ∧ two.owes = false ∧ Memory.wf s.mem = true ∧ Memory.wf one.mem = true ∧ Memory.wf two.mem = true)
      ∧ (∃ v, (s.seen [31, 1]).AtBarrier .rmw (s.lc.rd 1) 0x40100 v ∧ (decide (v.barArr 0x40100 + 1 < 2 ^ 32) && decide (v.barExp 0x40100 = 0)
          && !(v.arrive 0x40100 none).unreach.contains (0x40100, v.barPhase 0x40100)) = true)
      ∧ (∃ v, (one.seen [31, 1]).AtBarrier .rmw (s.lc.rd 1) 0x40100 v
          ∧ (decide (v.barArr 0x40100 + 1 < 2 ^ 32) && decide (1 ≤ v.barExp 0x40100) && decide (v.barExp 0x40100 ≤ v.barArr 0x40100 + 1)) = true)
      ∧ ∃ v, (two.seen [31, 1]).AtBarrier .rmw (s.lc.rd 1) 0x40100 v
          ∧ (decide (v.barArr 0x40100 + 1 < v.barExp 0x40100) && (v.arrive 0x40100 none).unreach.contains (0x40100, v.barPhase 0x40100)
            && (v.arrive 0x40100 none).barStuck 0x40100) = true :=
  ⟨by decide +kernel, State.reaches_barrier (by decide +kernel), State.reaches_barrier (by decide +kernel),
    State.reaches_barrier (by decide +kernel)⟩

/-- A member, whose departure completes the phase and does not; no member, with a free slot; with no free slot. -/
theorem meets_BarrierMembership :
    let m : Membership := ⟨0x80100, 0x40100, 0⟩
    let s := paged (core0.gs [(1, 0x80100)])
    let t := paged ({ core0 with barriers := [m] }.gs [(1, 0x80100)])
    let last := holding t [(0x40100, 4, 2), (0x40104, 4, 1), (0x40108, 4, 2), (0x40114, 16, 3)]
    (s.pendingPort [1] = none ∧ s.owes = false ∧ t.owes = false ∧ last.owes = false ∧ (owing s).owes = true ∧ (owing s).pendingPort [1] = none
          ∧ t.lc.barriers.find? (·.home == 0x40100) = some m ∧ Memory.wf t.mem = true ∧ Memory.wf last.mem = true ∧ (∃ m ∈ t.lc.barriers, m.home = 0x40100) ∧ (∀ m ∈ s.lc.barriers, m.home ≠ 0x40100) ∧ s.lc.barriers.length < 8
          ∧ Memory.wf s.mem = true ∧ Memory.wf (holding s [(0x40114, 16, 2 ^ 128 - 1)]).mem = true)
      ∧ (∃ v, (s.seen [1]).AtBarrier .rmw (s.lc.rd 1) 0x40100 v ∧ ((v.barSlots 0x40100).getLsbD 0 == false) = true)
      ∧ (∃ v, (t.seen [1]).AtBarrier .rmw (t.lc.rd 1) 0x40100 v ∧ (!v.barExplicit 0x40100 && decide (v.barReg 0x40100 - 1 < 1)) = true)
      ∧ (∃ v, (last.seen [1]).AtBarrier .rmw (t.lc.rd 1) 0x40100 v ∧ (!v.barExplicit 0x40100 && decide (1 ≤ v.barReg 0x40100 - 1)
          && decide (v.barReg 0x40100 - 1 ≤ v.barArr 0x40100)) = true)
      ∧ ∃ v, ((holding s [(0x40114, 16, 2 ^ 128 - 1)]).seen [1]).AtBarrier .rmw (s.lc.rd 1) 0x40100 v
          ∧ (v.barSlots 0x40100 == BitVec.allOnes 128) = true :=
  ⟨by decide +kernel, State.reaches_barrier (by decide +kernel), State.reaches_barrier (by decide +kernel),
    State.reaches_barrier (by decide +kernel), State.reaches_barrier (by decide +kernel)⟩

/-- BWAIT, BARW and BTEST at a phase that differs and at one that does not, marked, not marked, and of a phase found unable
to complete, by a thread that is not yet waiting for it and by one that is; WAITC reached and not. -/
theorem meets_BarrierWaits :
    let s := paged (core0.gs [(1, 0x80100), (2, 1)])
    let w := paged ({ core0 with bwp := true, wphase := 0 }.gs [(1, 0x80100), (2, 0)])
    let t := w.setLc { w.lc with unreachMark := true }
    let two : State := { holding w [(0x40100, 4, 2), (0x40110, 4, 1)] with unreach := [(0x40100, 0)] }
    let waits := two.setLc { two.lc with waitFor := .bwait 0x40100 0 }
    (s.pendingPort [1, 2] = none ∧ s.pendingPort [31, 1] = none ∧ s.pendingPort [31, 1, 2] = none ∧ s.launches = []
        ∧ (if t.lc.bwp then some t.lc.wphase else t.lc.barw) = some 0)
      ∧ (∃ v, (s.seen [1, 2]).AtBarrier .read (s.lc.rd 1) 0x40100 v ∧ (v.barPhase 0x40100 != (s.lc.rd 2).setWidth 32 && !v.lc.unreachMark) = true)
      ∧ (∃ v, (t.seen [1, 2]).AtBarrier .read (t.lc.rd 1) 0x40100 v ∧ v.lc.unreachMark = true)
      ∧ (∃ v, (w.seen [1, 2]).AtBarrier .read (w.lc.rd 1) 0x40100 v
        ∧ (v.barPhase 0x40100 == (w.lc.rd 2).setWidth 32 && !v.lc.unreachMark && v.unreach.isEmpty) = true)
      ∧ (∃ v, (two.seen [1, 2]).AtBarrier .read (w.lc.rd 1) 0x40100 v
        ∧ (v.barPhase 0x40100 == (w.lc.rd 2).setWidth 32 && !v.lc.unreachMark && v.unreach.contains (0x40100, 0) && v.barStuck 0x40100
          && two.lc.waitFor == .none) = true)
      ∧ (∃ v, (waits.seen [1, 2]).AtBarrier .read (w.lc.rd 1) 0x40100 v
        ∧ (v.barPhase 0x40100 == (w.lc.rd 2).setWidth 32 && !v.lc.unreachMark && v.unreach.contains (0x40100, 0) && v.barStuck 0x40100
          && waits.lc.waitFor == .bwait 0x40100 0) = true)
      ∧ (∃ v, (w.seen [31, 1]).AtBarrier .rmw (w.lc.rd 1) 0x40100 v ∧ (v.barPhase 0x40100 == 0 && !v.lc.unreachMark) = true)
      ∧ (∃ v, ((holding w [(0x4010C, 4, 1)]).seen [31, 1]).AtBarrier .rmw (w.lc.rd 1) 0x40100 v ∧ (v.barPhase 0x40100 != 0 && !v.lc.unreachMark) = true)
      ∧ (∃ v, (s.seen [31, 1, 2]).AtBarrier .read (s.lc.rd 1) 0x40100 v ∧ (v.barPhase 0x40100 == 0) = true)
      ∧ ∃ u l, (s.seen [1, 2]).scalarAccess .vectorAtomic .read (s.lc.rd 1) 8 = (u, .ok l)
          ∧ (match u.load l with | (_, .ok x) => decide (leNat x < (s.lc.rd 2).toNat) | _ => false) = true :=
  ⟨by decide +kernel, State.reaches_barrier (by decide +kernel), State.reaches_barrier (by decide +kernel),
    State.reaches_barrier (by decide +kernel), State.reaches_barrier (by decide +kernel), State.reaches_barrier (by decide +kernel),
    State.reaches_barrier (by decide +kernel), State.reaches_barrier (by decide +kernel), State.reaches_barrier (by decide +kernel),
    answers_with (by decide +kernel)⟩

/-- TACT 1; another folio; half the folios of another logical core; the end of one of a launch that goes on, and of the last. -/
theorem meets_FolioEnds :
    let job : Job := { Job.nothing with dlvl := 1, launch := 1 }
    let other (job : Job) (ends : Nat) : HThread := { HThread.idle with occupied := true, lc := { core0 with job := job, folioEnd := ends } }
    let l : Launch := ⟨1, 0, 0, 0, 0, 1, 2, 0, [], none, 2, 2, 0, [], 0, false⟩
    let s : State := { one { core0 with job := job, folioEnd := 1 } with
      launches := [l], threads := [(0, other job 1), (4, other job 2)] }
    let d : State := { one core0 with threads := [(0, other { job with dlvl := 0 } 1), (4, other { job with dlvl := 0 } 5)] }
    let last : State := { one { core0 with job := job, folioEnd := 1 } with launches := [{ l with ended := 1 }] }
    (one { core0 with tact := true }).lc.tact = true ∧ 0 + 1 < (one { core0 with folioEnd := 2 }).lc.folioEnd
      ∧ (d.lc.tact = false ∧ d.lc.folioEnd ≤ d.lc.folio + 1 ∧ d.lc.job.dlvl = 0 ∧ d.dealer = some (.thread 4, 4))
      ∧ (s.lc.tact = false ∧ s.lc.folioEnd ≤ s.lc.folio + 1 ∧ s.lc.job.dlvl ≠ 0 ∧ s.notDrained = false ∧ s.enginesBusy true true = false
        ∧ s.lc.barriers = [] ∧ s.launch? s.lc.job.launch = some l ∧ l.ended + 1 < l.size
        ∧ (4 ≠ s.cur ∧ (s.thr 4).occupied = true ∧ (s.thr 4).lc.job.launch = 1 ∧ (s.thr 4).lc.waitFor = .none))
      ∧ (last.notDrained = false ∧ last.enginesBusy true true = false ∧ last.launch? 1 = some { l with ended := 1 } ∧ l.size ≤ 1 + 1 ∧ l.sig = none) := by
  decide +kernel

/-- A plan that runs to its end. -/
def runs (p : Plan) : Bool := match p with
  | .run _ none _ _ => true
  | _ => false

theorem runs_iff {r : State × Plan} (h : runs r.2 = true) : ∃ v vl places data, r = (v, .run vl none places data) := by
  obtain ⟨v, p⟩ := r
  unfold runs at h
  split at h
  · rename_i vl pl d hp
    exact ⟨v, vl, pl, d, by rw [← hp]⟩
  · cases h

/-- A memory instruction is well formed, issues alone, and its plan runs to the end. -/
noncomputable def State.plans (s : State) (i : Instr) : Bool :=
  i.wf && s.issuesAlone i && match s.memberOf i, memOp s.lc none i with
  | some x, some o => runs ((s.seen x.gs).vmemPlan o (s.seen x.gs).lc).2
  | _, _ => false

theorem State.all_plan {s : State} {l : List Instr} (h : l.all s.plans = true) : ∀ i ∈ l, i.wf = true ∧ ∃ x o v vl places data,
    s.Issues i x ∧ memOp s.lc none i = some o
      ∧ (s.seen x.gs).vmemPlan o (s.seen x.gs).lc = (v, .run vl none places data) := fun i hi => by
  have := List.all_eq_true.mp h i hi
  simp only [State.plans, Bool.and_eq_true] at this
  obtain ⟨⟨hw, ha⟩, hp⟩ := this
  obtain ⟨x, hx⟩ := State.issues_of ha
  rw [hx.member] at hp
  cases ho : memOp s.lc none i with
  | none => simp [ho] at hp
  | some o =>
    simp only [ho] at hp
    obtain ⟨v, vl, pl, d, h⟩ := runs_iff hp
    exact ⟨hw, x, o, v, vl, pl, d, hx, rfl, h⟩

/-- At U and at S, with a mapped and an unmapped page. -/
theorem meets_TranslationEffects :
    let s := paged core0
    Memory.wf s.mem = true ∧ (∃ u p, s.xlate 16 s.who .plain .read 0x80100 = (u, .ok p))
      ∧ (match (s.xlate 16 s.who .plain .write 0x90000).2 with | .error (.trap .pageNp 0x90000) => true | _ => false) = true :=
  ⟨by decide +kernel, answers (by decide +kernel), by decide +kernel⟩

theorem meets_ScalarAccessTraps :
    let s := one (core0.gs [(1, 0x0008000000000000), (2, 1)])
    s.pendingPort [31, 1] = none ∧ s.pendingPort [31, 1, 2] = none ∧ s.owes = false
      ∧ 2 ^ 51 ≤ (s.lc.rd 1 + BitVec.ofInt 64 (0 : BitVec 15).toInt).toNat
      ∧ (s.lc.rd 2 + BitVec.ofInt 64 (0 : BitVec 15).toInt).toNat % 2 ≠ 0 ∧ (loadRules ⟨0, 1, 31⟩).length = 7
      ∧ (storeRules ⟨0, 1, 31⟩).length = 4 := by decide +kernel

theorem meets_ScalarLoadResults :
    let s := paged (core0.gs [(1, 0x80100)])
    s.pendingPort [31, 1] = none ∧ ∀ n ∈ [1, 2, 4, 8],
      ∃ u l, (s.seen [31, 1]).scalarAccess .plain .read (s.lc.rd 1 + BitVec.ofInt 64 (0x7FF8 : BitVec 15).toInt) n = (u, .ok l)
        ∧ (u.loadPlain l).2.isSome = true := by
  refine ⟨by decide +kernel, fun n hn => answers_with (p := fun (u : State) (l : List ByteAt) => (u.loadPlain l).2.isSome) ?_⟩
  fin_cases hn <;> decide +kernel

/-- The data cache holds the bytes that are stored. -/
theorem meets_ScalarStoreResults :
    let s : State := { paged (core0.gs [(1, 0x80100)]) with dcache := [(cacheKey 0 0x40100, 7)] }
    s.pendingPort [31, 1] = none ∧ (∃ u l, (s.seen [31, 1]).scalarAccess .plain .write (s.lc.rd 1 + BitVec.ofInt 64 (0 : BitVec 15).toInt) 8
      = (u, .ok l) ∧ (decide (l.map (·.key)).Nodup && (Cells.get? u.dcache (cacheKey u.core 0x40100)).isSome) = true) :=
  ⟨by decide +kernel, answers_with (by decide +kernel)⟩

theorem meets_ScalarAtomicResults :
    let s := paged (core0.gs [(1, 0x80100)])
    (s.pendingPort [31, 1, 2] = none ∧ s.owes = false ∧ (owing s).owes = true ∧ (owing s).pendingPort [31, 1, 2] = none
        ∧ (⟨2, 0, 2, 1, 31⟩ : AF).succ.getLsbD 1 = true) ∧ (atomicRules ⟨0, 0, 2, 1, 31⟩).length = 6 ∧ ∀ acc ∈ [Acc.rmw, .read, .write],
      ∃ u l, (s.seen [31, 1, 2]).scalarAccess .scalarAtomic acc (s.lc.rd 1) 8 = (u, .ok l)
        ∧ (match (u.read (l.map (·.key))).2 with | some b => b.length == 8 | none => false) = true := by
  refine ⟨by decide +kernel, rfl, fun acc hn =>
    answers_with (p := fun (u : State) (l : List ByteAt) => match (u.read (l.map (·.key))).2 with | some b => b.length == 8 | none => false) ?_⟩
  fin_cases hn <;> decide +kernel

/-- A command whose accesses of the selected class are still to come; pushed elements on their way; all that is selected, with
caches to empty. -/
theorem meets_FenceResults :
    let s := portHolds (one core0) [cmd0]
    (((0x0F8 : BitVec 15).getLsbD 7 = true) ∧ s.enginesBusy ((0x0F8 : BitVec 15).getLsbD 3) ((0x0F8 : BitVec 15).getLsbD 4) = true)
      ∧ (one core0).enginesBusy true true = false ∧ (one core0).owes = false ∧ (owing (one core0)).owes = true
      ∧ (0x031 : BitVec 15).getLsbD 4 = true ∧ (0x031 : BitVec 15).getLsbD 7 = false ∧ (0x031 : BitVec 15).getLsbD 5 = true
      ∧ ((0x1F9 : BitVec 15).getLsbD 5 = true ∧ 1 ≤ (0x1F9 : BitVec 15).toNat % 8 ∧ (0x1F9 : BitVec 15).getLsbD 8 = true) := by
  decide +kernel

/-- g1 names the data; v4 holds indices; v5 holds a record of 4 points of which the last is out of range. -/
def vecAt (c : LCore) : State := paged (((c.gs [(1, 0x80100), (2, 4)]).els 4 32 [0, 8, 4, 12]).els 5 64 [0, 1, 4, 0, 0, 0, 0, 4, 0, 0, 0, 0, 1])

/-- As `vecAt`, with the first 32 KiB of the own vault mapped at 0x88000, where g1 points. -/
def vaultAt (c : LCore) : State :=
  let s := holding (vecAt c) [(0x30088, 8, 0x81000000FF)]
  s.setLc (s.lc.wr 1 0x88100)

/-- An addition and a store of its result: the plan of the store runs, stops at its first element where the base is not
mapped, behind a group where a stop is asked, and leaves more than a group without one. -/
theorem meets_VectorCheckTraps_memory :
    let l : List Instr := [.vadd ⟨false, true, false, false, 3, 2, 6⟩, .vst ⟨0, false, false, false, false, 0, 1, 6⟩]
    let s := vecAt (vec 0x4 100)
    let bad := s.setLc (s.lc.wr 1 0x200000)
    let late := s.setLc (s.lc.wr 1 (0x88000 - 4 * 70))
    let plan (s : State) : State × Plan := s.planOf (.vst ⟨0, false, false, false, false, 0, 1, 6⟩)
      ((l.take 1).foldl (fun v i => runMember exec i ⟨0, 100, 100, false, [], [], none⟩ v) s).lc
    (l.map s.memberOf = (s.members l).map some ∧ s.lc.awaits ((s.members l).flatMap (·.groups)) = false
        ∧ s.pendingPort ((s.members l).flatMap (·.gs)) = none ∧ s.lc.oldVals = [] ∧ s.lc.vstart = 0
        ∧ ((s.members l)[1]?).any (fun x => x.pipes.contains .memory) = true)
      ∧ ((s.members l).zipIdx.all fun y => (List.range 8).all fun m => !fails s.lc none (s.members l) m y.2 y.1) = true
      ∧ runs (plan s).2 = true ∧ Vtype.groupOf (Vtype.c s.lc.vtype) < 100
      ∧ (match (plan bad).2 with
          | .run _ (some (0, .trap .pageNp 0x200000)) _ _ => true
          | _ => false) = true
      ∧ (match (plan late).2 with
          | .run _ (some (f, _)) _ _ => decide (Vtype.groupOf (Vtype.c s.lc.vtype) < f)
          | _ => false) = true := by decide +kernel

theorem meets_VectorLoadResults :
    ((vecAt (vec 0x4 4)).spans = [] ∧ (vaultAt (vec 0x4 4)).spans = []) ∧ (∀ i ∈ [Instr.vld ⟨0, true, false, false, false, 0, 1, 3⟩, .vlds ⟨0, false, false, false, false, 2, 1, 3⟩,
        .vldx ⟨0, false, false, false, false, 4, 1, 3⟩, .vldt ⟨0, false, false, false, false, 5, 1, 3⟩,
        .vldff ⟨0, false, false, false, false, 0, 1, 3⟩],
      i.wf = true ∧ ∃ x o v vl places data, (vecAt (vec 0x4 4)).Issues i x ∧ memOp (vecAt (vec 0x4 4)).lc none i = some o
        ∧ ((vecAt (vec 0x4 4)).seen x.gs).vmemPlan o ((vecAt (vec 0x4 4)).seen x.gs).lc = (v, .run vl none places data))
    ∧ ∀ i ∈ [Instr.vldv ⟨0, false, false, false, false, 0, 1, 3⟩],
      i.wf = true ∧ ∃ x o v vl places data, (vaultAt (vec 0x4 4)).Issues i x ∧ memOp (vaultAt (vec 0x4 4)).lc none i = some o
        ∧ ((vaultAt (vec 0x4 4)).seen x.gs).vmemPlan o ((vaultAt (vec 0x4 4)).seen x.gs).lc = (v, .run vl none places data) :=
  ⟨by decide +kernel, State.all_plan (by decide +kernel), State.all_plan (by decide +kernel)⟩

/-- VSTXR behind what VSTP has pushed; every store whose plan runs, also in the block format. -/
theorem meets_VectorStoreResults :
    ((∃ x, (owing (vecAt (vec 0x4 4))).Issues (.vstxr ⟨6, false, false, false, false, 4, 1, 3⟩) x)
      ∧ (owing (vecAt (vec 0x4 4))).owes = true ∧ (vecAt (vec 0x4 4)).owes = false ∧ (vecAt (vec 0x4 4)).lc.vstart.toNat < (vecAt (vec 0x4 4)).lc.vl
      ∧ (vecAt (vec 0x4 4)).spans = [])
    ∧ (∀ i ∈ [Instr.vst ⟨13, false, false, false, false, 0, 1, 3⟩],
      i.wf = true ∧ ∃ x o v vl places data, (vecAt (vec 0xC 4)).Issues i x ∧ memOp (vecAt (vec 0xC 4)).lc none i = some o
        ∧ ((vecAt (vec 0xC 4)).seen x.gs).vmemPlan o ((vecAt (vec 0xC 4)).seen x.gs).lc = (v, .run vl none places data))
    ∧ (∀ i ∈ [Instr.vst ⟨1, true, false, false, false, 0, 1, 3⟩, .vsts ⟨0, false, false, false, false, 2, 1, 3⟩,
        .vstx ⟨0, false, false, false, false, 4, 1, 3⟩, .vstt ⟨0, false, false, false, false, 5, 1, 3⟩,
        .vstxr ⟨6, false, false, false, false, 4, 1, 3⟩],
      i.wf = true ∧ ∃ x o v vl places data, (vecAt (vec 0x4 4)).Issues i x ∧ memOp (vecAt (vec 0x4 4)).lc none i = some o
        ∧ ((vecAt (vec 0x4 4)).seen x.gs).vmemPlan o ((vecAt (vec 0x4 4)).seen x.gs).lc = (v, .run vl none places data))
    ∧ ∀ i ∈ [Instr.vstv ⟨0, false, false, false, false, 0, 1, 3⟩],
      i.wf = true ∧ ∃ x o v vl places data, (vaultAt (vec 0x4 4)).Issues i x ∧ memOp (vaultAt (vec 0x4 4)).lc none i = some o
        ∧ ((vaultAt (vec 0x4 4)).seen x.gs).vmemPlan o ((vaultAt (vec 0x4 4)).seen x.gs).lc = (v, .run vl none places data) :=
  ⟨⟨State.issues_of (by decide +kernel), by decide +kernel⟩, State.all_plan (by decide +kernel), State.all_plan (by decide +kernel),
    State.all_plan (by decide +kernel)⟩

/-- Integer and FP32 atomics, and the gather that marks homes out of scope. -/
theorem meets_VectorAtomicResults :
    (∀ i ∈ (vectorAtomics ⟨0, false, false, false, false, 4, 1, 3⟩).map (·.1) ++ [.vldxa ⟨2, false, false, false, false, 4, 1, 3⟩],
      i.wf = true ∧ ∃ x o v vl places data, (vecAt (vec 0x4 4)).Issues i x ∧ memOp (vecAt (vec 0x4 4)).lc none i = some o
        ∧ ((vecAt (vec 0x4 4)).seen x.gs).vmemPlan o ((vecAt (vec 0x4 4)).seen x.gs).lc = (v, .run vl none places data))
    ∧ (∀ i ∈ (vectorAtomics ⟨0, false, false, false, false, 4, 1, 3⟩).map (·.1),
      i.wf = true ∧ ∃ x o v vl places data, (vecAt (vec 0xC 4)).Issues i x ∧ memOp (vecAt (vec 0xC 4)).lc none i = some o
        ∧ ((vecAt (vec 0xC 4)).seen x.gs).vmemPlan o ((vecAt (vec 0xC 4)).seen x.gs).lc = (v, .run vl none places data)) :=
  ⟨State.all_plan (by decide +kernel), State.all_plan (by decide +kernel)⟩

/-- A queue object of 8 entries at 0x80200, its entries at 0x80280. -/
def queued : State := holding (paged ((vec 0x4 4).gs [(1, 0x80200)])) [(0x40210, 8, 0x80280), (0x40218, 4, 8)]

theorem meets_CappResults :
    let f : VF := ⟨false, false, false, false, 0, 1, 0⟩
    ((∃ x, (owing queued).Issues (.capp f) x) ∧ (owing queued).owes = true ∧ (List.range queued.lc.vl).filter (queued.lc.active false) ≠ [])
      ∧ (Instr.capp f).wf = true ∧ ∃ x, queued.Issues (.capp f) x
      ∧ ∃ v vl places data, (queued.seen x.gs).cappPlan (queued.lc.rd f.s1) f.m (queued.seen x.gs).lc = (v, .run vl none places data) := by
  refine ⟨⟨State.issues_of (by decide +kernel), by decide +kernel⟩, by decide +kernel, ?_⟩
  obtain ⟨x, hx⟩ := State.issues_of (s := queued) (i := .capp ⟨false, false, false, false, 0, 1, 0⟩) (by decide +kernel)
  refine ⟨x, hx, runs_iff ?_⟩
  have : some x = queued.memberOf (.capp ⟨false, false, false, false, 0, 1, 0⟩) := hx.member.symm
  have hg : x.gs = ((queued.memberOf (.capp ⟨false, false, false, false, 0, 1, 0⟩)).map (·.gs)).getD [] := by rw [← this]; rfl
  rw [hg]
  decide +kernel


/-- A queue of context 0 with number 63 and these packets. -/
def queue63 (fifo : List (BitVec 512)) : Queue :=
  { en := true, cflt := false, nbad := 0, qnum := 63, qdlvl := 0, ctx := 0, prio := 0, fifo := fifo, held := [] }

/-- Slot 4095 holds this queue on mapped pages; g1 points to 64 bytes, g2 names queue 63. -/
def posting (fifo : List (BitVec 512)) : State :=
  { paged (core0.gs [(1, 0x80100), (2, 63), (3, 64)]) with queues := [(4095, queue63 fifo)] }

/-- A state for QPOST whose packet of 64 bytes is read, with the slot that its queue has. -/
def State.postsTo (s : State) (p : BitVec 512 → State → Bool) : Bool :=
  match (s.seen [4, 1, 2]).scalarAccess .plain .read (s.lc.rd 1) 64 with
  | (u, .ok l) => match u.load l with
    | (v, .ok b) => p (BitVec.ofNat 512 (leNat b)) v
    | _ => false
  | _ => false

/-- QPOST: behind what VSTP has pushed; no such queue, a bad packet, a full FIFO, a DRAIN packet posted; the port; QDESC. -/
theorem meets_QueueWrites :
    let s := posting []
    let drain := holding s [(0x40100, 1, 5)]
    let q := s.queue 4095
    (s.pendingPort [4, 1, 2] = none ∧ s.owes = false ∧ (owing s).owes = true ∧ (owing s).pendingPort [4, 1, 2] = none ∧ 63 < (s.lc.rd 3).toNat ∧ s.host.bootState = 3)
      ∧ s.postsTo (fun p v => (v.queueOf 0 63).isSome && Packet.bad (v.kernelKnown 0) p && (v.queueOf 0 62).isNone) = true
      ∧ drain.postsTo (fun p v => (v.queueOf 0 63).isSome && !Packet.bad (v.kernelKnown 0) p) = true
      ∧ (holding (posting (List.replicate 256 5)) [(0x40100, 1, 5)]).postsTo (fun p v => !Packet.bad (v.kernelKnown 0) p
        && match v.queueOf 0 63 with | some (_, x) => decide (256 ≤ x.fifo.length) | none => false) = true
      ∧ ((262080 / 64 < 4096 ∧ 262080 % 64 = 0 ∧ q.en = true) ∧ Packet.bad (s.kernelKnown q.ctx) 0 = true
        ∧ Packet.bad (s.kernelKnown q.ctx) 5 = false ∧ q.fifo.length < 256 ∧ 256 ≤ ((posting (List.replicate 256 5)).queue 4095).fifo.length)
      ∧ ((s.queue 0).en = false ∧ (s.queues.filter fun x => x.1 != 0 && x.2.en && x.2.ctx == 0).length < 64
        ∧ (∀ x ∈ s.queues.filter (fun x => x.1 != 0 && x.2.en && x.2.ctx == 0), x.2.qnum ≠ 62) ∧ s.launches = []) := by decide +kernel

/-- A kernel of context 0 with one C level of 3 points in folios of 2. -/
def kernel9 : Kernel := ⟨9, 0, 0x80000, 2, 32, 0, 0, 0, 0, [⟨2, some 3⟩], 0, 0⟩

/-- A LAUNCH of that kernel without counters; with one counter at 0x80100 to reach 5; WAITC, SIGNAL, SETDET, DRAIN, MARK. -/
def launchPacket : BitVec 512 := 0x0000000100090001
def launchLater : BitVec 512 := launchPacket ||| 0x0100 ||| (0x80100#512 <<< 256) ||| (5#512 <<< 448)
def waitPacket (n : BitVec 512) : BitVec 512 := 0x0102 ||| (0x80100#512 <<< 256) ||| (n <<< 448)
def signalPacket : BitVec 512 := 0x0403 ||| (0x80100#512 <<< 384)
def markPacket : BitVec 512 := 0x0006 ||| (0x80100#512 <<< 384)

/-- A device with that kernel loaded and a packet at the head of slot 4095. -/
def heading (p : BitVec 512) : State := { posting [p] with kernels := [kernel9] }

/-- Whether the counters of the head are reached. -/
def reached (p : BitVec 512) : Bool := (State.countersReach 4095 0 (Packet.counters p) (heading p)).2

theorem meets_PacketStarts :
    ([launchPacket, launchLater, waitPacket 0, waitPacket 1, signalPacket, 0x100000004, 5, markPacket].all fun p =>
        (heading p).headPacket 4095 == some p && !Packet.bad ((heading p).kernelKnown 0) p) = true
      ∧ (Packet.ptype launchPacket = 1 ∧ reached launchPacket = true ∧ reached launchLater = false ∧ Packet.nw launchLater ≠ 0
        ∧ (heading launchPacket).kernel? (Packet.kidx launchPacket) 0 = some kernel9
        ∧ 0 < (Packet.toLaunch launchPacket (queue63 [launchPacket]) 4095 1 kernel9).points)
      ∧ (Packet.ptype (waitPacket 0) = 2 ∧ reached (waitPacket 0) = true ∧ reached (waitPacket 1) = false ∧ Packet.nw (waitPacket 0) ≠ 0)
      ∧ Packet.ptype signalPacket = 3 ∧ Packet.ptype 0x100000004 = 4 ∧ Packet.ptype 5 = 5 ∧ Packet.ptype markPacket = 6
      ∧ (heading 5).launches = [] := by decide +kernel

/-- The counter of a SIGNAL and the place of a MARK are reached, and, while their sub-block moves, held. -/
theorem meets_PacketStarts_counter :
    let held (s : State) : State := { s with swaps := [⟨1, 0x30080, 0x30088, 0x40000, 0x48000, .global, .global, .moving :: List.replicate 7 .waiting⟩] }
    let keys (s : State) (addr : Word) (n : Nat) : State × Except Stop (List Nat) := (State.startPacket s 4095).counterKeys 0 .rmw addr n
    (∃ u ks, keys (heading signalPacket) (Packet.saddr signalPacket) 8 = (u, .ok ks)
        ∧ (match u.redirectAll true ks with
            | some js => (u.read js).2.isSome
            | none => false) = true)
      ∧ (∃ u ks, keys (held (heading signalPacket)) (Packet.saddr signalPacket) 8 = (u, .ok ks) ∧ (u.redirectAll true ks).isNone = true)
      ∧ (∃ u ks, keys (heading markPacket) (Packet.saddr markPacket) 16 = (u, .ok ks) ∧ (u.redirectAll true ks).isSome = true)
      ∧ ∃ u ks, keys (held (heading markPacket)) (Packet.saddr markPacket) 16 = (u, .ok ks) ∧ (u.redirectAll true ks).isNone = true := by
  refine ⟨answers_with ?_, answers_with (p := fun (u : State) l => (u.redirectAll true l).isNone) ?_,
    answers_with (p := fun (u : State) l => (u.redirectAll true l).isSome) ?_,
    answers_with (p := fun (u : State) l => (u.redirectAll true l).isNone) ?_⟩ <;> decide +kernel

/-- A launch of context 0 with a logical core not dispatched. -/
def launch1 : Launch := ⟨1, 4095, 0, 9, 0, 0, 1, 0, [], none, 2, 3, 0, [], 0, false⟩

/-- What the scheduler may do. -/
def scheduling : State :=
  { posting [] with threads := [], kernels := [kernel9], launches := [launch1] }

/-- A saved logical core of another launch of context 0, whose image lies in slot 0 of core 0. -/
def saving (c : LCore) (parked : Bool) : State :=
  { posting [] with threads := [], saved := [⟨.slot 0 0, { c with job := { c.job with launch := 7 } }, !parked, parked, 0, 0, none⟩] }

/-- Something of a kind is found, of which something holds. -/
theorem finds_with {α : Type} {o : Option α} {p : α → Bool} (h : o.any p = true) : ∃ x, o = some x ∧ p x = true := by
  cases o with
  | none => simp at h
  | some x => exact ⟨x, rfl, by simpa using h⟩

/-- A logical core of priority 5 and of one deck, ready, that no thread can take: the threads of core 0 hold logical cores
of this priority, and the vaults of the other cores of the deck belong to another kernel, while its own needs a vault. -/
def crowded (prio : Nat) : State :=
  { scheduling with
    dtime := 20000
    vaultOwner := ((List.range 192).filter fun k => k != 0 && deckOf k == 0).map fun k => (k, ⟨8, 0, [2]⟩)
    kernels := [{ kernel9 with vaultb := 64, loops := [⟨3, some 3⟩] }]
    threads := (List.range 4).map fun n => (n, { HThread.idle with
      occupied := true, lc := { core0 with job := { Job.nothing with prio := prio }, placed := n, placedAt := 1000 * n } })
    launches := [{ launch1 with prio := 5 }] }

set_option maxRecDepth 100000 in
/-- DISPATCH and RESTORE. -/
theorem meets_SchedulerSteps :
    (∃ x, scheduling.nextPlace = some x ∧ (x.1.image.isNone && scheduling.launch? x.1.launch == some launch1
        && scheduling.kernel? launch1.kidx launch1.ctx == some kernel9 && kernel9.vaultb == 0) = true)
      ∧ ∃ x, (saving core0 false).nextPlace = some x ∧ (x.1.image == some 0
        && let s := (saving core0 false).moveImage 0 (threadSlot x.2)
          match s.saved[0]? with
          | some y => y.owed.isNone && y.lc.displaced.isEmpty && (match s.readImage y.at_ y.lc with
              | (u, some _) => u.kernels.isEmpty
              | _ => false)
          | none => false) = true :=
  ⟨finds_with (by decide +kernel), finds_with (by decide +kernel)⟩

/-- PREEMPT. -/
theorem meets_SchedulerSteps_preempt :
    ∃ r, ((crowded 4).readyList (crowded 4).inFlight).head? = some r ∧ ((crowded 4).threadFor r == none && (crowded 4).victim r == some 3) = true :=
  finds_with (by decide +kernel)

/-- QUANTUM_EXPIRY, where only thread 0 was placed 20 us ago. -/
theorem meets_SchedulerSteps_quantum :
    ∃ r, ((crowded 5).readyList (crowded 5).inFlight).head? = some r ∧ ((crowded 5).threadFor r == none && (crowded 5).victim r == none
      && ((crowded 5).takeable r).filter (fun m => (crowded 5).prioOf m == r.prio && decide (((crowded 5).thr m).lc.placedAt + 20000 ≤ 20000)) == [0]) = true :=
  finds_with (by decide +kernel)

/-- PREEMPT_SAVE of a stopped thread, and of one that poison kills as its streams stop; UNPARK of one whose wait is over. -/
theorem meets_SchedulerSteps_save :
    let s : State := { posting [] with threads := [(767, { HThread.idle with occupied := true, stopped := true })] }
    let u := saving { core0 with waitFor := .bwait 0x40100 1 } true
    let sick : State := { (owing (paged core0)).setThr 0 { (paged core0).thr 0 with stopped := true } with
      ports := [(3, ⟨some 0, [{ cmd0 with
        shape := ⟨0x80100, 0x800001, [4, 0, 0, 0, 0], [4, 0, 0, 0, 0], [0, 0, 0, 0, 0]⟩, started := true, reg := 2, buf := List.replicate 2 ⟨some 7, 0⟩ }]⟩)]
      poison := [wordOf 0x30080] }
    ((sick.thr 0).occupied = true ∧ (sick.thr 0).stopped = true ∧ sick.clearSlot 0 = some sick ∧ sick.contexts.contains (sick.thr 0).lc.job.ctx = true
        ∧ sick.poolReaches (threadSlot 0) true = true ∧ ((sick.quiesce 0).thr 0).occupied = false ∧ ((s.quiesce 767).thr 767).occupied = true)
      ∧ ((s.thr 767).stopped = true ∧ s.contexts.contains (s.thr 767).lc.job.ctx = true ∧ s.clearSlot 767 = some s
        ∧ s.poolReaches (threadSlot 767) true = true)
      ∧ (u.saved.length = 1 ∧ u.saved.all (fun x => x.parked && !u.isWaiting x.lc) = true) := by decide +kernel

/-- The slots of these threads hold an image. -/
def savedIn (l : List Nat) : State := { State.reset with saved := l.map fun n => ⟨threadSlot n, core0, false, false, 0, 0, none⟩ }

theorem savedIn_imageFree {l : List Nat} {n : Nat} (h : n ∈ l) : (savedIn l).imageFree (threadSlot n) = false := by
  have : (⟨threadSlot n, core0, false, false, 0, 0, none⟩ : SavedLc) ∈ (savedIn l).saved := List.mem_map.mpr ⟨n, h, rfl⟩
  unfold State.imageFree
  exact List.all_eq_false.mpr ⟨_, this, by simp⟩

/-- A slot that holds an image, while every slot does and there is no pool. -/
theorem meets_SchedulerSteps_full : (savedIn threadNumbers).clearSlot 767 = none := by
  have spare : (savedIn threadNumbers).sparePlace = none := by
    unfold State.sparePlace
    have : (savedIn threadNumbers).wholeBlocks = [] := by decide +kernel
    rw [this, List.nil_append]
    refine List.find?_eq_none.mpr fun i hi => ?_
    obtain ⟨n, hn, rfl⟩ := List.mem_map.mp hi
    exact Bool.not_eq_true _ ▸ savedIn_imageFree hn
  have taken : ((savedIn threadNumbers).saved.findIdx? (·.at_ == threadSlot 767)).isSome = true := by decide +kernel
  unfold State.clearSlot
  obtain ⟨k, hk⟩ := Option.isSome_iff_exists.mp taken
  rw [hk, spare]
  rfl

/-- At S, with a second page at 0x88000 whose entry is this. -/
def swapping (pte : Nat) : State := holding (paged ({ core0 with level := .s }.gs [(1, 0x80000), (2, 0x88000), (3, 0x90000)])) [(0x30088, 8, pte)]

/-- The conditions on SWAPPG of the pages that two registers name: poison; a walk that faults; one entry or frame; an operand
or a leaf that may not be swapped; SWLK or four swaps in flight. -/
def State.swapCase (s : State) (x y : Reg) : List Bool :=
  let a := s.lc.rd x
  let b := s.lc.rd y
  let page (v : Word) : Word := v &&& 0x7FFFFFFFF8000
  let p := s.walk (a.toNat % 4096) (page a)
  let q := p.1.walk (b.toNat % 4096) (page b)
  let poison (r : Except Stop Leaf) : Bool := match r with
    | .error .poison => true
    | _ => false
  let frame (v : Word) (l : Leaf) : Option Nat := match leafPlace q.1.who q.1.dev l.pte (l.pa (page v)) (page v) with
    | .ok z => some z.base
    | .error _ => none
  let reserved (v : Word) : Bool := v.toNat / 2 ^ 51 != 0 || v.toNat / 2 ^ 12 % 8 != 0
  let fixed (l : Leaf) : Bool := l.shift != 15 || Pte.striped l.pte
    || !((Pte.kind l.pte == .global && inGlobal (Pte.frame l.pte)) || (Pte.kind l.pte == .vault && inVault (Pte.frame l.pte)))
  match p.2, q.2 with
  | .ok l, .ok m => [false, false, l.key == m.key || ((frame a l).isSome && frame a l == frame b m)
      || ((frame a l).isNone && (frame b m).isNone && Pte.kind l.pte == Pte.kind m.pte && Pte.devid l.pte == Pte.devid m.pte
        && l.pa (page a) == m.pa (page b)), reserved a || reserved b || fixed l || fixed m,
      Pte.swlk l.pte || Pte.swlk m.pte || decide (4 ≤ s.swaps.length)]
  | e, f => [poison e || poison f, true]

/-- At U; TLBINV at S and its retirement; SWAPPG whose walk meets poison, of a page not mapped, of one entry, of one frame that
is no place, of leaves that may not be swapped, of one that holds SWLK, of two good ones. -/
theorem meets_TlbAndSwapRequests :
    let s := swapping 0x4807F
    let w : State := s.setLc { s.lc with waitFor := .tlbinv 0x80000 0 }
    (one core0).lc.level = .u ∧ s.lc.level = .s ∧ s.pendingPort [1, 2] = none ∧ s.pendingPort [4, 1, 2] = none ∧ s.seen [4, 1, 2] = s
      ∧ (w.invalidating = some (0, 0x80000, 0) ∧ w.spans = [])
      ∧ ({ s with poison := [wordOf 0x30080] } : State).swapCase 1 2 = [true, true] ∧ s.swapCase 1 3 = [false, true]
      ∧ s.swapCase 1 1 = [false, false, true, false, false]
      ∧ (holding (swapping 0x600000007F) [(0x30080, 8, 0x600000007F)]).swapCase 1 2 = [false, false, true, true, false]
      ∧ (swapping 0x600000007F).swapCase 1 2 = [false, false, false, true, false]
      ∧ (swapping 0x81000000FF).swapCase 1 2 = [false, false, false, true, false]
      ∧ (swapping 0x4847F).swapCase 1 2 = [false, false, false, false, true] ∧ s.swapCase 1 2 = [false, false, false, false, false]
      ∧ Memory.wf s.mem = true ∧ Memory.wf (swapping 0x81000000FF).mem = true ∧ Memory.wf (swapping 0x4847F).mem = true := by decide +kernel

/-- A swap in flight with these sub-blocks. -/
def swapOf (l : List SubBlock) : Swap := ⟨1, 0x30080, 0x30088, 0x40000, 0x48000, .global, .vault, l⟩

theorem meets_SwapEngineSteps :
    let at_ (l : List SubBlock) : State := { swapping 0x4847F with swaps := [swapOf l] }
    let first := List.replicate 8 SubBlock.waiting
    let last := List.replicate 7 SubBlock.landed ++ [.moving]
    let done := List.replicate 8 SubBlock.landed
    ((at_ first).swaps.find? (·.id == 1) = some (swapOf first) ∧ first.findIdx? (· != .landed) = some 0 ∧ first[0]? ≠ some .moving)
      ∧ ((at_ last).swaps.find? (·.id == 1) = some (swapOf last) ∧ last.findIdx? (· != .landed) = some 7 ∧ last[7]? = some .moving
        ∧ (at_ last).heldRemote = [] ∧ Memory.wf (at_ last).mem = true ∧ (swapOf last).frameA + 0x8000 ≤ (swapOf last).frameB)
      ∧ ((at_ done).swaps.find? (·.id == 1) = some (swapOf done) ∧ (∀ b ∈ done, b = .landed) ∧ (at_ done).packetIn 0x40000 = false
        ∧ (at_ done).packetIn 0x48000 = false ∧ Memory.wf (at_ done).mem = true ∧ (swapOf done).entryA + 8 ≤ (swapOf done).entryB) := by decide +kernel

/-- A gather request, a scatter packet and a response of thread 0 with one element of core 1; a request behind another; a
poisoned element; accesses that a swap holds; an old value on its way. -/
theorem meets_ArrivingAccesses :
    let r : RemoteAtomic := ⟨.fadd, 4, 0x5FFFFFFFFC, 1, 0⟩
    let a (n : Nat) : RemoteAccess := ⟨true, n, 8, 7⟩
    let x : SpanPacket := ⟨1, 0, 1, false, false, 4, [(0, 0x100)], []⟩
    let y : SpanPacket := ⟨2, 0, 1, true, false, 4, [(3, 0x100)], [[1, 2, 3, 4]]⟩
    let z : SpanPacket := ⟨3, 0, 1, false, true, 4, [(3, 0x100)], [[1, 2, 3, 4]]⟩
    let s : State := { one { core0 with oldVals := [⟨3, 0, 32, 7⟩] } with packets := [x, y, z], spans := [⟨0, 0, [], [], 3⟩] }
    let alone : State := { s with packets := [y, z] }
    let moving : State := { s with swaps := [⟨1, 0, 8, 0x5FFFFF8000, 0, .global, .global, List.replicate 8 .moving⟩] }
    let sick : State := { s with poison := [wordOf (vaultKey 1 0x100)] }
    let held (s : State) (k : Option (List Nat)) : Bool := k.any fun l => (s.redirectAll true l).isNone
    let gathers (s : State) : Option (Bool × Bool) := (s.packetKeys x).map fun ks =>
      ((readAll (s.spanGroup x) (x.keyed ks) s).2.isSome, ks.any fun k => k.any (readAll (s.spanGroup x) (x.keyed ks) s).1.poisoned)
    (remoteCell r).any (fun l => (s.redirectAll true l).any fun ks => (s.read ks).2.isSome) = true
      ∧ held moving (remoteCell r) = true ∧ held moving (remoteKeys (a 0x5FFFFFFFF8).addr 8) = true
      ∧ ((remoteCell r).any fun l => !(({ s with poison := [wordOf 0x5FFFFFFFFC] } : State).read l).2.isSome) = true
      ∧ remoteKeys (a 0x6000000000).addr 8 = none ∧ (remoteKeys (a 0x5FFFFFFFF8).addr 8).any (fun l => (s.redirectAll true l).isSome) = true
      ∧ (s.packets.find? (fun p => p.id == 1 && !p.response && !s.behind p) = some x ∧ gathers s = some (true, false) ∧ gathers sick = some (false, true))
      ∧ (alone.packets.find? (fun p => p.id == 2 && !p.response && !alone.behind p) = some y ∧ (alone.packetKeys y).isSome = true)
      ∧ (x ∈ s.packets ∧ y ∈ s.packets ∧ (∀ q ∈ s.packets, q.id = y.id → q = y) ∧ x.owner = y.owner ∧ x.id < y.id)
      ∧ s.packets.find? (fun p => p.id == 3 && p.response) = some z ∧ (s.thr 0).lc.oldVals = [⟨3, 0, 32, 7⟩] := by decide +kernel

/-- SAVECTX at U; of no context, with no pool, of a context without logical cores, of the own one with TACT 0 and 1;
CTXCTL of a context that is refused and of one that is not. -/
theorem meets_ContextOperations :
    let at_ (c : LCore) : State := let s := paged ({ c with level := .s }.gs [(1, 4095), (2, 0)])
      { s with contexts := [0, 4095] }
    let s := at_ core0
    let images (s : State) (ctx : Nat) : Nat := (s.threadsIn ctx).length + (s.saved.filter (·.lc.job.ctx == ctx)).length
    let free (s : State) : Nat := (s.wholeBlocks.filter s.imageFree).length
    ((one core0).lc.level = .u ∧ s.lc.level = .s ∧ s.pendingPort [31, 1] = none ∧ s.pendingPort [31, 2] = none)
      ∧ ¬ (4096 ∈ s.contexts) ∧ (0 ∈ s.contexts ∧ free s < images s 0)
      ∧ (4095 ∈ s.contexts ∧ images s 4095 ≤ free s ∧ s.threadsIn 4095 = [] ∧ s.lc.job.ctx ≠ 4095)
      ∧ (images s 0 = 1 ∧ s.threadsIn 0 = [s.cur] ∧ (s.thr s.cur).stopAsked = none ∧ s.saved = [] ∧ (at_ { core0 with tact := true }).lc.tact = true)
      ∧ (s.host.bootState = 3 ∧ s.host.ctxtb.getLsbD 0 = true ∧ (s.stamp.read (keysFrom (s.descKey 1) 16)).2.isSome = true
        ∧ s.croot 1 = 0 ∧ ({ s with host := { s.host with ctxtb := 0 } } : State).host.ctxtb.getLsbD 0 = false)
      ∧ (let t (c : LCore) : State := at_ { c with tact := true, atRtvec := true }
        ((t core0).thr 0).lc.serving = true ∧ (t core0).midway 0 = false ∧ ({ t core0 with spans := [⟨0, 0, [], [], 1⟩] } : State).midway 0 = true
          ∧ (s.thr 0).lc.serving = false) := by decide +kernel

/-- A pool of one whole block, with which CTXCTL may make context 0 resident. -/
theorem meets_ContextOperations_pool :
    let s := paged { core0 with level := .s }
    let t : State := { s with host := { s.host with svpb := 0x1000000, svpn := 1537 } }
    1 ≤ (t.wholeBlocks.filter t.imageFree).length ∧ t.threadsIn 0 = [t.cur] ∧ t.croot 0 = 0x20001 ∧ 1536 ≤ t.poolBlocks
      ∧ (match t.stamp.read (keysFrom (t.descKey 0) 16) with
          | (_, some b) => leNat (b.take 8) == 0x20001 && leNat (b.drop 8) == 0
          | _ => false) = true := by decide +kernel


/-- A record of rank 1 over this many FP32 or 32-bit points, at this stride, from 0x80100; e1 holds the flags. -/
def shape1 (e1 : Word) (points stride : Word) : Shape := ⟨0x80100, e1, [points, 0, 0, 0, 0], [stride, 0, 0, 0, 0], [0, 0, 0, 0, 0]⟩

/-- A read command of thread 0 over 4 points; a write command (DIR 1). -/
def readCmd : Cmd := { cmd0 with shape := shape1 1 4 4 }
def writeCmd : Cmd := { cmd0 with shape := shape1 0x800001 4 4, tokenPending := false }

/-- A thread with a record in v5: of rank 1 and 4 points; malformed (rank 0); of no point. -/
def streaming (rank points : Nat) : State := paged ((vec 0x4 4).els 5 64 [0x80100, rank, points, 0, 0, 0, 0, 4])

/-- STRM: malformed, of a format that VTYPE does not take, of no point, on a port of another thread, on a port without a
place, on a free port; VLDP and VSTP. -/
theorem meets_StreamInstructions :
    let f : VF := ⟨false, false, false, false, 6, 5, 15⟩
    let member (s : State) : Member := { Member.base (encode (.strm f)) false with ill := s.lc.notAny, vr := [(5, 1)], gr := [6] }
    let rec_ (s : State) : Shape := s.lc.shape 5
    let other : State := { streaming 1 4 with ports := [(15, ⟨some 1, [readCmd]⟩)] }
    let full (n : Nat) : State := { streaming 1 4 with ports := [(15, ⟨some 0, List.replicate n readCmd⟩)] }
    let wrong : State := paged ((vec 0x4 4).els 5 64 [0x80100, 0xE01, 4, 0, 0, 0, 0, 4])
    ((streaming 1 4).allPass (member (streaming 1 4)) = true ∧ (streaming 0 4).allPass (member (streaming 0 4)) = true)
      ∧ ((rec_ (streaming 0 4)).malformed 32 = true)
      ∧ ((rec_ wrong).malformed 32 = false ∧ (rec_ wrong).startsFit = true ∧ (rec_ wrong).accepted 0x4 = false
        ∧ wrong.lc.awaits (member wrong).groups = false)
      ∧ ((rec_ (streaming 1 4)).malformed 32 = false ∧ (rec_ (streaming 1 4)).startsFit = true ∧ (rec_ (streaming 1 4)).accepted 0x4 = true
        ∧ min 4 (rec_ (streaming 1 4)).points = 4 ∧ ((streaming 1 4).port 0 15).owner = none ∧ ((streaming 1 4).port 0 15).cmds = []
        ∧ (streaming 1 4).lc.displaced = [] ∧ liveCmds ([] : List Cmd) = [])
      ∧ ((rec_ (streaming 1 0)).malformed 32 = false ∧ (rec_ (streaming 1 0)).startsFit = true ∧ (rec_ (streaming 1 0)).accepted 0x4 = true
        ∧ (rec_ (streaming 1 0)).points = 0)
      ∧ (other.allPass (member other) = true ∧ rec_ other = rec_ (streaming 1 4) ∧ (other.port other.core 15).owner = some 1 ∧ 1 ≠ other.cur)
      ∧ ((full 5).allPass (member (full 5)) = true ∧ rec_ (full 5) = rec_ (streaming 1 4) ∧ ((full 5).port (full 5).core 15).owner = some (full 5).cur
        ∧ placesTaken ((full 5).port (full 5).core 15).cmds = 5 ∧ placesTaken ((full 4).port (full 4).core 15).cmds = 4
        ∧ liveCmds ((full 4).port (full 4).core 15).cmds = ((full 4).port (full 4).core 15).cmds)
      ∧ (let g : VF := ⟨false, false, false, false, 0, 3, 1⟩
        let s := portHolds (streaming 1 4) [{ readCmd with mem := 4, done := true, tokenPending := false, buf := List.replicate 4 ⟨some 7, 0⟩ }]
        (Instr.vldp g).wf = true ∧ s.issuesAlone (.vldp g) = true ∧ runs (s.portPlan (encode (.vldp g)) 3 false).2 = true) := by
  decide +kernel

/-- VSTP of a format that is converted, of E2M1B, and with nothing left to push. -/
theorem meets_StreamInstructions_vstp :
    let g : VF := ⟨false, false, false, false, 2, 3, 0⟩
    let into (c : LCore) (e1 : Word) : State :=
      portHolds (paged c) [{ writeCmd with shape := shape1 e1 4 4, vtype := c.vtype.setWidth 16, started := true }]
    let ok (s : State) : Bool := (Instr.vstp g).wf && s.issuesAlone (.vstp g) && runs (s.portPlan (encode (.vstp g)) 3 true).2
      && (headCmd (s.myCmds 3)).any fun h => h.isWrite && !h.done
    ok (into (vec 0x4 4) 0x800001) = true ∧ ok (into (vec 0xC 4) 0x800D01) = true
      ∧ ((into (vec 0xC 4) 0x800D01).myCmds 3).map (fun h => h.shape.fmt) = [MemFmt.e2m1b]
      ∧ ok (into { vec 0x4 4 with vstart := 4 } 0x800001) = true := by
  decide +kernel

/-- SAVAIL, SWAIT finished, with a fault, in each case on itself, of what has moved or still moves, and behind a port that
needs the thread; the port controls without a command, with one that
waits, with one that runs, and with two. -/
theorem meets_StreamInstructions_ports :
    let s := portHolds (one core0)
    let write : Cmd := { cmd0 with shape := shape1 0x800001 4 4 }
    let full : Cmd := { readCmd with started := true, exp := 4096, mem := 2048, buf := List.replicate 2048 ⟨some 7, 0⟩ }
    let run : Cmd := { readCmd with started := true }
    ((one core0).pendingPort [31] = none ∧ (one core0).myCmds 3 = [] ∧ (one core0).lc.displaced = [])
      ∧ (s [{ readCmd with done := true }]).myCmds 3 = [{ readCmd with done := true }]
      ∧ ((s [{ readCmd with fault := some ⟨.pageNp, 5⟩ }]).myCmds 3).find? (·.fault.isSome) = some { readCmd with fault := some ⟨.pageNp, 5⟩ }
      ∧ (headCmd ((s [{ readCmd with suspended := true }]).myCmds 3)).any (·.suspended) = true
      ∧ ((s [full]).myCmds 3 = [full] ∧ headCmd [full] = some full ∧ full.isWrite = false ∧ freeElems [full] full = 0 ∧ full.fault = none)
      ∧ ((s [write]).myCmds 3 = [write] ∧ headCmd [write] = some write ∧ write.isWrite = true ∧ write.reg < write.exp)
      ∧ (let moved : Cmd := { run with mem := 4 }
        (s [moved]).myCmds 3 = [moved] ∧ [moved].find? (!·.done) = some moved ∧ moved.exp ≤ moved.mem ∧ moved.isWrite = false ∧ moved.fault = none)
      ∧ ((s [run]).myCmds 3 = [run] ∧ headCmd [run] = some run ∧ [run].find? (!·.done) = some run ∧ run.mem < run.exp ∧ run.suspended = false
        ∧ run.isWrite = false ∧ freeElems [run] run ≠ 0 ∧ run.fault = none ∧ (s [run]).stuck 16 run.after = false)
      ∧ (let behind : Cmd := { run with after := [(4, 1)] }
        let t : State := { one core0 with ports := [(3, ⟨some 0, [behind]⟩), (4, ⟨some 0, [{ write with reg := 1, suspended := true }]⟩)] }
        t.myCmds 3 = [behind] ∧ t.stuck 16 behind.after = true ∧ behind.mem < behind.exp)
      ∧ (let l : List Cmd := [{ readCmd with mem := 4, done := true }, write]
        (s l).myCmds 3 = l ∧ headCmd l = some { readCmd with mem := 4, done := true } ∧ l.find? (!·.done) = some write)
      ∧ ((s [readCmd]).port 0 3 = ⟨some 0, [readCmd]⟩ ∧ readCmd.over = false ∧ readCmd.started = false ∧ readCmd.tokenPending = true
        ∧ readCmd.token ≠ 0)
      ∧ (run.over = false ∧ run.suspended = false ∧ run.started = true ∧ run.done = false)
      ∧ ((s [readCmd, { readCmd with token := 6 }]).port 0 3 = ⟨some 0, [readCmd, { readCmd with token := 6 }]⟩ ∧ readCmd.regDone = false
        ∧ (6 : Reg) ≠ readCmd.token) := by decide +kernel

/-- Dispatch without and with leave; a group, of a port that another outranks and that it does not; completion of a read
and of a write; displacement by a higher priority. -/
theorem meets_StreamEngineSteps :
    let at_ (x : Cmd) : State := portHolds (streaming 1 4) [x]
    let wide : Cmd := { cmd0 with shape := shape1 1 513 0x8000, exp := 513 }
    let going : Cmd := { readCmd with started := true }
    let put : Cmd := { writeCmd with started := true, reg := 4, buf := List.replicate 4 ⟨some 7, 0⟩ }
    let two (turn : Nat) : State := { at_ going with ports := [(3, ⟨some 0, [going]⟩), (4, ⟨some 0, [going]⟩)], streamTurns := [(3, turn)] }
    let high : LCore := { core0 with job := { Job.nothing with prio := 1 }, waitFor := .port 3 }
    let t : State := { at_ readCmd with threads := [(0, { HThread.idle with occupied := true }), (3, { HThread.idle with occupied := true, lc := high })] }
    ((at_ readCmd).port 0 3 = ⟨some 0, [readCmd]⟩ ∧ readCmd.done = false ∧ readCmd.started = false ∧ readCmd.suspended = false
        ∧ readCmd.mgemv = none ∧ readCmd.needsLeave = false)
      ∧ (wide.needsLeave = true ∧ (at_ wide).gov.reqs = [] ∧ (at_ wide).gov.grants = [])
      ∧ ((at_ going).canMove 0 3 going = true ∧ (at_ going).outranked 0 3 going = false
        ∧ (match State.moveGroup 0 [going] false 64 (at_ going) going with | (_, y, none) => y.mem == 4 | _ => false) = true)
      ∧ ((at_ put).canMove 0 3 put = true ∧ (at_ put).outranked 0 3 put = false ∧ put.shape.fmt ≠ .e2m1b ∧ (at_ put).latent = [] ∧ (at_ going).latent = []
        ∧ (match State.moveGroup 0 [put] false 64 (at_ put) put with | (_, y, none) => y.mem == 4 | _ => false) = true)
      ∧ (memHead ((two 1).port 0 4).cmds = some going ∧ (two 1).canMove 0 4 going = true ∧ (two 1).hasWork 0 4 going = true
        ∧ (two 1).prioOf going.owner = (two 1).prioOf going.owner
        ∧ (FMap.get? (two 1).streamTurns (portKey 0 4)).getD 0 < (FMap.get? (two 1).streamTurns (portKey 0 3)).getD 0)
      ∧ (({ going with mem := 4 } : Cmd).exp ≤ ({ going with mem := 4 } : Cmd).mem ∧ writeCmd.isWrite = true
        ∧ ({ writeCmd with reg := 4 } : Cmd).exp ≤ ({ writeCmd with reg := 4 } : Cmd).reg)
      ∧ (0 ≠ 3 ∧ readCmd.owner = 0 ∧ 3 / 4 = 0 ∧ (t.thr 3).occupied = true ∧ (t.thr 3).lc.waitFor = .port 3 ∧ t.prioOf 0 < t.prioOf 3
        ∧ (t.thr 0).lc.displaced = [] ∧ (t.thr 0).occupied = true ∧ t.poison = [] ∧ t.latent = [] ∧ t.imageFree (.slot 0 0) = true) := by
  decide +kernel

/-- A logical core with 64-bit hypervectors at integer SEW 16 and VL 64; its Case of 4 sorts starts at 0x88000. -/
def hyper : LCore := { vec 0x3 64 with
  hvw := 64, caseb := 0x88000, casen := 4, hvpart := 0x0002000000040002, job := { Job.nothing with casesorts := 4 } }

/-- HVSET of 64 and of 65 bits, HVSTAT and HVRAND; the members. -/
theorem meets_HypervectorResults :
    let s := one (hyper.gs [(1, 64), (2, 65)])
    (s.notDrained = false ∧ s.pendingPort [1] = none ∧ s.pendingPort [31] = none)
      ∧ ((s.lc.rd 1).toNat % 64 = 0 ∧ (s.lc.hvw = 0 ∨ s.lc.hvw = s.lc.rd 1)) ∧ ((s.lc.rd 2).toNat % 64 ≠ 0)
      ∧ s.allPass { Member.base (encode (.hvrand ⟨false, false, false, false, 0, 1, 3⟩)) false with
          ill := s.lc.notHv, gr := [1], vw := [s.lc.grp 3] } = true := by decide +kernel

theorem meets_HypervectorResults_members :
    ∀ i ∈ [Instr.hvbind fieldsP, .hvperm fieldsP, .hvmaj fieldsP, .hvsim fieldsP, .hvbund fieldsP],
      i.wf = true ∧ ∃ x, (one hyper).Issues i x := State.all_issue (by decide +kernel)

/-- A core whose Case lies in its own vault; with leave, and a run of HVFACT as it stands, or none. -/
def casing (c : LCore) (leave : Bool) (run : Option Fact) : State :=
  let s := holding (paged c) [(0x30088, 8, 0x81000000FF)]
  let s := s.setLc { s.lc with job := { s.lc.job with casesorts := 4 } }
  { s with
    gov := { s.gov with grants := if leave then [⟨factLeave 0, 500, none, 0, 0, 0⟩] else [] }
    factHolder := match run with
      | some r => [(0, ⟨0, some r⟩)]
      | none => [] }

/-- The members of HVCLEAN and HVFACT. -/
noncomputable def searcher (i : Instr) (s : State) : Member :=
  { Member.base (encode i) false with ill := s.lc.notHv, vr := [s.lc.grp 2], gw := [1] }

/-- HVCLEAN of a bad Case, of none, of 4 sorts, of 17 with sorts left. -/
theorem meets_CaseSearchResults_clean :
    let i := Instr.hvclean ⟨false, false, false, false, 0, 2, 1⟩
    let s := casing hyper false none
    let long (s : State) : State := s.setLc { s.lc with casen := 17, job := { s.lc.job with casesorts := 17 } }
    let first (c : LCore) : LCore := { c.wr 1 0 with hvdist := 65, hvnext := 64 }
    let sorts (s : State) (hi : Nat) : Bool :=
      match State.readSorts (rangeFrom 0 hi) ((s.seen [1]).setLc (first (s.seen [1]).lc)) with
      | (_, .ok l) => l.length == hi
      | _ => false
    s.allPass (searcher i s) = true ∧ ({ hyper with casen := 4097 } : LCore).caseBad = true ∧ ({ hyper with casen := 0 } : LCore).caseBad = false
      ∧ (s.lc.caseBad = false ∧ s.lc.casen ≠ 0 ∧ s.lc.casen.toNat ≤ 0 / 16 * 16 + 16 ∧ sorts s 4 = true)
      ∧ ((long s).lc.caseBad = false ∧ 16 < (long s).lc.casen.toNat ∧ sorts (long s) 16 = true) := by decide +kernel

/-- HVFACT with a value out of range, with a holder of the buffer, without leave, with a leave that it lost, at its first
block, at a stop asked and at its last block. -/
theorem meets_CaseSearchResults_fact :
    let i := Instr.hvfact ⟨false, false, false, false, 0, 2, 1⟩
    let s := casing hyper true none
    let last := casing hyper true (some { Fact.fresh hyper with phase := 2, fact := 1 })
    let ends (s : State) : Option Bool :=
      match (s.seen [1]).span .ownVault .rmw s.lc.work (49 * s.lc.sst) with
      | (v, .ok area) => match v.factRun area with
        | (w, .ok r) => match State.readSorts (r.block w.lc) w with
          | (y, .ok l) =>
            let q := r.after w.lc 0 l
            if q.over' w.lc then match State.readSorts (q.idx.take w.lc.nf) y with
              | (_, .ok _) => some true
              | _ => none
            else some false
          | _ => none
        | _ => none
      | _ => none
    let held : State := { s with factHolder := [(0, ⟨1, none⟩)] }
    let asked : State := { s with threads := [(0, { s.thr 0 with stopAsked := some 1 })] }
    let lost := casing hyper false (some (Fact.fresh hyper))
    (s.allPass (searcher i s) = true ∧ ({ hyper with hvw := 16448 } : LCore).factBad = some 16448 ∧ s.lc.factBad = none)
      ∧ (FMap.get? held.factHolder held.core = some ⟨1, none⟩ ∧ 1 ≠ held.cur ∧ held.lc = s.lc ∧ held.allPass (searcher i held) = true)
      ∧ (FMap.get? s.factHolder s.core = none ∧ s.hasLeave (factLeave 0) = true ∧ (casing hyper false none).hasLeave (factLeave 0) = false)
      ∧ ((asked.thr asked.cur).stopAsked ≠ none ∧ asked.lc = s.lc ∧ asked.allPass (searcher i asked) = true
        ∧ FMap.get? asked.factHolder asked.core = none ∧ asked.hasLeave (factLeave 0) = true ∧ ends asked = some false)
      ∧ (ends s = some false ∧ (s.thr s.cur).stopAsked = none)
      ∧ (FMap.get? lost.factHolder lost.core = some ⟨lost.cur, some (Fact.fresh hyper)⟩ ∧ lost.hasLeave (factLeave lost.cur) = false
        ∧ (lost.thr lost.cur).stopAsked = none ∧ lost.lc = s.lc ∧ lost.allPass (searcher i lost) = true
        ∧ (match (lost.seen [1]).span .ownVault .rmw lost.lc.work (49 * lost.lc.sst) with
            | (v, .ok area) => (match (v.factRun area).2 with | .ok _ => true | _ => false)
            | _ => false) = true)
      ∧ (ends last = some true ∧ FMap.get? last.factHolder last.core = some ⟨last.cur, some { Fact.fresh hyper with phase := 2, fact := 1 }⟩) := by
  decide +kernel

/-- What a block of HVFACT does: in each part of the start and of a sweep, with a part left and with none; at the end of
a sweep that converges, that comes back, that stagnates, that reaches the limit, and that does none of these; in clean-up. -/
theorem meets_CaseSearchResults_block :
    let c : LCore := hyper
    let r := Fact.fresh c
    let l : List (Nat × Nat) := [(0, 1), (1, 2)]
    let swept : Fact := { r with phase := 1, fact := 1 }
    let est : List Nat := [0, (swept.after c 3 l).est.getD 1 0]
    (c.nf = 2 ∧ c.bound 1 = 2 ∧ c.bound 2 = 4)
      ∧ (r.phase ≠ 2 ∧ ¬ (c.bound 1 - c.bound 0 ≤ r.sort + ([(0, 1)] : List (Nat × Nat)).length) ∧ c.bound 1 - c.bound 0 ≤ r.sort + l.length)
      ∧ (({ r with fact := 1 } : Fact).phase = 0 ∧ c.nf ≤ 1 + 1 ∧ c.bound 2 - c.bound 1 ≤ r.sort + l.length)
      ∧ ((swept.after c 3 l).phase = 1 ∧ (swept.after c 3 l).sweep = 1 ∧ (swept.after c 3 l).hist ≠ [])
      ∧ ({ swept with est := est } : Fact).chg = false ∧ (({ swept with est := est } : Fact).after c 3 l).phase = 2
      ∧ (({ swept with hist := [[], est], chg := true } : Fact).after c 3 l).phase = 2
      ∧ (({ swept with stag := 7, rbest := 0 } : Fact).after c 3 l).phase = 2
      ∧ (({ swept with sweep := 255 } : Fact).after c 3 l).phase = 2
      ∧ ({ r with phase := 2 } : Fact).phase = 2 := by decide +kernel

/-- A buffer taken from a thread of lower priority, that has begun no HVFACT, and that has. -/
theorem meets_CaseSearchResults_take :
    let s := casing hyper true (some (Fact.fresh hyper))
    let wants : HThread := { HThread.idle with occupied := true, lc := { core0 with job := { Job.nothing with prio := 200 }, waitFor := .fact } }
    let t : State := { s with threads := s.threads ++ [(1, wants)] }
    let idle : State := { t with factHolder := [(0, ⟨0, none⟩)] }
    (FMap.get? t.factHolder 0 = some ⟨0, some (Fact.fresh hyper)⟩ ∧ FMap.get? idle.factHolder 0 = some ⟨0, none⟩ ∧ (0 : Nat) ≠ 1
      ∧ (t.thr 1).occupied = true ∧ (t.thr 1).lc.waitFor = .fact ∧ t.prioOf 0 < t.prioOf 1)
      ∧ (match ({ t with cur := 0 } : State).span .ownVault .rmw (t.thr 0).lc.work (49 * (t.thr 0).lc.sst) with
          | (_, .ok _) => true
          | _ => false) = true := by decide +kernel

/-- A logical core at e32f with VL 4 and a Stick of H 3, checkpoint interval 1. -/
def sticky : LCore := { vec 0xC 4 with skcfg := 0x103, job := { Job.nothing with skdepth := 8 } }

/-- SKSET legal and not; the others with H 0, with VL above NMAX, and served. -/
theorem meets_StickResults :
    let s := one (sticky.gs [(1, 0x000103), (2, 0x000102)])
    let feed (s : State) := s.allPass { Member.base (encode (.skfeed fieldsZ)) false with ill := s.lc.notE32f, vr := [s.lc.grp 2] }
    let est (s : State) := s.allPass { Member.base (encode (.skest ⟨false, false, false, false, 0, 0, 2⟩)) false with
      ill := s.lc.notE32f, vw := [s.lc.grp 2] }
    let stat (s : State) := s.allPass { Member.base (encode (.skstat ⟨false, false, false, false, 3, 9, 7⟩)) false with
      ill := s.lc.notE32f, kw := [7], gw := [9] }
    let big := one { sticky with vl := 513, vtype := 0x1C }
    (s.notDrained = false ∧ s.pendingPort [1] = none)
      ∧ ((s.lc.rd 1).toNat % 16 = 3 ∧ (s.lc.rd 1).toNat / 2 ^ 8 % 2 ^ 16 = 1 ∧ 3 ≤ s.lc.job.skdepth) ∧ (s.lc.rd 2).toNat % 16 = 2
      ∧ (Instr.skstat ⟨false, false, false, false, 3, 9, 7⟩).wf = true
      ∧ ([s, big, one { sticky with skcfg := 0 }].all (fun s => feed s && est s && stat s)) = true
      ∧ (s.lc.skH ≠ 0 ∧ s.lc.vl ≤ min 512 (4096 / (s.lc.skH + 3)) ∧ (s.thr s.cur).stopAsked = none)
      ∧ (big.lc.skH ≠ 0 ∧ min 512 (4096 / (big.lc.skH + 3)) < big.lc.vl) ∧ (one { sticky with skcfg := 0 }).lc.skH = 0 := by decide +kernel

/-- An attachment of 2 rows; its B buffer 0 holds BF16. -/
def attach2 : Attach := { Attach.fresh [0, 1] 0 with bbufs := [⟨some 14, List.replicate 2048 0⟩, ⟨none, []⟩] }

/-- A thread with an attachment, on mapped pages, with leave or not. -/
def matrixed (a : Option Attach) (leave : Bool) : State :=
  let s := holding (paged ({ vec 0x3 32 with attach := a }.gs [(1, 0x80100), (2, 0x88100), (3, 128), (4, 2)])) [(0x30088, 8, 0x81000000FF)]
  { s with gov := { s.gov with grants := if leave then [⟨mattLeave 0, 700, none, 0, 0, 0⟩] else [] } }

/-- MATT of no row, without and with leave; MDET; an instruction without attachment and with a displaced one;
ATTACHMENT_REACQUIRE with too few rows, without leave, with leave. -/
theorem meets_MatrixAttachments :
    let s := matrixed none true
    let away : Attach := { attach2 with slots := [], displaced := true, waits := some 0 }
    let w (leave : Bool) : State := let s := matrixed (some away) leave
      s.setLc { s.lc with waitFor := .tiles }
    (s.pendingPort [5, 4] = none ∧ s.pendingPort [5, 0] = none ∧ s.lc.attach = none ∧ min (s.lc.rd 0).toNat 32 = 0 ∧ min (s.lc.rd 4).toNat 32 ≠ 0
        ∧ s.hasLeave (mattLeave 0) = true ∧ (matrixed none false).hasLeave (mattLeave 0) = false)
      ∧ ((matrixed (some attach2) true).lc.attach ≠ none ∧ (matrixed (some attach2) true).passes = [])
      ∧ (s.lc.notTile 14 = false ∧ s.pendingPort [1] = none ∧ s.seen [1] = s ∧ s.pendingPort [1, 3] = none ∧ s.seen [1, 3] = s)
      ∧ ((w true).lc.attach = some away ∧ away.displaced = true)
      ∧ ((Instr.mzero ⟨false, false, false, false, 0, 0, 3⟩).wf = true ∧ attach2.displaced = false ∧ attach2.tiles.length = 4
        ∧ (matrixed (some attach2) true).tileBusy 3 = false)
      ∧ (((w true).thr 0).lc.waitFor = .tiles ∧ away.rows ≤ ((w true).freeSlots (clusterOf 0)).length ∧ (w true).hasLeave (mattLeave 0) = true
        ∧ (w false).hasLeave (mattLeave 0) = false ∧ ((w true).freeSlots (clusterOf 0)).length < ({ away with rows := 65 } : Attach).rows) := by
  decide +kernel

set_option maxRecDepth 100000 in
/-- MLDB, MMA and MST whose bytes are found. -/
theorem meets_MatrixResults_tiles :
    let s := matrixed (some attach2) true
    (s.lc.attach = some attach2 ∧ attach2.displaced = false ∧ s.lc.notTile 14 = false ∧ s.pendingPort [1] = none ∧ s.pendingPort [2] = none
        ∧ s.pendingPort [1, 3] = none ∧ (s.lc.rd 1).toNat % 64 = 0 ∧ (s.lc.rd 2).toNat % 256 = 0 ∧ (attach2.bbufs[0]?).any (·.fmt == some 14) = true)
      ∧ (∃ v l, (s.seen [1]).span .plain .read (s.lc.rd 1) (32 * rowBytes 14) = (v, .ok l) ∧ (match (v.load l).2 with | .ok _ => true | _ => false) = true)
      ∧ (∃ v l, (s.seen [2]).span .ownVault .read (s.lc.rd 2) (attach2.rows * rowBytes 14) = (v, .ok l)
        ∧ (match (v.load l).2 with | .ok _ => true | _ => false) = true)
      ∧ ∃ v l, (s.seen [1, 3]).placeRows (tileAlign 14 32) 64 ((List.range 2).map fun i => s.lc.rd 1 + BitVec.ofNat 64 i * s.lc.rd 3) = (v, .ok l) :=
  ⟨by decide +kernel, answers_with (p := fun (v : State) (l : List ByteAt) => match (v.load l).2 with | .ok _ => true | _ => false) (by decide +kernel),
    answers_with (p := fun (v : State) (l : List ByteAt) => match (v.load l).2 with | .ok _ => true | _ => false) (by decide +kernel),
    answers (by decide +kernel)⟩

/-- Passes of thread 0, waiting (the second one behind the first), started, and started in FP64. -/
theorem meets_MatrixResults_passes :
    let p : Pass := ⟨0, 0, 1, 14, 0, [List.replicate 64 0, List.replicate 64 0], List.replicate 2048 0, true⟩
    let s : State := { matrixed (some attach2) true with passes := [{ p with started := false }, { p with started := false }] }
    let t : State := { s with passes := [p] }
    let d : State := { s with passes := [{ p with fmt := 0, tile := 2, slc := 7 }] }
    (s.passes[0]?.any (fun q => clusterOf q.thr == 0 && !q.started) = true)
      ∧ (t.passes[0]? = some p ∧ clusterOf p.thr = 0 ∧ (t.thr 0).lc.attach = some attach2 ∧ p.tile < attach2.tiles.length ∧ p.fmt ≠ 0)
      ∧ (d.passes[0]? = some { p with fmt := 0, tile := 2, slc := 7 } ∧ (d.thr 0).lc.attach = some attach2 ∧ 2 + 1 < attach2.tiles.length) := by
  decide +kernel

/-- A thread at e32f whose g1 points to a descriptor of this many rows of BF16 from 0x88000, striped, 64 bytes apart. -/
def multiplying (vl rows : Nat) : State :=
  holding (paged ((vec 0xC vl).gs [(1, 0x80100)])) [(0x30088, 8, 0x4827F), (0x40100, 8, 0x88000), (0x40108, 8, rows), (0x40110, 8, 64)]

def multiply : TF := ⟨14, false, false, false, false, 8, 1, 3⟩

/-- MGEMV of VL 0, with a bad descriptor, with a good one on a free port, and on a port of another thread. -/
theorem meets_MatrixResults_mgemv :
    let mem (s : State) : Member := { Member.base (encode (.mgemv multiply)) false with ill := s.lc.notGemv, vr := [s.lc.grp 8], gr := [1] }
    let found (s : State) (p : State → BDesc → Bool) : Bool :=
      match (s.seen [1]).scalarAccess .plain .read (s.lc.rd 1) 64 with
      | (v, .ok l) => match v.load l with
        | (w, .ok b) => p w (BDesc.ofBytes b)
        | _ => false
      | _ => false
    let other : State := { multiplying 32 2 with ports := [(3, ⟨some 1, [readCmd]⟩)] }
    ([multiplying 0 2, multiplying 32 0, multiplying 32 2, other].all (fun s => s.allPass (mem s))) = true
      ∧ ((multiplying 0 2).lc.vl = 0 ∧ (multiplying 32 2).lc.vl ≠ 0)
      ∧ found (multiplying 32 0) (fun _ b => b.bad 14 32) = true
      ∧ found (multiplying 32 2) (fun w b => !b.bad 14 32 && decide (w.gemvs.length < 2) && (w.port w.core 3).owner.isNone
          && (w.port w.core 3).cmds.isEmpty && w.lc.displaced.isEmpty) = true
      ∧ found other (fun w b => !b.bad 14 32 && (w.port w.core 3).owner == some 1 && w.cur != 1) = true := by decide +kernel

/-- A command of MGEMV on port 3 whose row 0, or row 1 before it, may be formed; without and with leave. -/
theorem meets_MatrixResults_row :
    let x : Cmd := gemvCmd (multiplying 32 2) ⟨0x88000, 2, 64, true⟩ 14 (List.replicate 32 0x3F800000)
    let s (leave : Bool) : State := { portHolds (multiplying 32 2) [x] with
      gov := { Governor.reset with grants := if leave then [⟨portLeave .mgemv 0 0 3, 500, none, 0, 0, 0⟩] else [] } }
    (memHead ((s true).port 0 3).cmds = some x ∧ x.mgemv.any (·.rowsDone.isEmpty) = true ∧ x.suspended = false ∧ x.stopAsked = false ∧ x.fault = none
        ∧ x.after = [] ∧ ({ x with after := [(2, 1)] } : Cmd).after ≠ [] ∧ x.hold = false ∧ x.done = false ∧ x.mem ≤ 0 ∧ 1 < x.exp ∧ 1 < x.mem + freeElems ((s true).port 0 3).cmds x)
      ∧ ((s true).hasLeave (portLeave .mgemv 0 0 3) = true ∧ (s false).hasLeave (portLeave .mgemv 0 0 3) = false)
      ∧ ([0, 1].all fun row => match ((s true).gemvRowBytes 0 ((s true).streamWho 0 x) ⟨0x88000, 2, 64, true⟩ 14 32 row).2 with
          | .ok _ => true
          | _ => false) = true := by decide +kernel

/-- Group 3 of two members: rank 0 is logical core 0 of this device, rank 1 logical core 5 of device 1; its window of
4 KiB lies at 0x2000000. The contributor runs on thread 0. -/
def grouped (c : LCore) : State :=
  let s := holding (paged c) [(0x1003000, 2, 2), (0x1003004, 4, 1), (0x1003008, 8, 0x2000000), (0x1003010, 8, 4096), (0x1003018, 4, 1),
    (0x1003044, 4, 0x100005)]
  { s with host := { s.host with gtbase := 0x1000000 } }

/-- The group as it is read. -/
def group3 : Group := ⟨2, 0, 1, 0x2000000, 4096, [(0, 0), (1, 5)]⟩

/-- A contributor that has contributed to `next` rounds and waited for `waited`. -/
def contributor (next waited : Nat) : LCore := { vec 0x4 4 with
  cgrp := 0x8000000000000003, cstr := 64, coll := [(3, ⟨next, waited⟩)] }

/-- Round 0 of group 3 is released with this contributor set. -/
def releasedWith (s : State) (set : List Nat) : State := { s with releases := [⟨3, ⟨0, set, [1], true, 1, 0, 32, false⟩, []⟩] }

/-- CSET of the group and of none; VSTC without a group, over an unreleased round, misaligned, and sent. -/
theorem meets_CollectiveResults_send :
    let s := grouped ((contributor 0 0).gs [(1, 3), (2, 64), (3, 4095), (4, 0), (5, 2)])
    let i : VF := ⟨false, false, false, false, 8, 4, 0⟩
    let mem (s : State) : Member := { Member.base (encode (.vstc i)) false with
      ill := s.lc.notColl || (s.lc.cop == 3 && Vtype.flt s.lc.vtype), vr := [s.lc.grp 8], gr := [4] }
    (s.notDrained = false ∧ s.pendingPort [31, 1, 2] = none ∧ s.group? 3 = some group3 ∧ group3.isMember s.dev s.lc = true ∧ 64 ≤ group3.gwlen
        ∧ s.group? 4095 = none
        ∧ ((s.seen [31, 1, 2]).readEntry 3).2 = some () ∧ (({ s with poison := [wordOf 0x1003000] } : State).readEntry 3).2 = none)
      ∧ (s.allPass (mem s) = true ∧ (one core0).lc.cgrp.getLsbD 63 = false ∧ s.lc.cgrp.getLsbD 63 = true ∧ s.myGroup = some (3, group3, 0))
      ∧ ((s.collIn s.lc 3).next = 0 ∧ (s.collIn (contributor 1 0) 3).next ≠ 0 ∧ s.released? 3 0 = none ∧ ((releasedWith s [0]).released? 3 0).isSome = true)
      ∧ ((s.lc.rd 5).toNat % (s.lc.sew / 8) ≠ 0 ∧ (s.lc.rd 4).toNat % (s.lc.sew / 8) = 0
        ∧ ∀ e, e < s.lc.vl → (s.lc.rd 4 + BitVec.ofNat 64 (e * (s.lc.sew / 8))).toNat < group3.gwlen) := by decide +kernel

/-- Storing words of 8 bytes, as a function: the state after them, where each is found. -/
def State.storesAll : State → Word → List (List Byte) → Option State
  | s, _, [] => some s
  | s, va, w :: l => match s.span .plain .write va 8 with
    | (u, .ok p) => (u.store u.core p w).storesAll (va + 8) l
    | _ => none

theorem State.stores_all (s : State) (va : Word) (l : List (List Byte)) : (s.storesAll va l).isSome = true → ∃ u, s.StoresAll va l u := by
  induction l generalizing s va with
  | nil => exact fun _ => ⟨s, rfl⟩
  | cons w l ih =>
    intro h
    simp only [State.storesAll] at h
    split at h
    · rename_i u p hp
      obtain ⟨t, ht⟩ := ih _ _ h
      exact ⟨t, u, p, hp, ht⟩
    · simp at h

/-- CWAIT with nothing to wait for, before the release, after it inside and outside of S, with and without CMAPB, where
its 15 words can be stored and where the first is not found; VLDC before any round, and after round 0. -/
theorem meets_CollectiveResults_receive :
    let s := grouped ((contributor 1 0).gs [(4, 0)])
    let t := releasedWith (grouped { (contributor 1 0).gs [(4, 0)] with cmapb := 0x80100 }) [0]
    let far := releasedWith (grouped { (contributor 1 0).gs [(4, 0)] with cmapb := 0x70000 }) [0]
    let i : VF := ⟨false, false, false, false, 0, 4, 8⟩
    (let z := grouped (contributor 0 0);
      (z.collIn z.lc 3).next = (z.collIn z.lc 3).waited ∧ (z.collIn z.lc 3).next % 2 ^ 32 = 0)
      ∧ ((s.collIn s.lc 3).next ≠ (s.collIn s.lc 3).waited ∧ s.released? 3 0 = none)
      ∧ (t.released? 3 0).any (fun r => r.info.set.contains 0) = true ∧ ((releasedWith s [1]).released? 3 0).any (fun r => !r.info.set.contains 0) = true
      ∧ s.lc.cmapb = 0 ∧ (t.storesAll t.lc.cmapb (List.replicate 15 (List.replicate 8 0))).isSome = true
      ∧ (match (far.span .plain .write far.lc.cmapb 8).2 with | .error (.trap _ _) => true | _ => false) = true
      ∧ (t.allPass { Member.base (encode (.vldc i)) false with ill := t.lc.notColl, vw := [t.lc.grp 8], gr := [4] } = true
        ∧ t.myGroup = some (3, group3, 0) ∧ t.released? 3 2 = none ∧ (t.thr t.cur).stopAsked = none ∧ t.latent = [] ∧ t.poison = []
        ∧ t.retired = [] ∧ t.lc.vl ≤ Vtype.vlmax t.lc.vtype ∧ (t.collIn t.lc 3).next = 0 + 1) := by decide +kernel

/-- A packet, and a report, of rank 1 for round 0. -/
def packet1 : CollPacket := ⟨3, 0, 0, 1, 0, 64, 32, false, 100, 1, [(0, 7)], false⟩

/-- A contribution of this device that waits for its homes; a packet before and after the set is fixed; a report to a new
and a known leader round, and of a killed member; the deadline before and after; the combination and its poison; a release
that arrives, and one that this device sends or keeps back. -/
theorem meets_CollectiveResults_engines :
    let s := grouped (contributor 1 0)
    let push (left : List Nat) : State := { s with pushes := [⟨0, 0, { packet1 with rank := 0 }, left, []⟩] }
    let back : CollPacket := { packet1 with rank := 0, home := 1 }
    let fixed : State := { s with homes := [⟨3, 0, [], some ([0], 1), none⟩] }
    let led : LeaderRound := ⟨3, 0, [packet1], 0, none, [], 0, false, false⟩
    let t : State := { s with leaders := [led] }
    let ready : State := { s with homes := [⟨3, 0, [packet1], some ([1], 1), none⟩] }
    let written : State := { s with homes := [⟨3, 0, [packet1], some ([1], 1), some [0]⟩], leaders := [{ led with fixed := some [1] }] }
    (s.group? 3 = some group3 ∧ group3.rankOf s.dev = some 0 ∧ packet1.rank < group3.n ∧ packet1.home ≠ packet1.rank ∧ (s.homeAt 3 0).packets = []
        ∧ (s.homeAt 3 0).set = none ∧ s.released? 3 0 = none)
      ∧ ((push [1]).pushes.all (·.after.isEmpty) = true ∧ (⟨0, 0, packet1, [1], [(2, 1)]⟩ : CollPush).after ≠ []
        ∧ group3.rankOf (push [1]).dev = some back.rank ∧ back.home ≠ back.rank ∧ back.rank < group3.n
        ∧ ([1] : List Nat).filter (· != back.home) = [] ∧ ([0, 1] : List Nat).filter (· != back.home) ≠ [])
      ∧ ((fixed.homeAt 3 0).set = some ([0], 1) ∧ packet1.rank ∉ [0])
      ∧ (t.leaders.find? (fun x => x.gid == 3 && x.round == 0) = some led ∧ led.reports ≠ [] ∧ ({ packet1 with rank := 0, gone := true } : CollPacket).gone = true)
      ∧ (s.leaders.find? (fun x => x.gid == 3 && x.round == 0) = none ∧ group3.rankOf s.dev = (s.liveRanks group3).head?
        ∧ ({ t with leaders := [{ led with reports := [] }] } : State).leaders.find? (fun x => x.gid == 3 && x.round == 0) = some { led with reports := [] })
      ∧ (t.leaders.find? (fun x => x.gid == 3 && x.fixed.isNone) = some led ∧ led.reports.head? = some packet1 ∧ (led.reports.map (·.rank)).Nodup
        ∧ s.dtime < led.firstAt + packet1.cdl ∧ led.firstAt + packet1.cdl ≤ ({ t with dtime := 100 } : State).dtime)
      ∧ (ready.homes.find? (fun x => x.gid == 3 && x.set.isSome && x.written.isNone) = some ⟨3, 0, [packet1], some ([1], 1), none⟩
        ∧ ready.poison = [] ∧ ready.latent = [] ∧ (∀ r ∈ [1], ∃ q ∈ [packet1].filter (fun q => [1].contains q.rank), q.rank = r)
        ∧ ([packet1].filter fun q => [1].contains q.rank).head? = some packet1)
      ∧ (({ round := 0, set := [], dlvl := 0, poison := true } : SetMsg).poison = true)
      ∧ (written.leaders.find? (fun x => x.gid == 3 && x.fixed.isSome && !x.released) = some { led with fixed := some [1] }
        ∧ (written.homeAt 3 0).written.isSome = true ∧ written.liveRanks group3 = [0, 1] ∧ group3.rankOf written.dev ≠ some 1
        ∧ (∃ x ∈ [(⟨1, [], []⟩ : HomeMsg)], x.home = 1) ∧ ¬ ∃ x ∈ ([] : List HomeMsg), x.home = 1) := by decide +kernel

/-- An exchange of group 3 under way, with two sources and no destination left. -/
def exchange : XchMember := { XchMember.start with
  active := true, posted := true, dposted := true, gid := 3, granted := true, t0 := 5000, tend := 9000, rlen := 0x1000, rbuf := 0x80000,
  grants := [⟨6000, 1, 1, 512, 0, 0⟩], sources := [⟨0, 0, true, false, 0, []⟩, ⟨0, 256, false, false, 0, []⟩], dests := [⟨0, 0, []⟩, ⟨512, 0, []⟩] }

/-- A contributor with an exchange; v8 holds its row, v9 one whose own element is not 0. -/
def posting3 (x : XchMember) : State :=
  grouped ((({ contributor 0 0 with vtype := 0x5, vl := 2, xchs := [(3, x)], xbase := 0x80000 } : LCore).els 8 64 [0, 512]).els 9 64 [1, 512]
    |>.gs [(1, 0), (2, 511), (3, 512), (4, 0xFFFFFFFFFFFFFFFF), (5, 2), (6, 1)])

/-- DPOST and DPOSTA, whole and bad, behind what VSTP has pushed, over an exchange that runs, that runs unposted, that waits for its grants, and with none. -/
theorem meets_ExchangeMemberResults_post :
    let s := posting3 .start
    let t := posting3 exchange
    let late := posting3 { exchange with posted := false }
    let mem (i : Instr) (r : Reg) (s : State) : Member := { Member.base (encode i) false with
      ill := Vtype.vill s.lc.vtype || Vtype.flt s.lc.vtype || s.lc.sew != 64, vr := [s.lc.grp r] }
    let post : VF := ⟨false, false, false, false, 0, 8, 0⟩
    let bad : VF := ⟨false, false, false, false, 0, 9, 0⟩
    (s.lc.cgrp.getLsbD 63 = true ∧ s.myGroup = some (3, group3, 0) ∧ s.lc.vl = group3.n ∧ s.lc.val 8 64 0 = 0 ∧ s.lc.val 9 64 0 ≠ 0)
      ∧ ([s, t, late].all fun s => !s.owes && (owing s).owes && (owing s).allPass (mem (.dpost post) 8 (owing s))
        && (owing s).allPass (mem (.dposta post) 8 (owing s)) && s.allPass (mem (.dpost post) 8 s) && s.allPass (mem (.dpost bad) 9 s) && s.allPass (mem (.dposta post) 8 s)) = true
      ∧ (let x := t.lc.xchIn 3;
        x.active = true ∧ x.complete = false ∧ x.posted = true ∧ x.dposted = true ∧ x.granted = true)
      ∧ (({ exchange with granted := false } : XchMember).dposted = true ∧ ({ exchange with granted := false } : XchMember).active = true
        ∧ (posting3 { exchange with granted := false }).allPass (mem (.dposta post) 8 (posting3 { exchange with granted := false })) = true)
      ∧ ((late.lc.xchIn 3).active = true ∧ (late.lc.xchIn 3).complete = false ∧ (late.lc.xchIn 3).posted = false)
      ∧ ((s.lc.xchIn 3).active = false ∧ (s.lc.xchIn 3).dposted = false
        ∧ (match State.areaBlocks s.who s.lc.xbase (List.range 6) s with
          | (u, .ok area) => (u.areaHead area).2.isSome
          | _ => false) = true) := by decide +kernel

/-- An Imposition of group 3 before its fix. -/
def imposed : Imposition := ⟨3, false, [(1, [5, 0])], 0, 100, none, false, [], 0, 0, 0, [], [], false, 0, 0⟩

/-- XTRIM that may and may not; XGO with nothing to arm, too small a buffer, before and after the grants; XWAIT; XSTAT;
what the engine has recorded; the death of a device, with and without a calendar that waits for it. -/
theorem meets_ExchangeMemberResults_run :
    let s := posting3 exchange
    let x := s.lc.xchIn 3
    let need := (x.sources.map fun y => 256 * ((y.exp + 255) / 256)).foldl (· + ·) 0
    let overRange : XchMember := { exchange with sources := [⟨0, 0, true, false, 0, []⟩, ⟨200, 256, true, true, 0, []⟩] }
    let waits : State := { s with imposers := [{ imposed with rows := [(0, [0, 5])] }] }
    let three : XchMember := { exchange with sources := exchange.sources ++ [⟨0, 256, false, false, 0, []⟩] }
    let tail : State := { posting3 three with dtime := 9000 }
    (s.pendingPort [1, 2] = none ∧ s.pendingPort [31, 4] = none ∧ s.pendingPort [31] = none ∧ s.notDrained = false)
      ∧ (x.grants[0]?.any (fun h => h.dst != 0xFFFF && decide (s.dtime < h.tstart) && decide ((s.lc.rd 2).toNat < h.sbytes)) = true
        ∧ ¬ ((s.lc.rd 3).toNat < 512) ∧ 0 ∉ x.started ∧ x.active = true)
      ∧ (((posting3 .start).lc.xchIn 3).active = false ∧ x.armed = false ∧ x.granted = true ∧ need ≤ x.rlen.toNat
        ∧ ({ exchange with rlen := 255 } : XchMember).rlen.toNat < need ∧ ({ exchange with granted := false } : XchMember).granted = false)
      ∧ (({ exchange with fail6 := true } : XchMember).fail6 = true
        ∧ ({ exchange with faults := [⟨.pageNp, 5⟩] } : XchMember).faults = ⟨.pageNp, 5⟩ :: [])
      ∧ (x.fail6 = false ∧ x.faults = [] ∧ group3.n ≤ (s.lc.rd 5).toNat ∧ s.lc.rd 4 = BitVec.allOnes 64 ∧ (s.lc.rd 6).toNat < group3.n
        ∧ (∃ y ∈ x.sources, y.complete = false) ∧ (∀ y ∈ overRange.sources, y.complete = true) ∧ (∃ y ∈ overRange.sources, y.dead = true ∧ y.arr < y.exp))
      ∧ ((1 ≠ s.dev ∧ 1 ∉ s.dead) ∧ s.group? 3 = some group3 ∧ x.sources[1]? = some ⟨0, 256, false, false, 0, []⟩ ∧ (group3.members.getD 1 (0, 0)).1 = 1)
      ∧ (three.active = true ∧ three.granted = true ∧ three.tend ≤ tail.dtime ∧ group3.rankOf tail.dev = some 0 ∧ (tail.thr 0).lc.xchIn 3 = three
        ∧ three.sources.findIdx? (!·.complete) = some 1
        ∧ (((after (exec (.memberDead 1) tail)).thr 0).lc.xchIn 3).sources.findIdx? (!·.complete) = some 2)
      ∧ (waits.imposers = [{ imposed with rows := [(0, [0, 5])] }] ∧ imposed.fixedAt = none ∧ imposed.place = 0
        ∧ ∀ r, r < group3.n → (group3.members.getD r (0, 0)).1 ∉ (waits.dead ++ [1]) → (FMap.get? [(0, [0, 5])] r).isSome = true)
      ∧ (126 : Int).natAbs > 125 := by decide +kernel

/-- This device is the primary, or, seen from device 1, the standby. -/
def imposing (x : List Imposition) (dev dtime : Nat) : State := { posting3 exchange with imposers := x, dev := dev, dtime := dtime }

/-- A row that goes back to another device and to this one's member, one that missed the fix, one to a first and to a known
Imposition, with the last one; a deadline before and after; the write of the grants; heartbeats and the takeover. -/
theorem meets_ExchangeEngineSteps_imposer :
    let m (rank : Nat) (add back : Bool) : DemandMsg := ⟨3, rank, add, [0, 6], 100, 0, back, []⟩
    let s := imposing [imposed] 0 100
    let done := imposing [{ imposed with fixedAt := some 1, gen := 1 }] 0 100
    let standby := imposing [{ imposed with missed := 3, place := 1 }] 1 100
    let began := imposing [{ imposed with rows := [(1, [5, 0])] }] 0 100
    let next : Imposition := { imposed with rows := [], gen := 1, firstGen := 1 }
    (s.group? 3 = some group3 ∧ 0 < group3.n ∧ s.imposer? 3 = some imposed ∧ s.imposerAt group3 0 = true)
      ∧ ((m 1 false true).back = true ∧ group3.rankOf s.dev ≠ some 1 ∧ group3.rankOf s.dev = some 0 ∧ s.memberSeat 3 group3 = some (.thread 0))
      ∧ (imposed.fixedAt = none ∧ (done.imposer? 3).any (fun x => x.fixedAt.isSome && !x.written) = true
        ∧ (m 1 false false).gen < next.firstGen ∧ next.fixedAt = none ∧ (m 1 true false).add = true ∧ FMap.get? next.rows 1 = none
        ∧ ¬ (m 1 false false).gen < imposed.firstGen ∧ (FMap.get? imposed.rows 1).isSome = true ∧ (done.imposer? 3).any (fun x => x.firstGen == 0) = true)
      ∧ ((imposing [] 0 100).imposer? 3 = none ∧ began.liveRanks group3 = [0, 1] ∧ (FMap.get? imposed.rows 0) = none
        ∧ ∀ r ∈ began.liveRanks group3, (FMap.get? (FMap.set [(1, [5, 0])] 0 [0, 6]) r).isSome = true)
      ∧ (imposed.rows ≠ [] ∧ imposed.cdl ≠ 0 ∧ imposed.firstAt + imposed.cdl ≤ s.dtime ∧ imposed.place = 0 ∧ ¬ (0 + 100 ≤ (imposing [imposed] 0 99).dtime))
      ∧ ((s.xchAt (.thread 0) 3).active = true ∧ (s.xchAt (.thread 0) 3).complete = false ∧ s.early = [] ∧ imposed.layout = []
        ∧ ({ imposed with layout := [(0, [0, 6])] } : Imposition).layout ≠ [])
      ∧ (let v := posting3 .start
        let w : State := { v with imposers := [imposed], dtime := 100 }
        w.memberSeat 3 group3 = some (.thread 0) ∧ (w.xchAt (.thread 0) 3).active = false
          ∧ (match State.areaBlocks ⟨some 0, (w.seated (.thread 0)).job.ctx, (w.seated (.thread 0)).level⟩ (w.seated (.thread 0)).xbase (List.range 6)
              (w.setImposer (w.fixNow group3 imposed)) with
            | (u, .ok area) => (u.areaHead area).2.isSome
            | _ => false) = true)
      ∧ (standby.imposer? 3 = some { imposed with missed := 3, place := 1 } ∧ ¬ (({ imposed with place := 1 } : Imposition).place = 0 ∨ imposed.lead = true)
        ∧ imposed.missed < 3) := by decide +kernel

/-- A member that has and has not its grants; one that joins; its sheet before, at and after its time, disarmed, with the clock off and a
ready flit or none, trimmed. -/
theorem meets_ExchangeEngineSteps_member :
    let s := imposing [] 0 0
    let due := imposing [] 0 9000
    let waiting := { posting3 { exchange with granted := false } with imposers := [] }
    let joined : XchMember := { exchange with joined := true, armed := true }
    let join : State := { posting3 joined with imposers := [], dtime := 9000 }
    let h : Grant := ⟨6000, 1, 1, 512, 0, 0⟩
    let m (gen : Nat) : ReadyMsg := ⟨3, 0, 1, some 0, gen⟩
    let later : XchMember := { exchange with gen := 1, readyNext := [m 2] }
    let joins : State := { posting3 { exchange with armed := true } with gov := { Governor.reset with grants := [⟨xgoLeave 3, 6000, none, 0, 0, 0⟩] } }
    (s.imposer? 3 = none ∧ s.memberSeat 3 group3 = some (.thread 0) ∧ group3.rankOf s.dev = some 0 ∧ (s.xchAt (.thread 0) 3).gid = 3
        ∧ (s.xchAt (.thread 0) 3).granted = true ∧ (s.xchAt (.thread 0) 3).gen = 0 ∧ s.early = [] ∧ s.xgens = [])
      ∧ ((waiting.xchAt (.thread 0) 3).active = true ∧ (waiting.xchAt (.thread 0) 3).complete = false ∧ (waiting.xchAt (.thread 0) 3).gen < 1 ∧ waiting.latent = [])
      ∧ ((m 0).src = 0 ∧ (m 2).src = 0 ∧ later.gen < (m 2).gen ∧ (m 0).gen < later.gen ∧ (m 1).gen = later.gen ∧ later.granted = true
        ∧ (∃ q ∈ later.readyNext, q.gen = 2))
      ∧ (s.exchanging 3 = some (.thread 0, 0) ∧ exchange.grants[0]? = some h ∧ s.dtime < h.tstart ∧ h.tstart ≤ due.dtime ∧ h.dst ≠ 0xFFFF
        ∧ 0 ∉ exchange.started ∧ exchange.disarmed = false ∧ exchange.joined = false ∧ due.dtOffset.natAbs ≤ 125 ∧ exchange.trims = []
        ∧ ({ joined with trims := [(0, 128)] } : XchMember).trims.find? (·.1 == 0) = some (0, 128)
        ∧ (126 : Int).natAbs > 125 ∧ (1, some 0) ∉ joined.ready ∧ ({ exchange with disarmed := true } : XchMember).disarmed = true)
      ∧ (joins.exchanging 3 = some (.thread 0, 0) ∧ (joins.joinExchange (.thread 0) 3).xchAt (.thread 0) 3 ≠ joins.xchAt (.thread 0) 3
        ∧ (join.joinExchange (.thread 0) 3).xchAt (.thread 0) 3 = joined)
      ∧ (join.exchanging 3 = some (.thread 0, 0) ∧ (State.readUpTo (xchWho (join.seated (.thread 0)) joined) (512 / 0x8000 + 2) join
          (exchange.sbuf + 0x80000) 512).2.2 = none) := by decide +kernel

/-- A loose tail, before XTEND, with none, with a transfer that is ready and one that is not; bytes that land, and
behind what the swap engine holds. -/
theorem meets_ExchangeEngineSteps_tail :
    let s := imposing [] 0 0
    let due := imposing [] 0 9000
    let tails : XchMember := { exchange with joined := true, armed := true, dests := [⟨0, 0, []⟩, ⟨512, 0, [⟨0, 512, false⟩]⟩], started := [0] }
    let held : State := { s with heldRemote := [.bytes ⟨3, 0, 1, 0, [1, 2, 3, 4], false, false⟩] }
    (exchange.granted = true ∧ exchange.tend ≤ due.dtime ∧ s.dtime < exchange.tend ∧ (∀ d ∈ exchange.dests, d.tail = [])
        ∧ tails.dests.findIdx? (fun d => !d.tail.isEmpty) = some 1 ∧ (tails.dests[1]?).map (·.tail) = some [⟨0, 512, false⟩]
        ∧ (1, none) ∉ tails.ready ∧ (1, none) ∈ ({ tails with ready := [(1, none)] } : XchMember).ready)
      ∧ (exchange.granted = true ∧ exchange.complete = false ∧ ({ exchange with granted := false } : XchMember).granted = false
        ∧ exchange.sources[1]? = some ⟨0, 256, false, false, 0, []⟩ ∧ s.heldFrom 3 1 = false ∧ held.heldFrom 3 1 = true
        ∧ (s.landBytes (xchWho (s.seated (.thread 0)) exchange) exchange.rbuf (4 / 0x8000 + 2) 0 [1, 2, 3, 4]).2.2 = none) := by decide +kernel

/-- A leave request, its charge in milliwatts and its priority; a grant of it. -/
def asking (kind : LeaveKind) (charge prio : Nat) (renewal : Bool) : LeaveReq :=
  ⟨⟨kind, 0, 0, 0⟩, charge, some 0, prio, 0, renewal, 0⟩

def granted (kind : LeaveKind) (charge prio : Nat) : LeaveHeld := ⟨⟨kind, 0, 0, 0⟩, charge, some 0, prio, 0, 0⟩

/-- A device whose governor knows these. -/
def governing (reqs : List LeaveReq) (grants : List LeaveHeld) (pm dtime : Nat) : State :=
  { one core0 with dtime := dtime, gov := { Governor.reset with reqs := reqs, grants := grants, pm := pm } }

/-- Nothing asked; a charge that fits at the bound, one above it, the same in the band; grants 20 µs old and younger. -/
theorem meets_PowerAndRepairSteps_leave :
    let r := asking .hvfact 2500 5 false
    let b := asking .hvfact 2500 112 false
    let s := governing [r] [] 2247500 0
    let late (k : LeaveKind) : State := governing [] [granted k 2500 5] 0 20000
    (governing [] [] 0 0).gov.reqs = []
      ∧ (s.gov.queue.find? (fun q => !s.gov.defers q) = some r ∧ s.gov.pm + 0 + r.charge ≤ 2250000)
      ∧ 2250000 < (governing [r] [] 2247501 0).gov.pm + 0 + r.charge
      ∧ ((governing [b] [] 2397500 0).gov.queue.find? (fun q => !(governing [b] [] 2397500 0).gov.defers q) = some b ∧ 112 ≤ b.prio
        ∧ (governing [b] [] 2397500 0).gov.pm + 0 + b.charge ≤ 2400000)
      ∧ ((late .strm).gov.grants[0]? = some (granted .strm 2500 5) ∧ 0 + 20000 ≤ (late .strm).dtime ∧ (late .strm).gov.reqs = [])
      ∧ (governing [] [granted .strm 2500 5] 0 19999).dtime < 0 + 20000
      ∧ (granted .strm 2500 5).ref.kind ≠ .xgo ∧ (granted .xgo 2500 5).ref.kind = .xgo
      ∧ (governing [] [granted .xgo 2500 5] 0 20000).group? 0 = none := by decide +kernel

/-- A request in the band over two streams below it: with the first of them withdrawn it fits, at the bound. -/
theorem meets_PowerAndRepairSteps_band :
    let b := asking .hvfact 2500 112 false
    let low (n : Nat) : LeaveHeld := ⟨⟨.strm, n, 0, n⟩, 2000, some 0, 4 + n, 0, 0⟩
    let l := [low 1, low 2]
    let s := governing [b] [low 2, low 1] 2395500 0
    (s.gov.queue.find? (fun q => !s.gov.defers q) = some b ∧ 112 ≤ b.prio)
      ∧ l.isPerm (s.gov.grants.filter fun h => decide (h.prio < 112) && h.ref.kind != .xgo) = true
      ∧ l.Pairwise (fun a b => a.prio < b.prio ∨ (a.prio = b.prio ∧ b.order < a.order)) ∧ (s.gov.grants.map (·.ref)).Nodup
      ∧ (∀ h ∈ s.gov.grants, h.ref.kind ≠ .matt) ∧ (∀ h ∈ l, h.ref ≠ b.ref)
      ∧ 2400000 < s.gov.pm + (2000 + 2000) + b.charge ∧ s.gov.pm + 2000 + b.charge ≤ 2400000 := by decide +kernel

/-- A renewal that has waited 2 µs, for a hypervector run, for a port and for an attachment. -/
theorem meets_PowerAndRepairSteps_renewal :
    let s (k : LeaveKind) (t : Nat) : State := governing [asking k 2500 5 true] [granted k 2500 5] 0 t
    (s .strm 2000).gov.reqs[0]? = some (asking .strm 2500 5 true)
      ∧ (s .strm 2000).gov.grants.find? (·.ref == (asking .strm 2500 5 true).ref) = some (granted .strm 2500 5)
      ∧ (asking .strm 2500 5 true).renewal = true ∧ (s .strm 1999).dtime < 0 + 2000 ∧ 0 + 2000 ≤ (s .hvfact 2000).dtime
      ∧ (s .hvfact 2000).gov.grants.find? (·.ref == (asking .hvfact 2500 5 true).ref) = some (granted .hvfact 2500 5)
      ∧ (asking .matt 2500 5 true).ref = mattLeave 0 := by decide +kernel

/-- Imbalances at 2%, 4%, 5.5% and above 6%, each deck heavier; a holder whose leave then goes. -/
theorem meets_PowerAndRepairSteps_decks :
    let gap (a b : Nat) : Nat := max a b - min a b
    let h := granted .strm 2500 5
    (1000 * gap 102 98 ≤ 40 * (102 + 98) ∧ 20 * (102 + 98) ≤ 1000 * gap 102 98)
      ∧ 1000 * gap 101 99 < 20 * (101 + 99)
      ∧ (40 * (105 + 95) < 1000 * gap 105 95 ∧ 1000 * gap 105 95 ≤ 55 * (105 + 95))
      ∧ (40 * (95 + 105) < 1000 * gap 95 105 ∧ 1000 * gap 95 105 ≤ 55 * (95 + 105))
      ∧ (55 * (1057 + 943) < 1000 * gap 1057 943 ∧ 1000 * gap 1057 943 ≤ 60 * (1057 + 943) ∧ 943 ≤ 1057
        ∧ (governing [] [h] 0 0).gov.grants = [h] ∧ h.prio < 112 ∧ h.ref.kind ≠ .xgo ∧ h.ref.kind ≠ .matt ∧ h.deck = some 0)
      ∧ (60 * (107 + 93) < 1000 * gap 107 93 ∧ (one core0).gov.deckAt ≤ (one core0).dtime ∧ (one core0).host.mcrec0.getLsbD 63 = false) := by
  decide +kernel

/-- The words of the last byte of GLOBAL and of the first and the last of the vaults, with an error that can be corrected and one that cannot. -/
theorem meets_PowerAndRepairSteps_scrubs :
    let s (a : Nat) (b : Option Nat) : State := { one core0 with latent := [⟨wordOf a, b⟩] }
    (one core0).remapErrors = [] ∧ (one core0).host.secnt.length = 10 ∧ (0x5FFFFFFFFF : Nat) < 0x6000000000
      ∧ (vaultKey 0 0 ≤ vaultKey 0 0 ∧ vaultKey 191 0x3FFFFF < vaultKey 192 0)
      ∧ (s 0x5FFFFFFFFF (some 3)).latent.find? (·.word == wordOf 0x5FFFFFFFFF) = some ⟨wordOf 0x5FFFFFFFFF, some 3⟩
      ∧ (s (vaultKey 191 0x3FFFFF) none).latent.find? (·.word == wordOf (vaultKey 191 0x3FFFFF)) = some ⟨wordOf (vaultKey 191 0x3FFFFF), none⟩ := by
  decide +kernel

/-- Stack 7, channel 31, lane 65, with all spares and with none; a bond lane that is due, with spares and with none. -/
theorem meets_PowerAndRepairSteps_lanes :
    let worn : State := { one core0 with tsvSpares := [(32 * 7 + 31, 0)], bondSpares := [(16 * 191 + 15, 0)], bondCounts := [⟨191, 15, 2, [3, 2, 1]⟩] }
    let due : State := { worn with bondSpares := [] }
    (one core0).tsvLeft 7 31 = 4 ∧ worn.tsvLeft 7 31 = 0 ∧ inGlobal 0x5FFFFFFFFF = true ∧ (one core0).bondCounts = []
      ∧ (∃ x ∈ worn.bondCounts, x.core = 191 ∧ x.bank = 15 ∧ x.lane = 2 ∧ x.due = true) ∧ 16 * 191 + 15 ∉ worn.lateralBanks
      ∧ (FMap.get? worn.bondSpares (16 * 191 + 15)).getD 2 = 0 ∧ (FMap.get? due.bondSpares (16 * 191 + 15)).getD 2 = 2 := by decide +kernel

/-- A walk is due for a range and for a channel; the device is READY and is not. -/
theorem meets_PowerAndRepairSteps_walks :
    let s : State := { one core0 with remapWalks := [.range true 191 0 15 3, .channel 7 31] }
    s.remapWalks.find? (fun q => q == .range true 191 0 15 3 || (!true && q == .channel 191 0)) = some (.range true 191 0 15 3)
      ∧ (paged core0).host.bootState = 3 ∧ (one core0).host.bootState ≠ 3 := by decide +kernel

/-- Accesses of the configuration space: of 4 bytes, unaligned, before READY, of the first and last of ATTBUF, of the last
SSCRI, of the masks. -/
theorem meets_HostInterfaceSteps_config :
    ((4 : Nat) ≠ 8 ∧ 0x2C % 8 ≠ 0 ∧ 0x28 % 8 = 0 ∧ (one core0).host.bootState ≠ 3 ∧ 0x28 ≠ 0x10 ∧ ¬ (0x1000 ≤ 0x28 ∧ 0x28 < 0x2000))
      ∧ (0x1000 % 8 = 0 ∧ 0x1FF8 % 8 = 0 ∧ 0x1FF8 < 0x2000 ∧ (paged core0).host.linked = true ∧ Memory.wf (paged core0).host.attbuf = true)
      ∧ ((paged core0).host.bootState = 3 ∧ (0x2000 + 8 * 767) % 8 = 0 ∧ 767 < 768 ∧ 0x58 % 8 = 0) := by decide +kernel

/-- Bytes from a GLOBAL address of the booted device, whose context 0 is valid. -/
def loading (l : List (Nat × Nat × Nat)) (j : LoadJob) : State :=
  let s := holding (paged core0) l
  { s with host := { s.host with loading := some j }, kernels := [] }

/-- The 64 bytes of a descriptor with these words, and its one variant, at VA 0x80100. -/
def described (magic key flags : Nat) : List (Nat × Nat × Nat) :=
  [(0x40100, 4, magic), (0x40104, 2, 1), (0x4011D, 1, 1), (0x40140, 4, key), (0x40144, 4, flags), (0x40148, 4, 0x400)]

/-- What the loader finds of a job: a bad descriptor, a bad variant, the code of the variant chosen. -/
def State.loads (s : State) (j : LoadJob) : List Nat :=
  match s.loaderRead j.ctx j.dsc 64 with
  | (u, some b) => (descBad b).toNat :: match u.loaderRead j.ctx (j.dsc + 64) (16 * fieldOf b 0x1D 1) with
      | (w, some v) =>
        let vs := entriesOf v 16 (fieldOf b 0x1D 1)
        (vs.any variantBad).toNat :: (chooseVariant (w.host.dmsig.toNat % 2 ^ 32) vs).toList
      | (_, none) => []
  | (_, none) => []

/-- An unmapped context, an index that is loaded, a bad descriptor, a bad variant, none that fits, and a sound one; an
unload while a load goes on, of an invalid context, of an index in use and of a free one. -/
theorem meets_HostInterfaceSteps_kernels :
    let j : LoadJob := ⟨7, 0, 0x80100, 0x80000, 0⟩
    let s := loading (described 0x4B444641 0 1) j
    let used : State := { paged core0 with launches := [{ launch1 with kidx := 7 }] }
    let valid (s : State) (ctx : Nat) : Option Bool := match s.descriptor ctx with
      | (_, some d) => some (d.1.getLsbD 0)
      | _ => none
    (paged core0).host.bootState = 3 ∧ (paged core0).host.loading = none ∧ s.host.loading.isSome = true ∧ s.host.loading = some j
      ∧ valid s 9 = some false ∧ valid s 0 = some true ∧ valid { s with poison := [wordOf (s.descKey 0)] } 0 = none
      ∧ (s.croot 9).getLsbD 0 = false ∧ (s.croot 0).getLsbD 0 = true ∧ s.kernels.isEmpty = true ∧ s.kidxUsed 7 = false ∧ used.kidxUsed 7 = true
      ∧ used.host.loading = none ∧ used.poison = [] ∧ used.latent = [] ∧ (used.croot 0).getLsbD 0 = true
      ∧ ([⟨7, 0, 0, 0, 32, 0, 0, 0, 0, [], 0, 0⟩] : List Kernel).any (·.kidx == j.kidx) = true := by decide +kernel

theorem meets_HostInterfaceSteps_descriptors :
    let j : LoadJob := ⟨7, 0, 0x80100, 0x80000, 0⟩
    (loading (described 0 0 1) j).loads j = [1, 0, 0x400] ∧ (loading (described 0x4B444641 0 2) j).loads j = [0, 1]
      ∧ (loading (described 0x4B444641 9 0) j).loads j = [0, 0]
      ∧ (loading (described 0x4B444641 0 1) j).loads j = [0, 0, 0x400] := by decide +kernel

/-- Attestation before READY, in STATE 1 and at READY; through the mailbox and into GLOBAL memory, at its end and past it. -/
theorem meets_HostInterfaceSteps_reports :
    let asks (b : BitVec 4) (m : Bool) (a : Word) : State := { one core0 with host := { HostRegs.reset with bootState := b, attJob := some (m, a) } }
    (paged core0).host.bootState = 3 ∧ (paged core0).host.attJob = none ∧ (one core0).host.bootState = 0 ∧ (asks 1 true 0).host.bootState = 1
      ∧ ((asks 2 true 0).host.bootState ≠ 0 ∧ (asks 2 true 0).host.bootState ≠ 8 ∧ (0x2000000000000000 : Word).getLsbD 61 = true)
      ∧ (asks 3 true 0).host.bootState ≠ 1 ∧ (asks 3 true 0).host.attJob = some (true, 0)
      ∧ (inGlobal ((0x5FFFFFF000 : Word).toNat + 4095) = true ∧ ((asks 3 false 0x5FFFFFF000).read (keysFrom ((0x5FFFFFF000 : Word).toNat + 0x10) 64)).2.isSome = true)
      ∧ inGlobal ((0x5FFFFFF040 : Word).toNat + 4095) = false := by decide +kernel

/-- The last 8 bytes of GLOBAL, sound and poisoned; no swap under way; the steps of the boot, with a package that is
genuine and whose stacks train, one that is not genuine, and one whose stacks fail. -/
theorem meets_HostInterfaceSteps_reset :
    let p := PackageFacts.plain
    let boots (linked : Bool) (st : BitVec 4) : State :=
      { one core0 with agenda := [.boot], host := { HostRegs.reset with linked := linked, bootState := st } }
    let sick : State := { paged core0 with poison := [wordOf 0x5FFFFFFFF8] }
    (paged core0).host.bootState = 3 ∧ inGlobal (0x5FFFFFFFF8 + (8 - 1)) = true
      ∧ (∀ k ∈ keysFrom 0x5FFFFFFFF8 8, k < (paged core0).host.gtbase.toNat ∨ (paged core0).host.gtbase.toNat + 2 ^ 24 ≤ k) ∧ State.reset.swaps = [] ∧ sick.poisoned 0x5FFFFFFFF8 = true
      ∧ (p.keyOk = true ∧ p.sigOk = true ∧ p.hbm = 0xFF)
      ∧ ((boots false 0).agenda = .boot :: [] ∧ (boots false 0).host.linked = false)
      ∧ (∀ n ∈ ([0, 1, 2, 3] : List (BitVec 4)), (boots true n).agenda = .boot :: [] ∧ (boots true n).host.linked = true ∧ (boots true n).host.bootState = n)
      ∧ ((boots true 0).pkg.hbm = 0xFF ∧ (3 : BitVec 4).toNat ∉ [0, 1, 2])
      ∧ ({ p with sigOk := false } : PackageFacts).sigOk = false ∧ ({ p with hbm := 0x7F } : PackageFacts).hbm ≠ 0xFF := by decide +kernel

end Sys2Proof.Machine
end

/-! # Instruction words (R42 to R79): the decoder and the encoder are inverse to each other

Each format has one lemma for what its fields read in a packed word and one for a word packed from its own fields;
each table of function codes then has one lemma in either direction. -/

namespace Sys2Proof
open IWord

/-! ## One bit as a Bool -/

@[simp] theorem bit_unbit (b : Bool) : bit (unbit b) = b := by cases b <;> rfl

@[simp] theorem unbit_bit (b : BitVec 1) : unbit (bit b) = b := by
  rcases BitVec.eq_zero_or_eq_one b with rfl | rfl <;> rfl

/-! ## The fields that a packed word holds (R43) -/

section
variable (x : BitVec 10) (b a d : Reg) (n : BitVec 7)

@[simp] theorem fn10_packS : (packS x b a d n).fn10 = x := by
  unfold packS IWord.fn10
  repeat rw [BitVec.extractLsb'_append_eq_of_le (by decide)]
  exact BitVec.extractLsb'_eq_self

@[simp] theorem b_packS : (packS x b a d n).b = b := by
  unfold packS IWord.b
  repeat rw [BitVec.extractLsb'_append_eq_of_le (by decide)]
  exact BitVec.extractLsb'_append_eq_right

@[simp] theorem a_packS : (packS x b a d n).a = a := by
  unfold packS IWord.a
  repeat rw [BitVec.extractLsb'_append_eq_of_le (by decide)]
  exact BitVec.extractLsb'_append_eq_right

@[simp] theorem d_packS : (packS x b a d n).d = d := by
  unfold packS IWord.d
  repeat rw [BitVec.extractLsb'_append_eq_of_le (by decide)]
  exact BitVec.extractLsb'_append_eq_right

end

section
variable (x : BitVec 15) (a d : Reg) (n : BitVec 7)

@[simp] theorem imm15_packI : (packI x a d n).imm15 = x := by
  unfold packI IWord.imm15
  repeat rw [BitVec.extractLsb'_append_eq_of_le (by decide)]
  exact BitVec.extractLsb'_eq_self

@[simp] theorem a_packI : (packI x a d n).a = a := by
  unfold packI IWord.a
  repeat rw [BitVec.extractLsb'_append_eq_of_le (by decide)]
  exact BitVec.extractLsb'_append_eq_right

@[simp] theorem d_packI : (packI x a d n).d = d := by
  unfold packI IWord.d
  repeat rw [BitVec.extractLsb'_append_eq_of_le (by decide)]
  exact BitVec.extractLsb'_append_eq_right

end

section
variable (x : BitVec 20) (d : Reg) (n : BitVec 7)

@[simp] theorem imm20_packU : (packU x d n).imm20 = x := by
  unfold packU IWord.imm20
  repeat rw [BitVec.extractLsb'_append_eq_of_le (by decide)]
  exact BitVec.extractLsb'_eq_self

@[simp] theorem d_packU : (packU x d n).d = d := by
  unfold packU IWord.d
  repeat rw [BitVec.extractLsb'_append_eq_of_le (by decide)]
  exact BitVec.extractLsb'_append_eq_right

end

section
variable (x : BitVec 12) (y : BitVec 3) (a d : Reg) (n : BitVec 7)

@[simp] theorem csr12_packC : (packC x y a d n).csr12 = x := by
  unfold packC IWord.csr12
  repeat rw [BitVec.extractLsb'_append_eq_of_le (by decide)]
  exact BitVec.extractLsb'_eq_self

@[simp] theorem fn3_packC : (packC x y a d n).fn3 = y := by
  unfold packC IWord.fn3
  repeat rw [BitVec.extractLsb'_append_eq_of_le (by decide)]
  exact BitVec.extractLsb'_append_eq_right

@[simp] theorem a_packC : (packC x y a d n).a = a := by
  unfold packC IWord.a
  repeat rw [BitVec.extractLsb'_append_eq_of_le (by decide)]
  exact BitVec.extractLsb'_append_eq_right

@[simp] theorem d_packC : (packC x y a d n).d = d := by
  unfold packC IWord.d
  repeat rw [BitVec.extractLsb'_append_eq_of_le (by decide)]
  exact BitVec.extractLsb'_append_eq_right

end

section
variable (x : BitVec 6) (p : BitVec 4) (q : BitVec 2) (m cv c2 c1 : BitVec 1) (s2 s1 d : Reg) (n : BitVec 7)

@[simp] theorem fn6_packV : (packV x m cv c2 c1 s2 s1 d n).fn6 = x := by
  unfold packV IWord.fn6
  repeat rw [BitVec.extractLsb'_append_eq_of_le (by decide)]
  exact BitVec.extractLsb'_eq_self

@[simp] theorem m_packV : (packV x m cv c2 c1 s2 s1 d n).m = m := by
  unfold packV IWord.m
  repeat rw [BitVec.extractLsb'_append_eq_of_le (by decide)]
  exact BitVec.extractLsb'_append_eq_right

@[simp] theorem cv_packV : (packV x m cv c2 c1 s2 s1 d n).cv = cv := by
  unfold packV IWord.cv
  repeat rw [BitVec.extractLsb'_append_eq_of_le (by decide)]
  exact BitVec.extractLsb'_append_eq_right

@[simp] theorem b23_packV : (packV x m cv c2 c1 s2 s1 d n).b23 = c2 := by
  unfold packV IWord.b23
  repeat rw [BitVec.extractLsb'_append_eq_of_le (by decide)]
  exact BitVec.extractLsb'_append_eq_right

@[simp] theorem b22_packV : (packV x m cv c2 c1 s2 s1 d n).b22 = c1 := by
  unfold packV IWord.b22
  repeat rw [BitVec.extractLsb'_append_eq_of_le (by decide)]
  exact BitVec.extractLsb'_append_eq_right

@[simp] theorem b_packV : (packV x m cv c2 c1 s2 s1 d n).b = s2 := by
  unfold packV IWord.b
  repeat rw [BitVec.extractLsb'_append_eq_of_le (by decide)]
  exact BitVec.extractLsb'_append_eq_right

@[simp] theorem a_packV : (packV x m cv c2 c1 s2 s1 d n).a = s1 := by
  unfold packV IWord.a
  repeat rw [BitVec.extractLsb'_append_eq_of_le (by decide)]
  exact BitVec.extractLsb'_append_eq_right

@[simp] theorem d_packV : (packV x m cv c2 c1 s2 s1 d n).d = d := by
  unfold packV IWord.d
  repeat rw [BitVec.extractLsb'_append_eq_of_le (by decide)]
  exact BitVec.extractLsb'_append_eq_right

@[simp] theorem vfmt_packV : (packV (p ++ q) m cv c2 c1 s2 s1 d n).vfmt = p := by
  unfold packV IWord.vfmt
  repeat rw [BitVec.extractLsb'_append_eq_of_le (by decide)]
  exact BitVec.extractLsb'_eq_self

@[simp] theorem mop_packV : (packV (p ++ q) m cv c2 c1 s2 s1 d n).mop = q := by
  unfold packV IWord.mop
  repeat rw [BitVec.extractLsb'_append_eq_of_le (by decide)]
  exact BitVec.extractLsb'_append_eq_right

@[simp] theorem top_packV : (packV (q ++ p) m cv c2 c1 s2 s1 d n).top = q := by
  unfold packV IWord.top
  repeat rw [BitVec.extractLsb'_append_eq_of_le (by decide)]
  exact BitVec.extractLsb'_eq_self

@[simp] theorem tfmt_packV : (packV (q ++ p) m cv c2 c1 s2 s1 d n).tfmt = p := by
  unfold packV IWord.tfmt
  repeat rw [BitVec.extractLsb'_append_eq_of_le (by decide)]
  exact BitVec.extractLsb'_append_eq_right

end

/-! ## A word packed from its own fields -/

theorem packS_fields (w : IWord) : packS w.fn10 w.b w.a w.d w.major = w := by
  unfold packS IWord.fn10 IWord.b IWord.a IWord.d IWord.major
  repeat rw [BitVec.extractLsb'_append_extractLsb'_eq_extractLsb' (by rfl)]
  exact BitVec.extractLsb'_eq_self

theorem packI_fields (w : IWord) : packI w.imm15 w.a w.d w.major = w := by
  unfold packI IWord.imm15 IWord.a IWord.d IWord.major
  repeat rw [BitVec.extractLsb'_append_extractLsb'_eq_extractLsb' (by rfl)]
  exact BitVec.extractLsb'_eq_self

theorem packU_fields (w : IWord) : packU w.imm20 w.d w.major = w := by
  unfold packU IWord.imm20 IWord.d IWord.major
  repeat rw [BitVec.extractLsb'_append_extractLsb'_eq_extractLsb' (by rfl)]
  exact BitVec.extractLsb'_eq_self

theorem packC_fields (w : IWord) : packC w.csr12 w.fn3 w.a w.d w.major = w := by
  unfold packC IWord.csr12 IWord.fn3 IWord.a IWord.d IWord.major
  repeat rw [BitVec.extractLsb'_append_extractLsb'_eq_extractLsb' (by rfl)]
  exact BitVec.extractLsb'_eq_self

theorem packV_fields (w : IWord) : packV w.fn6 w.m w.cv w.b23 w.b22 w.b w.a w.d w.major = w := by
  unfold packV IWord.fn6 IWord.m IWord.cv IWord.b23 IWord.b22 IWord.b IWord.a IWord.d IWord.major
  repeat rw [BitVec.extractLsb'_append_extractLsb'_eq_extractLsb' (by rfl)]
  exact BitVec.extractLsb'_eq_self

theorem vfmt_append_mop (w : IWord) : w.vfmt ++ w.mop = w.fn6 :=
  BitVec.extractLsb'_append_extractLsb'_eq_extractLsb' rfl

theorem top_append_tfmt (w : IWord) : w.top ++ w.tfmt = w.fn6 :=
  BitVec.extractLsb'_append_extractLsb'_eq_extractLsb' rfl

/-! ## The split fields of FP, ATOM, SHI and CSET (R57 to R59, R75) -/

/-- The middle one of three fields. -/
theorem extractLsb'_middle {u v w : Nat} (x : BitVec u) (y : BitVec v) (z : BitVec w) : (x ++ y ++ z).extractLsb' w v = y := by
  rw [BitVec.extractLsb'_append_eq_of_le (Nat.le_refl w), Nat.sub_self, BitVec.extractLsb'_append_eq_right]

/-- The upper two of three fields. -/
theorem extractLsb'_upper {u v w : Nat} (x : BitVec u) (y : BitVec v) (z : BitVec w) : (x ++ y ++ z).extractLsb' w (u + v) = x ++ y :=
  BitVec.extractLsb'_append_eq_left

theorem append_fields {u v w : Nat} (x : BitVec (u + v + w)) :
    x.extractLsb' (v + w) u ++ x.extractLsb' w v ++ x.extractLsb' 0 w = x := by
  rw [BitVec.extractLsb'_append_extractLsb'_eq_extractLsb' (Nat.add_comm v w), BitVec.extractLsb'_append_extractLsb'_eq_extractLsb' (Nat.zero_add w).symm]
  exact BitVec.extractLsb'_eq_self

/-! ## Each format: its fields from the word packed from them -/

section
variable (n : BitVec 7)

@[simp] theorem SF.of_packS (f : SF) (x : BitVec 10) : SF.of (packS x f.b f.a f.d n) = f := by simp [SF.of]
@[simp] theorem IF.of_packI (f : IF) : IF.of (packI f.imm f.a f.d n) = f := by simp [IF.of]
@[simp] theorem BF.of_packI (f : BF) : BF.of (packI f.off f.a f.b n) = f := by simp [BF.of]
@[simp] theorem UF.of_packU (f : UF) : UF.of (packU f.imm f.d n) = f := by simp [UF.of]
@[simp] theorem CF.of_packC (f : CF) (y : BitVec 3) : CF.of (packC f.csr y f.a f.d n) = f := by simp [CF.of]
@[simp] theorem VF.of_pack (f : VF) (x : BitVec 6) : VF.of (f.pack x n) = f := by simp [VF.of, VF.pack]
@[simp] theorem VMF.of_pack (f : VMF) (q : BitVec 2) : VMF.of (f.pack q n) = f := by simp [VMF.of, VMF.pack]
@[simp] theorem TF.of_pack (f : TF) (q : BitVec 2) : TF.of (f.pack q n) = f := by simp [TF.of, TF.pack]

@[simp] theorem fn6_pack (f : VF) (x : BitVec 6) : (f.pack x n).fn6 = x := by simp [VF.pack]
@[simp] theorem mop_pack (f : VMF) (q : BitVec 2) : (f.pack q n).mop = q := by simp [VMF.pack]
@[simp] theorem top_pack (f : TF) (q : BitVec 2) : (f.pack q n).top = q := by simp [TF.pack]

@[simp] theorem FF.of_packS (f : FF) (k : BitVec 9) : FF.of (packS (k ++ unbit f.wide) f.b f.a f.d n) = f := by
  have h : (k ++ unbit f.wide : BitVec 10).extractLsb' 0 1 = unbit f.wide := BitVec.extractLsb'_append_eq_right
  simp [FF.of, h]

@[simp] theorem FCF.of_packS (f : FCF) (k : BitVec 7) : FCF.of (packS (k ++ f.n ++ unbit f.wide) f.b f.a f.d n) = f := by
  have hn : (k ++ f.n ++ unbit f.wide : BitVec 10).extractLsb' 1 2 = f.n := extractLsb'_middle ..
  have hw : (k ++ f.n ++ unbit f.wide : BitVec 10).extractLsb' 0 1 = unbit f.wide := BitVec.extractLsb'_append_eq_right
  simp [FCF.of, hn, hw]

@[simp] theorem AF.of_packS (f : AF) (k : BitVec 4) : AF.of (packS (k ++ 0#2 ++ f.succ ++ f.fail) f.b f.a f.d n) = f := by
  have hs : (k ++ 0#2 ++ f.succ ++ f.fail : BitVec 10).extractLsb' 2 2 = f.succ := extractLsb'_middle ..
  have hf : (k ++ 0#2 ++ f.succ ++ f.fail : BitVec 10).extractLsb' 0 2 = f.fail := BitVec.extractLsb'_append_eq_right
  simp [AF.of, hs, hf]

@[simp] theorem KF.of_packS (f : KF) : KF.of (packS (0#7 ++ f.cop) f.b f.a f.d n) = f := by
  have h : (0#7 ++ f.cop : BitVec 10).extractLsb' 0 3 = f.cop := BitVec.extractLsb'_append_eq_right
  simp [KF.of, h]

@[simp] theorem HF.of_packI (f : HF) (k : BitVec 2) : HF.of (packI (k ++ 0#7 ++ f.shamt) f.a f.d n) = f := by
  have h : (k ++ 0#7 ++ f.shamt : BitVec 15).extractLsb' 0 6 = f.shamt := BitVec.extractLsb'_append_eq_right
  simp [HF.of, h]

end

/-! ## Each format: the word packed from its own fields -/

section
variable {w : IWord} {k n : Nat}

/-- A field whose number is known is that number. -/
theorem ofNat_of_toNat {m : Nat} {x : BitVec m} (h : x.toNat = k) : BitVec.ofNat m k = x := by
  rw [← h, BitVec.ofNat_toNat, BitVec.setWidth_eq]

theorem SF.packS_of (hk : w.fn10.toNat = k) (hn : w.major.toNat = n) :
    packS (BitVec.ofNat 10 k) (SF.of w).b (SF.of w).a (SF.of w).d (BitVec.ofNat 7 n) = w := by
  rw [ofNat_of_toNat hk, ofNat_of_toNat hn]
  exact packS_fields w

theorem IF.packI_of (hn : w.major.toNat = n) : packI (IF.of w).imm (IF.of w).a (IF.of w).d (BitVec.ofNat 7 n) = w := by
  rw [ofNat_of_toNat hn]
  exact packI_fields w

theorem BF.packI_of (hn : w.major.toNat = n) : packI (BF.of w).off (BF.of w).a (BF.of w).b (BitVec.ofNat 7 n) = w :=
  IF.packI_of hn

theorem UF.packU_of (hn : w.major.toNat = n) : packU (UF.of w).imm (UF.of w).d (BitVec.ofNat 7 n) = w := by
  rw [ofNat_of_toNat hn]
  exact packU_fields w

theorem CF.packC_of (hk : w.fn3.toNat = k) (hn : w.major.toNat = n) :
    packC (CF.of w).csr (BitVec.ofNat 3 k) (CF.of w).a (CF.of w).d (BitVec.ofNat 7 n) = w := by
  rw [ofNat_of_toNat hk, ofNat_of_toNat hn]
  exact packC_fields w

theorem VF.pack_of (hk : w.fn6.toNat = k) (hn : w.major.toNat = n) : (VF.of w).pack (BitVec.ofNat 6 k) (BitVec.ofNat 7 n) = w := by
  rw [ofNat_of_toNat hk, ofNat_of_toNat hn]
  simp only [VF.pack, VF.of, unbit_bit]
  exact packV_fields w

theorem VMF.pack_of (hk : w.mop.toNat = k) (hn : w.major.toNat = n) : (VMF.of w).pack (BitVec.ofNat 2 k) (BitVec.ofNat 7 n) = w := by
  rw [ofNat_of_toNat hk, ofNat_of_toNat hn]
  simp only [VMF.pack, VMF.of, unbit_bit]
  rw [vfmt_append_mop]
  exact packV_fields w

theorem TF.pack_of (hk : w.top.toNat = k) (hn : w.major.toNat = n) : (TF.of w).pack (BitVec.ofNat 2 k) (BitVec.ofNat 7 n) = w := by
  rw [ofNat_of_toNat hk, ofNat_of_toNat hn]
  simp only [TF.pack, TF.of, unbit_bit]
  rw [top_append_tfmt]
  exact packV_fields w

theorem packS_whole (w : IWord) : packS (w.fn10.extractLsb' 0 10) w.b w.a w.d w.major = w := by
  rw [BitVec.extractLsb'_eq_self]
  exact packS_fields w

theorem FF.packS_of (hk : (w.fn10.extractLsb' 1 9).toNat = k) (hn : w.major.toNat = n) :
    packS (BitVec.ofNat 9 k ++ unbit (FF.of w).wide) (FF.of w).b (FF.of w).a (FF.of w).d (BitVec.ofNat 7 n) = w := by
  rw [ofNat_of_toNat hk, ofNat_of_toNat hn]
  simp only [FF.of, unbit_bit]
  rw [BitVec.extractLsb'_append_extractLsb'_eq_extractLsb' (by rfl)]
  exact packS_whole w

/-- FCMP's three function codes are 8 + n (R58). -/
theorem FCF.packS_of (hk : (w.fn10.extractLsb' 3 7).toNat = k) (hn : w.major.toNat = n) :
    packS (BitVec.ofNat 7 k ++ (FCF.of w).n ++ unbit (FCF.of w).wide) (FCF.of w).b (FCF.of w).a (FCF.of w).d (BitVec.ofNat 7 n) = w := by
  rw [ofNat_of_toNat hk, ofNat_of_toNat hn]
  simp only [FCF.of, unbit_bit]
  rw [append_fields (u := 7) (v := 2) (w := 1) w.fn10]
  exact packS_fields w

theorem AF.packS_of (hz : w.fn10.extractLsb' 4 2 = 0#2) (hk : (w.fn10.extractLsb' 6 4).toNat = k) (hn : w.major.toNat = n) :
    packS (BitVec.ofNat 4 k ++ 0#2 ++ (AF.of w).succ ++ (AF.of w).fail) (AF.of w).b (AF.of w).a (AF.of w).d (BitVec.ofNat 7 n) = w := by
  rw [ofNat_of_toNat hk, ofNat_of_toNat hn, ← hz]
  simp only [AF.of]
  repeat rw [BitVec.extractLsb'_append_extractLsb'_eq_extractLsb' (by rfl)]
  exact packS_whole w

theorem KF.packS_of (hz : w.fn10.extractLsb' 3 7 = 0#7) (hn : w.major.toNat = n) :
    packS (0#7 ++ (KF.of w).cop) (KF.of w).b (KF.of w).a (KF.of w).d (BitVec.ofNat 7 n) = w := by
  rw [ofNat_of_toNat hn, ← hz]
  simp only [KF.of]
  rw [BitVec.extractLsb'_append_extractLsb'_eq_extractLsb' (by rfl)]
  exact packS_whole w

theorem HF.packI_of (hz : w.imm15.extractLsb' 6 7 = 0#7) (hk : (w.imm15.extractLsb' 13 2).toNat = k) (hn : w.major.toNat = n) :
    packI (BitVec.ofNat 2 k ++ 0#7 ++ (HF.of w).shamt) (HF.of w).a (HF.of w).d (BitVec.ofNat 7 n) = w := by
  rw [ofNat_of_toNat hk, ofNat_of_toNat hn, ← hz]
  simp only [HF.of]
  rw [append_fields (u := 2) (v := 7) (w := 6) w.imm15]
  exact packI_fields w

end

/-! ## The tables of function codes (R56 to R77): what a table gives for a word is an instruction with that word -/

/-- An instruction with a word, and its word. -/
def Instr.Has (i : Instr) (w : IWord) : Prop := encode i = w ∧ i.isEvent = false

section
variable {w : IWord} {i : Instr}

theorem decodeOp_has (hn : w.major.toNat = 0x01) (h : decodeOp w = some i) : i.Has w := by
  unfold decodeOp at h
  split at h <;> cases h
  all_goals exact ⟨SF.packS_of ‹_› hn, rfl⟩

theorem decodeShi_has (hn : w.major.toNat = 0x07) (h : decodeShi w = some i) : i.Has w := by
  unfold decodeShi at h
  split at h
  · cases h
  · rename_i hz
    split at h <;> cases h
    all_goals exact ⟨HF.packI_of (by simpa using hz) ‹_› hn, rfl⟩

theorem decodeFp_has (hn : w.major.toNat = 0x0D) (h : decodeFp w = some i) : i.Has w := by
  have hc (k : Nat) (hk : (w.fn10.extractLsb' 1 9).toNat = 8 + k) (h3 : k < 4) : (w.fn10.extractLsb' 3 7).toNat = 2 := by
    simp only [BitVec.extractLsb'_toNat, Nat.shiftRight_eq_div_pow] at hk ⊢
    omega
  unfold decodeFp at h
  split at h <;> cases h
  case h_9 hk => exact ⟨FCF.packS_of (hc 0 hk (by decide)) hn, rfl⟩
  case h_10 hk => exact ⟨FCF.packS_of (hc 1 hk (by decide)) hn, rfl⟩
  case h_11 hk => exact ⟨FCF.packS_of (hc 2 hk (by decide)) hn, rfl⟩
  all_goals exact ⟨FF.packS_of ‹_› hn, rfl⟩

theorem decodeAtom_has (hn : w.major.toNat = 0x0E) (h : decodeAtom w = some i) : i.Has w := by
  unfold decodeAtom at h
  split at h
  · cases h
  · rename_i hz
    split at h <;> cases h
    all_goals exact ⟨AF.packS_of (by simpa using hz) ‹_› hn, rfl⟩

theorem decodeVint_has (hn : w.major.toNat = 0x20) (h : decodeVint w = some i) : i.Has w := by
  unfold decodeVint at h
  split at h <;> cases h
  all_goals exact ⟨VF.pack_of ‹_› hn, rfl⟩

theorem decodeVints_has (hn : w.major.toNat = 0x21) (h : decodeVints w = some i) : i.Has w := by
  unfold decodeVints at h
  split at h <;> cases h
  all_goals exact ⟨VF.pack_of ‹_› hn, rfl⟩

theorem decodeVfp_has (hn : w.major.toNat = 0x22) (h : decodeVfp w = some i) : i.Has w := by
  unfold decodeVfp at h
  split at h <;> cases h
  all_goals exact ⟨VF.pack_of ‹_› hn, rfl⟩

theorem decodeVfps_has (hn : w.major.toNat = 0x23) (h : decodeVfps w = some i) : i.Has w := by
  unfold decodeVfps at h
  split at h <;> cases h
  all_goals exact ⟨VF.pack_of ‹_› hn, rfl⟩

theorem decodeVcmp_has (hn : w.major.toNat = 0x24) (h : decodeVcmp w = some i) : i.Has w := by
  unfold decodeVcmp at h
  split at h <;> cases h
  all_goals exact ⟨VF.pack_of ‹_› hn, rfl⟩

theorem decodeVcmps_has (hn : w.major.toNat = 0x25) (h : decodeVcmps w = some i) : i.Has w := by
  unfold decodeVcmps at h
  split at h <;> cases h
  all_goals exact ⟨VF.pack_of ‹_› hn, rfl⟩

theorem decodeVperm_has (hn : w.major.toNat = 0x26) (h : decodeVperm w = some i) : i.Has w := by
  unfold decodeVperm at h
  split at h <;> cases h
  all_goals exact ⟨VF.pack_of ‹_› hn, rfl⟩

theorem decodeSetvl_has (hn : w.major.toNat = 0x27) (h : decodeSetvl w = some i) : i.Has w := by
  unfold decodeSetvl at h
  split at h <;> cases h
  all_goals exact ⟨SF.packS_of ‹_› hn, rfl⟩

theorem decodeVldg_has (hn : w.major.toNat = 0x40) (h : decodeVldg w = some i) : i.Has w := by
  unfold decodeVldg at h
  split at h <;> cases h
  all_goals exact ⟨VMF.pack_of ‹_› hn, rfl⟩

theorem decodeVstg_has (hn : w.major.toNat = 0x41) (h : decodeVstg w = some i) : i.Has w := by
  unfold decodeVstg at h
  split at h <;> cases h
  all_goals exact ⟨VMF.pack_of ‹_› hn, rfl⟩

theorem decodeKops_has (hn : w.major.toNat = 0x50) (h : decodeKops w = some i) : i.Has w := by
  unfold decodeKops at h
  split at h <;> cases h
  all_goals exact ⟨VF.pack_of ‹_› hn, rfl⟩

theorem decodeHv_has (hn : w.major.toNat = 0x58) (h : decodeHv w = some i) : i.Has w := by
  unfold decodeHv at h
  split at h <;> cases h
  all_goals exact ⟨VF.pack_of ‹_› hn, rfl⟩

theorem decodeStick_has (hn : w.major.toNat = 0x60) (h : decodeStick w = some i) : i.Has w := by
  unfold decodeStick at h
  split at h <;> cases h
  all_goals exact ⟨VF.pack_of ‹_› hn, rfl⟩

theorem decodeMat_has (hn : w.major.toNat = 0x64) (h : decodeMat w = some i) : i.Has w := by
  unfold decodeMat at h
  split at h <;> cases h
  all_goals exact ⟨VF.pack_of ‹_› hn, rfl⟩

theorem decodeMtile_has (hn : w.major.toNat = 0x65) (h : decodeMtile w = some i) : i.Has w := by
  unfold decodeMtile at h
  split at h <;> cases h
  all_goals exact ⟨TF.pack_of ‹_› hn, rfl⟩

theorem decodeStrms_has (hn : w.major.toNat = 0x68) (h : decodeStrms w = some i) : i.Has w := by
  unfold decodeStrms at h
  split at h <;> cases h
  all_goals exact ⟨VF.pack_of ‹_› hn, rfl⟩

theorem decodeColl_has (hn : w.major.toNat = 0x6C) (h : decodeColl w = some i) : i.Has w := by
  unfold decodeColl at h
  split at h <;> cases h
  all_goals exact ⟨VF.pack_of ‹_› hn, rfl⟩

theorem decodeCset_has (hn : w.major.toNat = 0x6D) (h : decodeCset w = some i) : i.Has w := by
  unfold decodeCset at h
  split at h <;> cases h
  rename_i hz
  exact ⟨KF.packS_of (by simpa using hz) hn, rfl⟩

theorem decodeCsr_has (hn : w.major.toNat = 0x70) (h : decodeCsr w = some i) : i.Has w := by
  unfold decodeCsr at h
  split at h <;> cases h
  all_goals exact ⟨CF.packC_of ‹_› hn, rfl⟩

theorem decodeSys_has (hn : w.major.toNat = 0x71) (h : decodeSys w = some i) : i.Has w := by
  unfold decodeSys at h
  split at h <;> cases h
  all_goals exact ⟨CF.packC_of ‹_› hn, rfl⟩

theorem decodeBar_has (hn : w.major.toNat = 0x72) (h : decodeBar w = some i) : i.Has w := by
  unfold decodeBar at h
  split at h <;> cases h
  all_goals exact ⟨SF.packS_of ‹_› hn, rfl⟩

theorem decodePriv_has (hn : w.major.toNat = 0x73) (h : decodePriv w = some i) : i.Has w := by
  unfold decodePriv at h
  split at h <;> cases h
  all_goals exact ⟨SF.packS_of ‹_› hn, rfl⟩

/-- A major with one row and one function code (R68). -/
theorem mop_has {g : VMF → Instr} {k : BitVec 2} {n : Nat} (hn : w.major.toNat = n)
    (hg : ∀ f, encode (g f) = f.pack k (BitVec.ofNat 7 n) ∧ (g f).isEvent = false)
    (h : (if w.mop == k then some (g (.of w)) else none) = some i) : i.Has w := by
  split at h <;> cases h
  rename_i hk
  obtain ⟨he, hv⟩ := hg (.of w)
  refine ⟨he.trans ?_, hv⟩
  rw [← eq_of_beq hk, ← ofNat_of_toNat (x := w.mop) rfl]
  exact VMF.pack_of rfl hn

/-- What the decoder gives before the field rules has the word it was given (R42, R54). -/
theorem decodeRow_has (h : decodeRow w = some (some i)) : i.Has w := by
  unfold decodeRow at h
  split at h
  case h_1 hn => exact decodeOp_has hn (Option.some.inj h)
  case h_7 hn => exact decodeShi_has hn (Option.some.inj h)
  case h_13 hn => exact decodeFp_has hn (Option.some.inj h)
  case h_14 hn => exact decodeAtom_has hn (Option.some.inj h)
  case h_32 hn => exact decodeVint_has hn (Option.some.inj h)
  case h_33 hn => exact decodeVints_has hn (Option.some.inj h)
  case h_34 hn => exact decodeVfp_has hn (Option.some.inj h)
  case h_35 hn => exact decodeVfps_has hn (Option.some.inj h)
  case h_36 hn => exact decodeVcmp_has hn (Option.some.inj h)
  case h_37 hn => exact decodeVcmps_has hn (Option.some.inj h)
  case h_38 hn => exact decodeVperm_has hn (Option.some.inj h)
  case h_39 hn => exact decodeSetvl_has hn (Option.some.inj h)
  case h_41 hn => exact decodeVldg_has hn (Option.some.inj h)
  case h_42 hn => exact decodeVstg_has hn (Option.some.inj h)
  case h_53 hn => exact decodeKops_has hn (Option.some.inj h)
  case h_54 hn => exact decodeHv_has hn (Option.some.inj h)
  case h_55 hn => exact decodeStick_has hn (Option.some.inj h)
  case h_56 hn => exact decodeMat_has hn (Option.some.inj h)
  case h_57 hn => exact decodeMtile_has hn (Option.some.inj h)
  case h_58 hn => exact decodeStrms_has hn (Option.some.inj h)
  case h_59 hn => exact decodeColl_has hn (Option.some.inj h)
  case h_60 hn => exact decodeCset_has hn (Option.some.inj h)
  case h_61 hn => exact decodeCsr_has hn (Option.some.inj h)
  case h_62 hn => exact decodeSys_has hn (Option.some.inj h)
  case h_63 hn => exact decodeBar_has hn (Option.some.inj h)
  case h_64 hn => exact decodePriv_has hn (Option.some.inj h)
  case h_8 hn | h_9 hn | h_10 hn => cases h; exact ⟨UF.packU_of hn, rfl⟩
  case h_43 hn | h_44 hn | h_45 hn | h_46 hn | h_47 hn | h_48 hn | h_49 hn | h_50 hn | h_51 hn =>
    exact mop_has hn (fun _ => ⟨rfl, rfl⟩) (Option.some.inj h)
  all_goals cases h
  all_goals exact ⟨IF.packI_of ‹_›, rfl⟩

end

/-! ## Every instruction with a word is decoded from it

What the decoder does with any word that has a row's major and function code, it does with the word of that row's
instruction. -/

section
variable {n : BitVec 7}

theorem atomZero_append (k : BitVec 4) (z v u : BitVec 2) : (k ++ z ++ v ++ u : BitVec 10).extractLsb' 4 2 = z := by
  rw [BitVec.extractLsb'_append_eq_of_le (by decide)]
  exact extractLsb'_middle ..

theorem atomCode_append (k : BitVec 4) (z v u : BitVec 2) : (k ++ z ++ v ++ u : BitVec 10).extractLsb' 6 4 = k := by
  repeat rw [BitVec.extractLsb'_append_eq_of_le (by decide)]
  exact BitVec.extractLsb'_eq_self

theorem shiCode_append (k : BitVec 2) (z : BitVec 7) (v : BitVec 6) : (k ++ z ++ v : BitVec 15).extractLsb' 13 2 = k := by
  repeat rw [BitVec.extractLsb'_append_eq_of_le (by decide)]
  exact BitVec.extractLsb'_eq_self

theorem SF.row {g : SF → Instr} {k : BitVec 10} (f : SF)
    (h : ∀ w : IWord, w.major = n → w.fn10 = k → decodeRow w = some (some (g (.of w)))) :
    decodeRow (packS k f.b f.a f.d n) = some (some (g f)) := by
  rw [h _ (Laws.major_packS ..) (fn10_packS ..), SF.of_packS]

theorem CF.row {g : CF → Instr} {k : BitVec 3} (f : CF)
    (h : ∀ w : IWord, w.major = n → w.fn3 = k → decodeRow w = some (some (g (.of w)))) :
    decodeRow (packC f.csr k f.a f.d n) = some (some (g f)) := by
  rw [h _ (Laws.major_packC ..) (fn3_packC ..), CF.of_packC]

theorem IF.row {g : IF → Instr} (f : IF)
    (h : ∀ w : IWord, w.major = n → decodeRow w = some (some (g (.of w)))) :
    decodeRow (packI f.imm f.a f.d n) = some (some (g f)) := by
  rw [h _ (Laws.major_packI ..), IF.of_packI]

theorem BF.row {g : BF → Instr} (f : BF)
    (h : ∀ w : IWord, w.major = n → decodeRow w = some (some (g (.of w)))) :
    decodeRow (packI f.off f.a f.b n) = some (some (g f)) := by
  rw [h _ (Laws.major_packI ..), BF.of_packI]

theorem UF.row {g : UF → Instr} (f : UF)
    (h : ∀ w : IWord, w.major = n → decodeRow w = some (some (g (.of w)))) :
    decodeRow (packU f.imm f.d n) = some (some (g f)) := by
  rw [h _ (Laws.major_packU ..), UF.of_packU]

theorem VF.row {g : VF → Instr} {k : BitVec 6} (f : VF)
    (h : ∀ w : IWord, w.major = n → w.fn6 = k → decodeRow w = some (some (g (.of w)))) :
    decodeRow (f.pack k n) = some (some (g f)) := by
  rw [h _ (Laws.major_vf ..) (fn6_pack ..), VF.of_pack]

theorem VMF.row {g : VMF → Instr} {k : BitVec 2} (f : VMF)
    (h : ∀ w : IWord, w.major = n → w.mop = k → decodeRow w = some (some (g (.of w)))) :
    decodeRow (f.pack k n) = some (some (g f)) := by
  rw [h _ (Laws.major_vmf ..) (mop_pack ..), VMF.of_pack]

theorem TF.row {g : TF → Instr} {k : BitVec 2} (f : TF)
    (h : ∀ w : IWord, w.major = n → w.top = k → decodeRow w = some (some (g (.of w)))) :
    decodeRow (f.pack k n) = some (some (g f)) := by
  rw [h _ (Laws.major_tf ..) (top_pack ..), TF.of_pack]

theorem FF.row {g : FF → Instr} {k : BitVec 9} (f : FF)
    (h : ∀ w : IWord, w.major = n → w.fn10.extractLsb' 1 9 = k → decodeRow w = some (some (g (.of w)))) :
    decodeRow (packS (k ++ unbit f.wide) f.b f.a f.d n) = some (some (g f)) := by
  rw [h _ (Laws.major_packS ..) (by rw [fn10_packS]; exact BitVec.extractLsb'_append_eq_left), FF.of_packS]

theorem KF.row {g : KF → Instr} (f : KF)
    (h : ∀ w : IWord, w.major = n → w.fn10.extractLsb' 3 7 = 0#7 → decodeRow w = some (some (g (.of w)))) :
    decodeRow (packS (0#7 ++ f.cop) f.b f.a f.d n) = some (some (g f)) := by
  rw [h _ (Laws.major_packS ..) (by rw [fn10_packS]; exact BitVec.extractLsb'_append_eq_left), KF.of_packS]

theorem AF.row {g : AF → Instr} {k : BitVec 4} (f : AF)
    (h : ∀ w : IWord, w.major = n → w.fn10.extractLsb' 4 2 = 0#2 → w.fn10.extractLsb' 6 4 = k → decodeRow w = some (some (g (.of w)))) :
    decodeRow (packS (k ++ 0#2 ++ f.succ ++ f.fail) f.b f.a f.d n) = some (some (g f)) := by
  rw [h _ (Laws.major_packS ..) (by rw [fn10_packS]; exact atomZero_append ..) (by rw [fn10_packS]; exact atomCode_append ..), AF.of_packS]

theorem HF.row {g : HF → Instr} {k : BitVec 2} (f : HF)
    (h : ∀ w : IWord, w.major = n → w.imm15.extractLsb' 6 7 = 0#7 → w.imm15.extractLsb' 13 2 = k → decodeRow w = some (some (g (.of w)))) :
    decodeRow (packI (k ++ 0#7 ++ f.shamt) f.a f.d n) = some (some (g f)) := by
  rw [h _ (Laws.major_packI ..) (by rw [imm15_packI]; exact extractLsb'_middle ..) (by rw [imm15_packI]; exact shiCode_append ..), HF.of_packI]

/-- FCMP under its rule has one of its three function codes (R58). -/
theorem decodeFp_fcmp {f : FCF} (h : f.n.toNat ≤ 2) :
    decodeFp (packS (2#7 ++ f.n ++ unbit f.wide) f.b f.a f.d n) = some (.fcmp f) := by
  have hc : ((2#7 ++ f.n ++ unbit f.wide : BitVec 10).extractLsb' 1 9).toNat = 8 + f.n.toNat := by
    rw [show (2#7 ++ f.n ++ unbit f.wide : BitVec 10).extractLsb' 1 9 = 2#7 ++ f.n from extractLsb'_upper .., BitVec.toNat_append,
      ← Nat.shiftLeft_add_eq_or_of_lt f.n.isLt]
    rfl
  unfold decodeFp
  rw [fn10_packS, hc, FCF.of_packS]
  interval_cases f.n.toNat <;> rfl

end

/-- The decoder finds the row of an instruction with a word, and its fields as they stand; FCMP's n is no other row's
function code only where its rule holds (R58). -/
theorem decodeRow_encode {i : Instr} (hv : i.isEvent = false) (hw : i.wf = true) : decodeRow (encode i) = some (some i) := by
  cases i with
  | add f | sub f | and f | or f | xor f | sll f | srl f | sra f | slt f | sltn f | min f | max f | minn f | maxn f
  | mul f | mulh f | mulhn f | div f | divn f | rem f | remn f | clz f | ctz f | popc f =>
    exact SF.row f fun w h k => by unfold decodeRow decodeOp; rw [h, k]; rfl
  | slli f | srli f | srai f => exact HF.row f fun w h z k => by unfold decodeRow decodeShi; rw [h, z, k]; rfl
  | fadd f | fsub f | fmul f | fdiv f | fsqrt f | fma f | fmin f | fmax f | fcvt f | fmv f =>
    exact FF.row f fun w h k => by unfold decodeRow decodeFp; rw [h, k]; rfl
  | ldacq f | strel f | amoadd f | amoswp f | amocas f | amomin f | amomax f | amoand f | amoor f =>
    exact AF.row f fun w h z k => by unfold decodeRow decodeAtom; rw [h, z, k]; rfl
  | vadd f | vsub f | vmul f | vmulh f | vand f | vor f | vxor f | vsll f | vsrl f | vsra f | vmin f | vmax f
  | vminn f | vmaxn f | vsadd f | vssub f | vmerge f | vpopc f | vclz f | vid f | vmvs f | vmvx f =>
    exact VF.row f fun w h k => by unfold decodeRow decodeVint; rw [h, k]; rfl
  | vaddScalar f | vsubScalar f | vmulScalar f | vmulhScalar f | vandScalar f | vorScalar f | vxorScalar f
  | vsllScalar f | vsrlScalar f | vsraScalar f | vminScalar f | vmaxScalar f | vminnScalar f | vmaxnScalar f
  | vsaddScalar f | vssubScalar f | vmergeScalar f => exact VF.row f fun w h k => by unfold decodeRow decodeVints; rw [h, k]; rfl
  | vfadd f | vfsub f | vfmul f | vfma f | vfnma f | vfdiv f | vfmin f | vfmax f | vfsqrt f | vfabs f | vfneg f
  | vfexp2 f | vflog2 f | vfrsq f | vfrcp f | vcvt f => exact VF.row f fun w h k => by unfold decodeRow decodeVfp; rw [h, k]; rfl
  | vfaddScalar f | vfsubScalar f | vfmulScalar f | vfmaScalar f | vfnmaScalar f | vfdivScalar f | vfminScalar f
  | vfmaxScalar f => exact VF.row f fun w h k => by unfold decodeRow decodeVfps; rw [h, k]; rfl
  | vcmpeq f | vcmpne f | vcmplt f | vcmple f | vcmpltn f | vcmplen f | vfcmpeq f | vfcmplt f | vfcmple f =>
    exact VF.row f fun w h k => by unfold decodeRow decodeVcmp; rw [h, k]; rfl
  | vcmpeqScalar f | vcmpneScalar f | vcmpltScalar f | vcmpleScalar f | vcmpltnScalar f | vcmplenScalar f
  | vfcmpeqScalar f | vfcmpltScalar f | vfcmpleScalar f =>
    exact VF.row f fun w h k => by unfold decodeRow decodeVcmps; rw [h, k]; rfl
  | vslideup f | vslidedn f | vrgath f | vcmpr f | vredsum f | vredmax f | vredmin f | vfredsum f | vfredmax f
  | vfredmin f | vargmax f | vspsel f | vconfl f | vfcomb f | capp f =>
    exact VF.row f fun w h k => by unfold decodeRow decodeVperm; rw [h, k]; rfl
  | setvl f => exact SF.row f fun w h k => by unfold decodeRow decodeSetvl; rw [h, k]; rfl
  | vld f | vlds f | vldx f | vldt f => exact VMF.row f fun w h k => by unfold decodeRow decodeVldg; rw [h, k]; rfl
  | vst f | vsts f | vstx f | vstt f => exact VMF.row f fun w h k => by unfold decodeRow decodeVstg; rw [h, k]; rfl
  | kand f | kor f | kxor f | knot f | kmov f | kffs f | kpopc f =>
    exact VF.row f fun w h k => by unfold decodeRow decodeKops; rw [h, k]; rfl
  | hvset f | hvrand f | hvbind f | hvperm f | hvbund f | hvmaj f | hvsim f | hvclean f | hvfact f | hvstat f =>
    exact VF.row f fun w h k => by unfold decodeRow decodeHv; rw [h, k]; rfl
  | skset f | skfeed f | skest f | skstat f | skclr f =>
    exact VF.row f fun w h k => by unfold decodeRow decodeStick; rw [h, k]; rfl
  | matt f | mdet f | mzero f => exact VF.row f fun w h k => by unfold decodeRow decodeMat; rw [h, k]; rfl
  | mma f | mldb f | mst f | mgemv f => exact TF.row f fun w h k => by unfold decodeRow decodeMtile; rw [h, k]; rfl
  | strm f | savail f | swait f | scancel f | ssusp f | sresm f | vldp f | vstp f =>
    exact VF.row f fun w h k => by unfold decodeRow decodeStrms; rw [h, k]; rfl
  | vstc f | vldc f | cwait f | dpost f | dposta f | xtrim f | xgo f | xwait f | xstat f =>
    exact VF.row f fun w h k => by unfold decodeRow decodeColl; rw [h, k]; rfl
  | cset f => exact KF.row f fun w h z => by unfold decodeRow decodeCset; rw [h, z]; rfl
  | csrrd f | csrwr f | csrset f | csrclr f => exact CF.row f fun w h k => by unfold decodeRow decodeCsr; rw [h, k]; rfl
  | trap f | tret f | wfe f | sev f | pause f | tend f =>
    exact CF.row f fun w h k => by unfold decodeRow decodeSys; rw [h, k]; rfl
  | bjoin f | bleave f | barr f | bwait f | barw f | btest f | waitc f | qpost f =>
    exact SF.row f fun w h k => by unfold decodeRow decodeBar; rw [h, k]; rfl
  | swappg f | tlbinv f | savectx f => exact SF.row f fun w h k => by unfold decodeRow decodePriv; rw [h, k]; rfl
  | addi f | andi f | ori f | xori f | slti f | jalr f | ldb f | ldbn f | ldh f | ldhn f | ldw f | ldwn f | ldd f
  | stb f | sth f | stw f | std f | setvli f | fence f => exact IF.row f fun w h => by unfold decodeRow; rw [h]; rfl
  | loop f | beq f | bne f | blt f | bge f | bltn f | bgen f => exact BF.row f fun w h => by unfold decodeRow; rw [h]; rfl
  | lui f | auipc f | jal f => exact UF.row f fun w h => by unfold decodeRow; rw [h]; rfl
  | vldff f | vldv f | vstv f | vldxa f | vstxr f | vamoadd f | vamomin f | vamomax f | vamoswp f =>
    exact VMF.row f fun w h k => by unfold decodeRow; rw [h, k]; rfl
  | fcmp f =>
    have hn : f.n.toNat ≤ 2 := by simpa [Instr.wf] using hw
    have hr : ∀ w : IWord, w.major = 0x0D#7 → decodeRow w = some (decodeFp w) := fun w h => by unfold decodeRow; rw [h]; rfl
    exact (hr _ (Laws.major_packS ..)).trans (congrArg some (decodeFp_fcmp hn))
  | _ => cases hv

/-! ## The decoder and the encoder -/

theorem decode_encode {i : Instr} (hv : i.isEvent = false) (hw : i.wf = true) : decode (encode i) = .ok i := by
  simp [decode, decodeRow_encode hv hw, hw]

/-- What the decoder answers, it found in the table, with the field rules of the row kept. -/
theorem decode_ok_iff {w : IWord} {i : Instr} : decode w = .ok i ↔ decodeRow w = some (some i) ∧ i.wf = true := by
  unfold decode
  constructor
  · intro h
    split at h
    · cases h
    · cases h
    · rename_i j hj
      split at h <;> cases h
      exact ⟨hj, ‹_›⟩
  · rintro ⟨hi, hw⟩
    simp [hi, hw]

/-- The majors of the map (R54). -/
def MajorHasRow (n : Nat) : Prop :=
  (0x01 ≤ n ∧ n ≤ 0x28) ∨ (0x40 ≤ n ∧ n ≤ 0x4B) ∨ n = 0x50 ∨ n = 0x58 ∨ n = 0x60 ∨ n = 0x64 ∨ n = 0x65 ∨ n = 0x68
    ∨ n = 0x6C ∨ n = 0x6D ∨ (0x70 ≤ n ∧ n ≤ 0x73)

theorem majorHasRow_of_decodeRow {w : IWord} {r : Option Instr} (h : decodeRow w = some r) : MajorHasRow w.major.toNat := by
  unfold decodeRow at h
  unfold MajorHasRow
  split at h
  case h_65 => cases h
  all_goals omega

theorem major_toNat (w : IWord) : w.major.toNat = w.toNat % 128 := by
  simp [IWord.major, BitVec.extractLsb'_toNat]

theorem majorHasRow_of_decode {w : IWord} {i : Instr} (h : decode w = .ok i) : MajorHasRow (w.toNat % 128) := by
  rw [← major_toNat]
  exact majorHasRow_of_decodeRow (decode_ok_iff.mp h).1

/-- Settles O1: one table lemma per direction, over the formats' lemmas for packed words. -/
theorem decodeEncode : Obligations.DecodeEncode := by
  unfold Obligations.DecodeEncode
  refine ⟨fun i => decode_encode, fun i j hi hj wi wj h => ?_, fun w i h => ?_, fun w hn j h => hn (majorHasRow_of_decode h)⟩
  · have h' := decode_encode hi wi
    rw [h, decode_encode hj wj] at h'
    exact (Except.ok.inj h').symm
  · obtain ⟨hr, hw⟩ := decode_ok_iff.mp h
    obtain ⟨he, hv⟩ := decodeRow_has hr
    exact ⟨hw, hv, he⟩

/-- Settles O2: each word is the word of its instruction, and the last two have reserved majors. -/
theorem decodedWords : Obligations.DecodedWords := by
  unfold Obligations.DecodedWords
  refine ⟨decode_encode (i := .add ⟨5, 4, 3⟩) rfl rfl, decode_encode (i := .addi ⟨0x7FFF, 0, 1⟩) rfl rfl,
    decode_encode (i := .vadd ⟨true, false, false, false, 3, 2, 1⟩) rfl rfl,
    decode_encode (i := .vld ⟨9, false, false, false, false, 0, 5, 4⟩) rfl rfl,
    decode_encode (i := .csrwr ⟨0x045, 6, 7⟩) rfl rfl, fun i h => ?_, fun i h => ?_⟩
  · have hr : MajorHasRow 0 := majorHasRow_of_decode h
    simp [MajorHasRow] at hr
  · have hr : MajorHasRow 127 := majorHasRow_of_decode h
    simp [MajorHasRow] at hr

end Sys2Proof

/-! # Fetch and issue (R42, R49, R55, R78): what a step does at an instruction boundary -/

namespace Sys2Proof.Machine

/-! ## Fetch -/

/-- A byte that the instruction cache does not hold is that of memory (R174). -/
theorem State.codeByte_of_miss {s : State} {a : Nat} (h : Cells.get? s.icache (cacheKey s.core a) = none) :
    s.codeByte a = Memory.get s.mem a := by
  simp [State.codeByte, h]

/-- The word at an address where the instruction cache holds none of its bytes: the bytes of memory, little-endian. -/
theorem State.fetchWord_of_miss {s v u : State} {va : Word} {l : List ByteAt} {b : List Byte}
    (hs : s.span .fetch .fetch va 4 = (v, .ok l)) (hr : v.read (l.map (·.key)) = (u, some b))
    (hm : ∀ x ∈ l, Cells.get? u.icache (cacheKey u.core x.key) = none) :
    s.fetchWord va = (u, .ok (BitVec.ofNat 32 (leNat b))) := by
  obtain ⟨hu, rfl⟩ := State.read_some hr
  have hb : (l.map fun x => u.codeByte x.key) = (l.map (·.key)).map (Memory.get v.mem) := by
    rw [List.map_map]
    exact List.map_congr_left fun x hx => (State.codeByte_of_miss (hm x hx)).trans (congrArg (Memory.get · x.key) hu)
  unfold State.fetchWord
  simp only [hs, hr, hb]

section
variable {s u v : State} {va : Word} {w x : IWord}

theorem State.fetchGroup_ok (h : s.fetchWord va = (u, .ok w)) : s.fetchGroup va = State.gather w 4 0 u va := by
  simp [State.fetchGroup, h]

/-- A word that asks for no next one issues with those before it (R49). -/
theorem State.gather_last {n k : Nat} (h : (convoyWord w && convoyBit w) = false) : State.gather w n k u va = (u, .ok ([w], none)) := by
  cases n with
  | zero => rfl
  | succ n => simp [State.gather, h]

theorem State.fetchGroup_single (h : s.fetchWord va = (u, .ok w)) (hc : (convoyWord w && convoyBit w) = false) :
    s.fetchGroup va = (u, .ok ([w], none)) :=
  (State.fetchGroup_ok h).trans (State.gather_last hc)

/-- The next word is no member: the first breaks the convoy. -/
theorem State.fetchGroup_broken (h : s.fetchWord va = (u, .ok w)) (hc : (convoyWord w && convoyBit w) = true)
    (hx : u.fetchWord (va + 4) = (v, .ok x)) (hn : convoyWord x = false) : s.fetchGroup va = (v, .ok ([w], some 0)) := by
  rw [State.fetchGroup_ok h, State.gather, hc, hx]
  simp [hn]

theorem State.fetchGroup_pair (h : s.fetchWord va = (u, .ok w)) (hc : (convoyWord w && convoyBit w) = true)
    (hx : u.fetchWord (va + 4) = (v, .ok x)) (hn : convoyWord x = true) (hl : convoyBit x = false) :
    s.fetchGroup va = (v, .ok ([w, x], none)) := by
  have hlast : State.gather x 3 1 v (va + 4) = (v, .ok ([x], none)) := State.gather_last (by simp [hl])
  rw [State.fetchGroup_ok h, State.gather, hc, hx]
  simp only [hn, hlast]
  rfl

/-- The fetch of the second word fails: its place is 1. -/
theorem State.fetchGroup_stopped {e : Stop} (h : s.fetchWord va = (u, .ok w)) (hc : (convoyWord w && convoyBit w) = true)
    (hx : u.fetchWord (va + 4) = (v, .error e)) : s.fetchGroup va = (v, .error (e, 1)) := by
  rw [State.fetchGroup_ok h, State.gather, hc, hx]
  rfl

end

/-! ## Issue -/

theorem decodeWord_ok {w : IWord} {i : Instr} (h : decode w = .ok i) : decodeWord w = some i := by
  simp [decodeWord, h]

theorem decodeWord_error {w : IWord} {e : DecodeError} (h : decode w = .error e) : decodeWord w = none := by
  simp [decodeWord, h]

theorem decodeAll_length {dec : IWord → Option Instr} {ws : List IWord} {k : Nat} {ms : List Instr} (h : decodeAll dec k ws = .ok ms) :
    ms.length = ws.length := by
  induction ws generalizing k ms with
  | nil => cases h; rfl
  | cons w ws ih =>
    unfold decodeAll at h
    split at h
    · cases h
    · split at h
      · cases h
      · cases h
        simpa using ih ‹_›

/-- Two members or more, or one that breaks the formation rules, issue together (R49). -/
theorem issueAll_group {ex : Instr → State → Host.Outcome State Fault Refusal} {b : Option Nat} {ms : List Instr} {s : State}
    (h : 2 ≤ ms.length ∨ b ≠ none) : issueAll ex b ms s = issueGroup b ms (runMember ex) s := by
  unfold issueAll
  split
  · simp at h
  · rfl

/-- A thread at an instruction boundary, with nothing to do before it issues: its step is that of what its pc holds. -/
theorem step_issueAt {s : State} (ha : s.agenda = []) (ho : (s.thr s.cur).occupied = true) (hs : (s.thr s.cur).stopped = false)
    (hq : (s.thr s.cur).stopAsked = none) (hf : (s.thr s.cur).fwd = false) (hp : s.passWaits s.cur = false)
    (hw : s.lc.waitFor = .none) : step s = State.issueAt decodeWord exec s := by
  have hw' : (s.thr s.cur).lc.waitFor = .none := hw
  have hwake : s.wake = s := by simp [State.wake, hw]
  rw [step_turn ha ho, State.turn]
  simp only [ho, hs, hq, hf, hp, hwake, LCore.blocked, LCore.saving, hw']
  rw [if_neg (by decide), if_neg (Bool.not_eq_true _ |>.mpr (Bool.false_and _)), if_neg (by simp), if_neg Bool.false_ne_true]
  cases State.issueAt decodeWord exec s <;> rfl

section
variable {dec : IWord → Option Instr} {ex : Instr → State → Host.Outcome State Fault Refusal} {s u : State}

theorem State.issueAt_stopped {e : Stop} {k : Nat} (h : s.fetchGroup s.lc.pc = (u, .error (e, k))) :
    State.issueAt dec ex s = u.stopped e k u.lc.vstart := by
  simp [State.issueAt, h]

theorem State.issueAt_illegal {ws : List IWord} {b : Option Nat} {k : Nat} {w : IWord} (h : s.fetchGroup s.lc.pc = (u, .ok (ws, b)))
    (hd : decodeAll dec 0 ws = .error (k, w)) :
    State.issueAt dec ex s = .next (u.deliver ⟨.illegal, w.setWidth 64, BitVec.ofNat 2 k, u.lc.pc, u.lc.vstart⟩) := by
  simp [State.issueAt, h, hd]

theorem State.issueAt_ok {ws : List IWord} {b : Option Nat} {ms : List Instr} (h : s.fetchGroup s.lc.pc = (u, .ok (ws, b)))
    (hd : decodeAll dec 0 ws = .ok ms) : State.issueAt dec ex s = issueAll ex b ms u := by
  simp [State.issueAt, h, hd]

end

/-- Settles O3: the step is the issue of what is fetched at the pc (`step_issueAt`), and each clause is a case of the
fetch, of the decoder or of what issues. -/
theorem stepRunsDecoded : Obligations.StepRunsDecoded := by
  unfold Obligations.StepRunsDecoded
  refine ⟨fun s ha ho hs hq hf hp hw => ?_, fun s n ha hn ho => ?_⟩
  · have hstep := step_issueAt ha ho hs hq hf hp hw
    rw [hstep]
    refine ⟨fun v l u b => State.fetchWord_of_miss, fun u w h hc => ?_, fun u v w h hc hb => ?_, fun u ws b h => ?_,
      fun u e k => State.issueAt_stopped⟩
    · have hg := State.fetchGroup_single h hc
      refine ⟨fun i hi => ?_, fun e he => ?_⟩
      · have hd : decodeAll decodeWord 0 [w] = .ok [i] := by simp [decodeAll, decodeWord_ok hi]
        exact State.issueAt_ok hg hd
      · have hd : decodeAll decodeWord 0 [w] = .error (0, w) := by simp [decodeAll, decodeWord_error he]
        exact State.issueAt_illegal hg hd
    · have hc' : (convoyWord w && convoyBit w) = true := by simp [hc, hb]
      exact ⟨fun x hx => ⟨State.fetchGroup_broken h hc' hx, State.fetchGroup_pair h hc' hx⟩,
        fun e => State.fetchGroup_stopped h hc'⟩
    · refine ⟨fun ms hm hd => ?_, fun k w => State.issueAt_illegal h⟩
      rw [State.issueAt_ok h hd]
      exact issueAll_group (by rwa [decodeAll_length hd])
  · have ho' : (State.thr { s with agenda := [], cur := n } n).occupied = true := ho
    rw [step_act ha, step_turn rfl ho']
    exact if_pos hn

end Sys2Proof.Machine

/-! # The checks of a convoy (R78): the booleans of the issue against what each check asks -/

namespace Sys2Proof.Machine

/-! ## The parts of a check -/

theorem meets_iff {p q : List (Nat × Nat)} : meets p q = true ↔ RunsMeet p q := by
  simp [meets, overlaps, RunsMeet]

theorem RunsMeet.append_right {p q r : List (Nat × Nat)} : RunsMeet p (q ++ r) ↔ RunsMeet p q ∨ RunsMeet p r := by
  unfold RunsMeet
  constructor
  · rintro ⟨g, hg, h, hh, hlt⟩
    rcases List.mem_append.mp hh with hq | hr
    · exact .inl ⟨g, hg, h, hq, hlt⟩
    · exact .inr ⟨g, hg, h, hr, hlt⟩
  · rintro (⟨g, hg, h, hh, hlt⟩ | ⟨g, hg, h, hh, hlt⟩)
    · exact ⟨g, hg, h, List.mem_append_left _ hh, hlt⟩
    · exact ⟨g, hg, h, List.mem_append_right _ hh, hlt⟩

theorem Member.touches_iff {x : Member} {k : Nat} : x.touches k = true ↔ k ∈ x.kr ∨ k ∈ x.kw := by
  simp [Member.touches]

theorem Member.clobbers_iff {w o : Member} : w.clobbers o = true ↔ w.Clashes o := by
  simp only [Member.clobbers, Member.Clashes, RunsMeet.append_right, Bool.and_eq_true, Bool.or_eq_true, meets_iff, List.any_eq_true,
    Member.touches_iff, bne_iff_ne, List.contains_iff_mem, or_assoc]

theorem Member.guards_iff {c : LCore} {x o : Member} : Member.guards c.satk x o = true ↔ x.Guards c o := by
  unfold Member.guards Member.Guards
  rw [Bool.or_eq_true]
  refine or_congr ?_ ?_
  · cases x.only with
    | none => simp
    | some k => simpa using Member.touches_iff
  · simp only [Bool.and_eq_true, Bool.or_eq_true, Member.touches_iff, satkEn, satkReg, and_assoc, or_assoc]

/-- The other members of a convoy. -/
theorem any_eraseIdx_iff {xs : List Member} {k : Nat} {p : Member → Bool} {P : Member → Prop} (hp : ∀ y, p y = true ↔ P y) :
    (xs.eraseIdx k).any p = true ↔ ∃ y ∈ xs.zipIdx, y.2 ≠ k ∧ P y.1 := by
  simp only [List.any_eq_true, List.mem_eraseIdx_iff_getElem?, hp, Prod.exists, List.mk_mem_zipIdx_iff_getElem?]
  constructor
  · rintro ⟨y, ⟨i, hi, hy⟩, h⟩
    exact ⟨y, i, hy, hi, h⟩
  · rintro ⟨y, i, hy, hi, h⟩
    exact ⟨y, ⟨i, hi, hy⟩, h⟩

/-! ## The four checks -/

section
variable {c : LCore} {b : Option Nat} {xs : List Member} {k : Nat} {x : Member}

theorem fails_four : Fails c b xs 4 k x ↔ x.ill = true := by simp [Fails]

theorem fails_five : Fails c b xs 5 k x ↔ x.groupBad c = true := by
  simp [Fails, Member.groupBad]

theorem fails_six : Fails c b xs 6 k x ↔ x.convoyBad b xs k = true := by
  have hc : (xs.eraseIdx k).any (fun o => x.clobbers o || o.clobbers x) = true
      ↔ ∃ y ∈ xs.zipIdx, y.2 ≠ k ∧ (x.Clashes y.1 ∨ y.1.Clashes x) :=
    any_eraseIdx_iff (P := fun o => x.Clashes o ∨ o.Clashes x) fun o => by simp [Member.clobbers_iff]
  have hp : ∀ p : Pipe, p.most = if p = .fma then 2 else 1 := fun p => by cases p <;> rfl
  simp only [Fails, Member.convoyBad, Bool.or_eq_true, hc, List.any_eq_true, hp, decide_eq_true_eq, beq_iff_eq]
  simp [or_assoc]

theorem fails_seven : Fails c b xs 7 k x ↔ x.overlapBad c.satk xs k = true := by
  have hg : (xs.eraseIdx k).any (fun o => Member.guards c.satk x o || Member.guards c.satk o x) = true
      ↔ ∃ y ∈ xs.zipIdx, y.2 ≠ k ∧ (x.Guards c y.1 ∨ y.1.Guards c x) :=
    any_eraseIdx_iff (P := fun o => x.Guards c o ∨ o.Guards c x) fun o => by simp [Member.guards_iff]
  simp only [Fails, Member.overlapBad, Bool.or_eq_true, hg, Bool.and_eq_true, meets_iff]
  simp [or_assoc]

theorem fails_number {n : Nat} (h : Fails c b xs n k x) : n = 4 ∨ n = 5 ∨ n = 6 ∨ n = 7 := by
  rcases h with ⟨h, -⟩ | ⟨h, -⟩ | ⟨h, -⟩ | ⟨h, -⟩ <;> simp [h]

end

/-! ## The first check that fails, with the lowest member that fails it -/

/-- The cause of a check of R78. -/
def checkCause (n : Nat) : Cause := if n = 4 then .vtypeIll else if n = 5 then .groupAlign else if n = 6 then .convoy else .overlap

/-- The boolean of a check of R78 for the member at a place. -/
def checkBad (c : LCore) (b : Option Nat) (xs : List Member) (n k : Nat) (x : Member) : Bool :=
  if n = 4 then x.ill else if n = 5 then x.groupBad c else if n = 6 then x.convoyBad b xs k else x.overlapBad c.satk xs k

/-- What one check answers. -/
def checkFirst (c : LCore) (b : Option Nat) (xs : List Member) (n : Nat) : Option (Cause × Nat) :=
  (xs.zipIdx.find? fun y => checkBad c b xs n y.2 y.1).map fun y => (checkCause n, y.2)

section
variable {c : LCore} {b : Option Nat} {xs : List Member} {n k : Nat} {x : Member}

theorem issueCheck_eq : issueCheck c b xs
    = (checkFirst c b xs 4 <|> checkFirst c b xs 5 <|> checkFirst c b xs 6 <|> checkFirst c b xs 7) := rfl

theorem fails_iff_checkBad (hn : n = 4 ∨ n = 5 ∨ n = 6 ∨ n = 7) : Fails c b xs n k x ↔ checkBad c b xs n k x = true := by
  rcases hn with rfl | rfl | rfl | rfl
  · exact fails_four
  · exact fails_five
  · exact fails_six
  · exact fails_seven

theorem checkFirst_none (hn : n = 4 ∨ n = 5 ∨ n = 6 ∨ n = 7) (h : ∀ y ∈ xs.zipIdx, ¬ Fails c b xs n y.2 y.1) :
    checkFirst c b xs n = none := by
  rw [checkFirst, Option.map_eq_none_iff, List.find?_eq_none]
  exact fun y hy => mt (fails_iff_checkBad hn).mpr (h y hy)

/-- The member at k fails the check and none before it does. -/
theorem checkFirst_some (hx : xs[k]? = some x) (hf : Fails c b xs n k x) (hlow : ∀ y ∈ xs.zipIdx, y.2 < k → ¬ Fails c b xs n y.2 y.1) :
    checkFirst c b xs n = some (checkCause n, k) := by
  have hn := fails_number hf
  obtain ⟨hk, rfl⟩ := List.getElem?_eq_some_iff.mp hx
  rw [checkFirst, Option.map_eq_some_iff]
  refine ⟨(xs[k], k), ?_, rfl⟩
  rw [List.find?_eq_some_iff_getElem]
  refine ⟨(fails_iff_checkBad hn).mp hf, k, by simpa using hk, by simp, fun j hj => ?_⟩
  have hj' : j < xs.length := hj.trans hk
  have hlow' := hlow (xs[j], j) (List.mk_mem_zipIdx_iff_getElem?.mpr (List.getElem?_eq_getElem hj')) hj
  simpa using mt (fails_iff_checkBad hn).mpr hlow'

/-- R78: the first check that some member fails, at the lowest member that fails it. -/
theorem issueCheck_of_fails (hx : xs[k]? = some x) (hf : Fails c b xs n k x)
    (hmin : ∀ y ∈ xs.zipIdx, ∀ m, m ≤ n → m < n ∨ y.2 < k → ¬ Fails c b xs m y.2 y.1) :
    issueCheck c b xs = some (checkCause n, k) := by
  have hthis := checkFirst_some hx hf fun y hy hlt => hmin y hy n le_rfl (.inr hlt)
  have hbefore : ∀ m, m < n → (m = 4 ∨ m = 5 ∨ m = 6 ∨ m = 7) → checkFirst c b xs m = none :=
    fun m hm hc => checkFirst_none hc fun y hy => hmin y hy m hm.le (.inl hm)
  rw [issueCheck_eq]
  rcases fails_number hf with rfl | rfl | rfl | rfl
  · simp [hthis]
  · simp [hthis, hbefore 4]
  · simp [hthis, hbefore 4, hbefore 5]
  · simp [hthis, hbefore 4, hbefore 5, hbefore 6]

theorem issueCheck_none (h : ∀ y ∈ xs.zipIdx, ∀ m, m ≤ 7 → ¬ Fails c b xs m y.2 y.1) : issueCheck c b xs = none := by
  have hnone : ∀ m, m ≤ 7 → (m = 4 ∨ m = 5 ∨ m = 6 ∨ m = 7) → checkFirst c b xs m = none :=
    fun m hm hc => checkFirst_none hc fun y hy => h y hy m hm
  rw [issueCheck_eq]
  simp [hnone]

end

/-! ## Accesses leave the threads as they stand

Translation, reads and writes change memory, its errors, the TLBs and the caches: no thread (R88 to R96). -/

/-- Two states hold the same threads, with the same one to go. -/
def State.SameThreads (s t : State) : Prop := t.threads = s.threads ∧ t.cur = s.cur

namespace State.SameThreads

variable {s t u : State} {va : Word} {who : Who} {cls : AccClass} {acc : Acc}

theorem refl (s : State) : s.SameThreads s := ⟨rfl, rfl⟩

theorem trans (h : s.SameThreads t) (h' : t.SameThreads u) : s.SameThreads u := ⟨h'.1.trans h.1, h'.2.trans h.2⟩

theorem lc_eq (h : s.SameThreads t) : t.lc = s.lc := by
  unfold State.lc State.thr
  rw [h.1, h.2]

/-- What touches only memory's errors, their log and the counters. -/
theorem of_withErrors (h : t.withErrors s = s) : s.SameThreads t :=
  have hthreads := congrArg State.threads h
  have hcur := congrArg State.cur h
  ⟨hthreads, hcur⟩

theorem meets (s : State) (keys : List Nat) : s.SameThreads (s.meets keys) := of_withErrors (withErrors_meets s s keys)

theorem merged (s : State) (keys whole : List Nat) : s.SameThreads (s.merged keys whole) :=
  of_withErrors (withErrors_merged s s keys whole)

theorem write (s : State) (l : List (Nat × Byte)) : s.SameThreads (s.write l) := ⟨threads_write s l, cur_write s l⟩

theorem dropLines (s : State) (n : Nat) (l : List Nat) : s.SameThreads (s.dropLines n l) :=
  ⟨threads_dropLines s n l, cur_dropLines s n l⟩

theorem read {keys : List Nat} {r : Option (List Byte)} (h : s.read keys = (t, r)) : s.SameThreads t := by
  unfold State.read at h
  cases h
  exact meets s keys

theorem load {l : List ByteAt} {r : Except Stop (List Byte)} (h : s.load l = (t, r)) : s.SameThreads t := by
  unfold State.load at h
  split at h <;> cases h
  · exact read ‹_›
  · exact read ‹_›

theorem descriptor {ctx : Nat} {r : Option (Word × Word)} (h : s.descriptor ctx = (t, r)) : s.SameThreads t := by
  unfold State.descriptor at h
  split at h <;> cases h
  · exact read ‹_›
  · exact read ‹_›

theorem walkFrom {fuel lvl tbl : Nat} {r : Except Stop Leaf} (h : State.walkFrom va fuel lvl tbl s = (t, r)) : s.SameThreads t := by
  induction fuel generalizing lvl tbl s with
  | zero => cases h; exact refl _
  | succ fuel ih =>
    unfold State.walkFrom at h
    dsimp only at h
    split at h
    · cases h; exact refl _
    split at h
    case h_1 hr => cases h; exact read hr
    case h_2 hr =>
      refine (read hr).trans ?_
      split at h
      · cases h; exact refl _
      split at h
      · cases h; exact refl _
      split at h
      · exact ih h
      · cases h; exact refl _

theorem walk {ctx : Nat} {r : Except Stop Leaf} (h : s.walk ctx va = (t, r)) : s.SameThreads t := by
  unfold State.walk at h
  split at h
  case h_1 hd => cases h; exact descriptor hd
  case h_2 hd => exact (descriptor hd).trans (walkFrom h)

theorem setAD (s : State) (l : Leaf) (acc : Acc) : s.SameThreads (s.setAD l acc).1 := by
  unfold State.setAD
  dsimp only
  split <;> exact refl s

theorem walkFor {r : Except Stop Leaf} (h : s.walkFor who cls acc va = (t, r)) : s.SameThreads t := by
  unfold State.walkFor at h
  split at h
  case h_1 hw => cases h; exact walk hw
  case h_2 hw =>
    refine (walk hw).trans ?_
    split at h
    · cases h; exact refl _
    · cases h; exact setAD ..

theorem tlbFill (s : State) (e : TlbEntry) : s.SameThreads (s.tlbFill e) := by
  unfold State.tlbFill
  extract_lets cap same
  split
  · exact refl s
  · split <;> exact refl s

theorem useEntry {e : TlbEntry} {r : Except Stop (Option Leaf)} (h : s.useEntry e acc = (t, r)) : s.SameThreads t := by
  unfold State.useEntry at h
  split at h
  · split at h
    case h_1 hr => cases h; exact read hr
    case h_2 hr =>
      refine (read hr).trans ?_
      dsimp only at h
      split at h <;> cases h <;> exact refl _
  · cases h; exact refl s

theorem leafFor {core bank : Nat} {r : Except Stop Leaf} (h : s.leafFor core bank who cls acc va = (t, r)) : s.SameThreads t := by
  unfold State.leafFor at h
  extract_lets walkIt checked found at h
  have hwalk : ∀ {u : State}, walkIt u = (t, r) → u.SameThreads t := fun {u} hw => by
    dsimp only [walkIt] at hw
    split at hw
    case h_1 hx => cases hw; exact walkFor hx
    case h_2 v l hx =>
      cases hw
      refine (walkFor hx).trans ((tlbFill _ (l.entry core tlb2 who.ctx va)).trans ?_)
      split
      · exact refl _
      · exact tlbFill ..
  have hchecked : ∀ {u : State} {l : Leaf}, checked u l = (t, r) → u.SameThreads t := fun {u l} hc => by
    dsimp only [checked] at hc
    split at hc <;> cases hc <;> exact refl _
  clear_value found
  split at h
  · exact hwalk h
  rename_i e
  split at h
  · cases h; exact refl s
  split at h
  case h_1 hu => cases h; exact useEntry hu
  case h_2 hu => exact (useEntry hu).trans (hwalk h)
  case h_3 v l hu =>
    have hfill : v.SameThreads (if e.bank == bank then v else v.tlbFill (l.entry core bank who.ctx va)) := by
      split
      · exact refl _
      · exact tlbFill ..
    exact (useEntry hu).trans (hfill.trans (hchecked h))

theorem xlate {bank : Nat} {r : Except Stop Place} (h : s.xlate bank who cls acc va = (t, r)) : s.SameThreads t := by
  unfold State.xlate at h
  split at h
  · cases h; exact refl _
  extract_lets leaf at h
  have hleaf : s.SameThreads leaf.1 := by
    dsimp only [leaf]
    split
    · exact leafFor rfl
    · exact walkFor rfl
  clear_value leaf
  obtain ⟨v, l⟩ := leaf
  cases l <;> cases h <;> exact hleaf

theorem xlateBytes {bank fuel n : Nat} {r : Except Stop (List ByteAt)} (h : State.xlateBytes bank who cls acc fuel s va n = (t, r)) :
    s.SameThreads t := by
  induction fuel generalizing s va n r with
  | zero => cases h; exact refl _
  | succ fuel ih =>
    unfold State.xlateBytes at h
    split at h
    · cases h; exact refl _
    dsimp only at h
    split at h
    case h_1 hx => cases h; exact xlate hx
    case h_2 hx =>
      refine (xlate hx).trans ?_
      split at h
      · cases h; exact refl _
      · split at h <;> cases h
        · exact ih ‹_›
        · exact ih ‹_›

theorem span {n : Nat} {r : Except Stop (List ByteAt)} (h : s.span cls acc va n = (t, r)) : s.SameThreads t := xlateBytes h

theorem xlateRuns {bank : Nat} {rs : List (Word × Nat)} {r : Except Stop (List ByteAt)}
    (h : State.xlateRuns bank who cls acc rs s = (t, r)) : s.SameThreads t := by
  induction rs generalizing s r with
  | nil => cases h; exact refl _
  | cons x rs ih =>
    unfold State.xlateRuns at h
    split at h
    case h_1 hx => cases h; exact xlateBytes hx
    case h_2 hx =>
      refine (xlateBytes hx).trans ?_
      split at h <;> cases h
      · exact ih ‹_›
      · exact ih ‹_›

theorem probeElem {o : VMemOp} {sew c e : Nat} {x : ElemAt} {r : Except Stop (List ByteAt)}
    (h : o.probeElem s who sew c e x = (t, r)) : s.SameThreads t := by
  unfold VMemOp.probeElem at h
  split at h
  · cases h; exact refl s
  split at h
  · cases h; exact refl s
  · exact xlateRuns h

theorem probe (o : VMemOp) (c : LCore) (l : List Nat) (s : State) : s.SameThreads (o.probe c who l s).1 := by
  induction l generalizing s with
  | nil => exact refl s
  | cons e es ih =>
    unfold VMemOp.probe
    split
    · exact ih s
    split
    case h_1 hx =>
      refine (probeElem hx).trans ?_
      split
      · exact ih _
      · exact refl _
    case h_2 hx => exact (probeElem hx).trans (ih _)

theorem probeFrom (s : State) (o : VMemOp) (c : LCore) (vl : Nat) : s.SameThreads (s.probeFrom o c vl).1 := by
  unfold State.probeFrom
  dsimp only
  split
  · exact probe ..
  · split <;> exact (probe ..).trans (probe ..)

theorem readAll (g : Nat) (l : List (Nat × List Nat)) (s : State) : s.SameThreads (readAll g l s).1 := by
  unfold Machine.readAll
  dsimp only
  generalize groupKeys g l = ks
  induction ks generalizing s with
  | nil => exact refl s
  | cons k ks ih => exact (meets s k).trans (ih _)

theorem cappEntries {q : QueueObj} {l : List Nat} {r : Except Stop (List (Nat × List Nat))} (h : State.cappEntries q l s = (t, r)) :
    s.SameThreads t := by
  induction l generalizing s r with
  | nil => cases h; exact refl _
  | cons i l ih =>
    unfold State.cappEntries at h
    split at h
    case h_1 hx => cases h; exact span hx
    case h_2 hx =>
      refine (span hx).trans ?_
      split at h <;> cases h
      · exact ih ‹_›
      · exact ih ‹_›

end State.SameThreads

/-! ## What leaves the outstanding old values of VAMOSWP as they are (R172) -/

namespace LCore

theorem oldVals_foldl {α : Type} {f : LCore → α → LCore} (h : ∀ c a, (f c a).oldVals = c.oldVals) (l : List α) (c : LCore) :
    (l.foldl f c).oldVals = c.oldVals := by
  induction l generalizing c with
  | nil => rfl
  | cons a l ih => exact (ih _).trans (h c a)

@[simp] theorem oldVals_setElem (c : LCore) (r w e v : Nat) : (c.setElem r w e v).oldVals = c.oldVals := oldVals_setVreg ..
@[simp] theorem oldVals_setVal (c : LCore) (r sew e v : Nat) : (c.setVal r sew e v).oldVals = c.oldVals := oldVals_setElem ..
@[simp] theorem oldVals_setKbit (c : LCore) (n e : Nat) (b : Bool) : (c.setKbit n e b).oldVals = c.oldVals := oldVals_setKreg ..
@[simp] theorem oldVals_putFp (c : LCore) (r sew e : Nat) (x : Nat × BitVec 5) : (c.putFp r sew e x).oldVals = c.oldVals :=
  oldVals_setVal ..
@[simp] theorem oldVals_putCmp (c : LCore) (k e : Nat) (r : Bool × BitVec 5) : (c.putCmp k e r).oldVals = c.oldVals := oldVals_setKbit ..

@[simp] theorem oldVals_markIf (c : LCore) (b : Bool) (e : Nat) : (c.markIf b e).oldVals = c.oldVals := by
  unfold markIf markWith
  split
  · split
    · exact oldVals_setKbit ..
    · rfl
  · rfl

@[simp] theorem oldVals_putNarrowed (c : LCore) (r sew e : Nat) (x : Narrowed) : (c.putNarrowed r sew e x).oldVals = c.oldVals := by
  simp [putNarrowed]

@[simp] theorem oldVals_putHv (c : LCore) (r x : Nat) : (c.putHv r x).oldVals = c.oldVals :=
  oldVals_foldl (fun _ _ => oldVals_setVreg ..) _ c

@[simp] theorem oldVals_permuted (c : LCore) (m : Bool) (vl d : Nat) (g : Nat → Option Nat) : (c.permuted m vl d g).oldVals = c.oldVals :=
  oldVals_foldl (fun a e => by split <;> simp) _ c

theorem oldVals_forActive {f : LCore → Nat → LCore} (h : ∀ c e, (f c e).oldVals = c.oldVals) (c : LCore) (w : Window) (m : Bool) :
    (c.forActive w m f).oldVals = c.oldVals :=
  oldVals_foldl (fun a e => by split; exacts [h a e, rfl]) _ c

@[simp] theorem oldVals_bundle (c : LCore) (d x : Nat) (w : Int) : (c.bundle d x w).oldVals = c.oldVals := by
  unfold bundle
  extract_lets sew lo hi one r n o
  have hone : ∀ (l : List Nat) (a : LCore × Bool), (l.foldl one a).1.oldVals = a.1.oldVals := fun l => by
    induction l with
    | nil => exact fun _ => rfl
    | cons i l ih => exact fun a => (ih _).trans (oldVals_setVal ..)
  exact hone _ _

end LCore

/-! ## What a member that reaches no memory does: to each active element, or once its convoy completes (R237, R241) -/

/-- The two forms of the effect of a member that reaches no memory. -/
inductive Effect
  | each (m : Bool) (g : LCore → Nat → LCore)
  | whole (g : Nat → LCore → LCore)

/-- The effect in a window. -/
def Effect.run : Effect → Window → State → State
  | .each m g => elementwise m g
  | .whole g => wholeResult g

/-- The effect leaves the old values that are outstanding. -/
def Effect.KeepsOld : Effect → Prop
  | .each _ g => ∀ c e, (g c e).oldVals = c.oldVals
  | .whole g => ∀ vl c, (g vl c).oldVals = c.oldVals

/-- It waits for the completion of its convoy. -/
def Effect.isWhole : Effect → Bool
  | .each _ _ => false
  | .whole _ => true

section
variable {e : Effect} {s : State} {w : Window}

theorem Effect.oldVals_run (h : e.KeepsOld) : (e.run w s).lc.oldVals = s.lc.oldVals := by
  cases e with
  | each m g =>
    unfold run elementwise
    rw [State.lc_setLc]
    exact LCore.oldVals_forActive h ..
  | whole g =>
    simp only [run, wholeResult]
    split
    · rw [State.lc_setLc]
      exact h ..
    · rfl

/-- A whole-result member does nothing before its convoy completes. -/
theorem Effect.run_partial (h : e.isWhole = true) (hw : w.whole = false) : e.run w s = s := by
  cases e with
  | each m g => cases h
  | whole g => simp [run, wholeResult, hw]

/-- The effect asks nothing of the window that the state holds. -/
theorem Effect.run_win (v : Option Window) : e.run w { s with win := v } = { e.run w s with win := v } := by
  cases e with
  | each m g => rfl
  | whole g =>
    simp only [run, wholeResult]
    split <;> rfl

theorem Effect.win_run : (e.run w s).win = s.win := by
  cases e with
  | each m g => rfl
  | whole g =>
    simp only [run, wholeResult]
    split <;> rfl

end

/-- An instruction that has an effect of one of the two forms, and leaves the old values. -/
def ActsBy (i : Instr) (e : Effect) : Prop := (∀ s, exec i s = member i e.run s) ∧ e.KeepsOld

theorem acts_each {i : Instr} {m : Bool} {g : LCore → Nat → LCore} (he : ∀ s, exec i s = member i (elementwise m g) s)
    (h : ∀ c e, (g c e).oldVals = c.oldVals) : ∃ e : Effect, ActsBy i e ∧ false = e.isWhole := ⟨.each m g, ⟨he, h⟩, rfl⟩

theorem acts_whole {i : Instr} {g : Nat → LCore → LCore} (he : ∀ s, exec i s = member i (wholeResult g) s)
    (h : ∀ vl c, (g vl c).oldVals = c.oldVals) : ∃ e : Effect, ActsBy i e ∧ true = e.isWhole := ⟨.whole g, ⟨he, h⟩, rfl⟩

/-- What a member that reaches no memory does. -/
theorem State.actsBy_of_memberOf {s : State} {i : Instr} {x : Member} (h : s.memberOf i = some x) (hp : Pipe.memory ∉ x.pipes) :
    ∃ e : Effect, ActsBy i e ∧ x.whole = e.isWhole := by
  cases i with
  | vadd f | vsub f | vmul f | vmulh f | vmin f | vmax f | vminn f | vmaxn f | vsadd f | vssub f | vand f | vor f | vxor f
  | vsll f | vsrl f | vsra f | vmerge f | vaddScalar f | vsubScalar f | vmulScalar f | vmulhScalar f | vminScalar f
  | vmaxScalar f | vminnScalar f | vmaxnScalar f | vsaddScalar f | vssubScalar f | vandScalar f | vorScalar f
  | vxorScalar f | vsllScalar f | vsrlScalar f | vsraScalar f | vmergeScalar f | vpopc f | vclz f | vid f | vmvs f =>
    cases h
    exact acts_each (fun _ => rfl) fun _ _ => LCore.oldVals_setVal ..
  | vfadd f | vfsub f | vfmul f | vfdiv f | vfmin f | vfmax f | vfma f | vfnma f | vfaddScalar f | vfsubScalar f | vfmulScalar f
  | vfdivScalar f | vfminScalar f | vfmaxScalar f | vfmaScalar f | vfnmaScalar f | vfsqrt f | vfabs f | vfneg f | vfexp2 f
  | vflog2 f | vfrsq f | vfrcp f =>
    cases h
    exact acts_each (fun _ => rfl) fun _ _ => LCore.oldVals_putFp ..
  | vcvt f =>
    cases h
    exact acts_each (fun _ => rfl) fun _ _ => LCore.oldVals_putNarrowed ..
  | vcmpeq f | vcmpne f | vcmplt f | vcmple f | vcmpltn f | vcmplen f | vcmpeqScalar f | vcmpneScalar f | vcmpltScalar f
  | vcmpleScalar f | vcmpltnScalar f | vcmplenScalar f | kand f | kor f | kxor f | knot f | kmov f =>
    cases h
    exact acts_each (fun _ => rfl) fun _ _ => LCore.oldVals_setKbit ..
  | vfcmpeq f | vfcmplt f | vfcmple f | vfcmpeqScalar f | vfcmpltScalar f | vfcmpleScalar f =>
    cases h
    exact acts_each (fun _ => rfl) fun _ _ => LCore.oldVals_putCmp ..
  | vmvx f | kffs f | kpopc f | vredsum f | vredmax f | vredmin f | vargmax f | hvsim f | vfredsum f | vfredmax f | vfredmin f =>
    cases h
    exact acts_whole (fun _ => rfl) fun _ _ => LCore.oldVals_wr ..
  | vslideup f | vslidedn f | vrgath f | vspsel f | vconfl f =>
    cases h
    exact acts_whole (fun _ => rfl) fun _ _ => LCore.oldVals_permuted ..
  | vcmpr f =>
    cases h
    exact acts_whole (fun _ => rfl) fun _ _ => LCore.oldVals_foldl (fun _ _ => LCore.oldVals_setVal ..) ..
  | vfcomb f =>
    cases h
    exact acts_whole (fun _ => rfl) fun _ _ => LCore.oldVals_foldl (fun _ _ => by dsimp only; split <;> simp) ..
  | hvbind f | hvperm f | hvmaj f =>
    cases h
    exact acts_whole (fun _ => rfl) fun _ _ => LCore.oldVals_putHv ..
  | hvbund f =>
    cases h
    exact acts_whole (fun _ => rfl) fun _ _ => by dsimp only; split <;> simp
  | capp f | vldp f | vstp f | vld f | vlds f | vldx f | vldt f | vldff f | vldv f | vst f | vsts f | vstx f | vstt f | vstv f
  | vldxa f | vstxr f | vamoadd f | vamomin f | vamomax f | vamoswp f =>
    cases h
    exact absurd (List.mem_cons_self ..) hp
  | _ => cases h

/-! ## What a member that reaches memory does to the old values -/

namespace State

@[simp] theorem lc_dropLines (s : State) (n : Nat) (l : List Nat) : (s.dropLines n l).lc = s.lc := (SameThreads.dropLines s n l).lc_eq
@[simp] theorem lc_write (s : State) (l : List (Nat × Byte)) : (s.write l).lc = s.lc := (SameThreads.write s l).lc_eq
@[simp] theorem lc_merged (s : State) (keys whole : List Nat) : (s.merged keys whole).lc = s.lc := (SameThreads.merged s keys whole).lc_eq
@[simp] theorem lc_poke (s : State) (l : List (Nat × Byte)) : (s.poke l).lc = s.lc := rfl
@[simp] theorem lc_writeBack (s : State) (l : List (Nat × Byte)) : (s.writeBack l).lc = s.lc := rfl
@[simp] theorem lc_dropCache (s : State) (n : Nat) : (s.dropCache n).lc = s.lc := rfl
@[simp] theorem lc_setCmds (s : State) (p : Nat) (l : List Cmd) : (s.setCmds p l).lc = s.lc := rfl

theorem oldVals_foldl {α : Type} {f : State → α → State} (h : ∀ s a, (f s a).lc.oldVals = s.lc.oldVals) (l : List α) (s : State) :
    (l.foldl f s).lc.oldVals = s.lc.oldVals := by
  induction l generalizing s with
  | nil => rfl
  | cons a l ih => exact (ih _).trans (h s a)

end State

namespace VMemOp

@[simp] theorem oldVals_complete (o : VMemOp) (c : LCore) (e : Nat) (b : Bool) : (o.complete c e b).oldVals = c.oldVals := by
  unfold complete
  split
  · split
    · exact LCore.oldVals_setKbit ..
    · rfl
  · rfl

@[simp] theorem oldVals_loadIn (o : VMemOp) (w : Window) (c : LCore) : (o.loadIn w c).oldVals = c.oldVals := by
  unfold loadIn
  refine LCore.oldVals_forActive (fun c e => ?_) c w o.m
  split
  · simp
  · split
    · simp
    · rfl

theorem oldVals_storeElem (o : VMemOp) (s : State) (e : Nat) (keys : List Nat) : (o.storeElem s e keys).lc.oldVals = s.lc.oldVals := by
  simp [storeElem]

theorem oldVals_storeBlock (o : VMemOp) (w : Window) (s : State) (blk : Nat) (keys : List Nat) :
    (o.storeBlock w s blk keys).lc.oldVals = s.lc.oldVals := by
  unfold storeBlock
  dsimp only
  rw [State.lc_setLc, LCore.oldVals_foldl, State.lc_dropLines, State.lc_poke]
  intro c e
  split
  · split <;> simp
  · rfl

theorem oldVals_storeBytes (o : VMemOp) (w : Window) (s : State) : (o.storeBytes w s).lc.oldVals = s.lc.oldVals := by
  unfold storeBytes
  dsimp only
  split
  · rw [State.lc_setLc, LCore.oldVals_foldl fun c e => oldVals_complete o c e false]
    exact State.oldVals_foldl (fun s p => oldVals_storeBlock ..) _ s
  · refine State.oldVals_foldl (fun s e => ?_) _ s
    split
    · exact oldVals_storeElem ..
    · simp

theorem oldVals_storeIn (o : VMemOp) (w : Window) (s : State) : (o.storeIn w s).lc.oldVals = s.lc.oldVals := by
  unfold storeIn
  exact (State.oldVals_foldl (fun s l => by rw [State.lc_merged]) _ _).trans (oldVals_storeBytes o w s)

/-- No atomic but VAMOSWP has an old value on its way (R170, R172). -/
theorem oldVals_atomicIn (o : VMemOp) {op : AtomOp} (hop : op ≠ .swp) (w : Window) (s : State) :
    (o.atomicIn op w s).lc.oldVals = s.lc.oldVals := by
  unfold atomicIn
  refine State.oldVals_foldl (fun s e => ?_) _ s
  split
  · rfl
  · simp [hop]

end VMemOp

namespace State

theorem oldVals_vldxaIn (f : VMF) (w : Window) (s : State) : (vldxaIn f w s).lc.oldVals = s.lc.oldVals := by
  unfold vldxaIn
  split
  · rfl
  · dsimp only
    split
    all_goals simp [LCore.oldVals_foldl]

theorem oldVals_popIn (s : State) (p d : Nat) (m : Bool) (w : Window) : (s.popIn p d m w).lc.oldVals = s.lc.oldVals := by
  unfold popIn
  dsimp only
  split
  · rfl
  · rw [lc_setCmds, lc_setLc]
    refine LCore.oldVals_foldl (fun c x => ?_) _ s.lc
    split
    · split
      · exact LCore.oldVals_putFp ..
      · rfl
    · rfl

theorem oldVals_pushIn (s : State) (p r : Nat) (m : Bool) (w : Window) : (s.pushIn p r m w).lc.oldVals = s.lc.oldVals := by
  unfold pushIn
  dsimp only
  split
  · rfl
  · rw [lc_setCmds, lc_setLc]
    generalize hl : rangeFrom w.lo w.hi = l
    suffices h : ∀ a : LCore × List PortElem, (l.foldl _ a).1.oldVals = a.1.oldVals from h _
    clear hl
    induction l with
    | nil => exact fun _ => rfl
    | cons e l ih =>
      intro a
      rw [List.foldl_cons, ih]
      split
      · rfl
      · split
        · rfl
        · simp

/-- An event flag is all that a signal changes of a thread (R270, R271). -/
theorem oldVals_signal (s : State) (launch : Nat) (lcore : Option Nat) : (s.signal launch lcore).lc.oldVals = s.lc.oldVals := by
  have hmap : ∀ (l : FMap HThread) (f : Nat × HThread → Nat × HThread), (∀ t, (f t).1 = t.1 ∧ (f t).2.lc.oldVals = t.2.lc.oldVals) →
      ((FMap.get? (l.map f) s.cur).getD .idle).lc.oldVals = ((FMap.get? l s.cur).getD .idle).lc.oldVals := fun l f hf => by
    induction l with
    | nil => rfl
    | cons t l ih =>
      obtain ⟨hkey, hold⟩ := hf t
      simp only [List.map_cons, FMap.get?, hkey]
      split
      · exact hold
      · exact ih
  unfold signal
  extract_lets hit
  exact hmap s.threads _ fun t => by split <;> exact ⟨rfl, rfl⟩

theorem oldVals_cappIn (m : Bool) (w : Window) (s : State) : (cappIn m w s).lc.oldVals = s.lc.oldVals := by
  unfold cappIn
  split
  · rfl
  split
  · rfl
  dsimp only
  split
  · rw [oldVals_signal]
    simp
  · simp

end State

/-- CAPP does nothing before its convoy completes (R306). -/
theorem cappIn_partial {m : Bool} {w : Window} {s : State} (hw : w.whole = false) : cappIn m w s = s := by
  unfold cappIn
  split
  · rfl
  · simp [hw]

/-- What a member that reaches memory does: VAMOSWP alone leaves an old value to arrive. -/
theorem State.memory_memberOf {s : State} {i : Instr} {x : Member} (h : s.memberOf i = some x) (hp : Pipe.memory ∈ x.pipes)
    (hs : ∀ f, i ≠ .vamoswp f) :
    ∃ eff : Window → State → State, (∀ t, exec i t = member i eff t) ∧ (∀ w t, (eff w t).lc.oldVals = t.lc.oldVals)
      ∧ (x.whole = true → ∀ w t, w.whole = false → eff w t = t) := by
  cases i with
  | vld f | vlds f | vldx f | vldt f | vldff f | vldv f =>
    cases h
    exact ⟨_, fun _ => rfl, fun w t => by simp [memOp], nofun⟩
  | vst f | vsts f | vstx f | vstt f | vstv f | vstxr f =>
    cases h
    exact ⟨_, fun _ => rfl, fun w t => VMemOp.oldVals_storeIn .., nofun⟩
  | vldxa f =>
    cases h
    exact ⟨_, fun _ => rfl, fun w t => State.oldVals_vldxaIn .., nofun⟩
  | vamoadd f | vamomin f | vamomax f =>
    cases h
    exact ⟨_, fun _ => rfl, fun w t => VMemOp.oldVals_atomicIn _ (by split <;> simp [atomicMember.floatOp]) .., nofun⟩
  | vldp f =>
    cases h
    exact ⟨_, fun _ => rfl, fun w t => State.oldVals_popIn .., nofun⟩
  | vstp f =>
    cases h
    exact ⟨_, fun _ => rfl, fun w t => State.oldVals_pushIn .., nofun⟩
  | capp f =>
    cases h
    exact ⟨_, fun _ => rfl, fun w t => State.oldVals_cappIn .., fun _ w t hw => cappIn_partial hw⟩
  | vamoswp f => exact absurd rfl (hs f)
  | _ => cases h <;> simp [memVVV, memVVG, memVV, memCmp, memRed, memK, memKG, memCvt, Member.permute, Member.hv] at hp

/-! ## The plan of a memory member leaves the old values -/

namespace State

variable {s t : State}

theorem oldVals_reclaim {p : Nat} (h : s.reclaim p = some t) : t.lc.oldVals = s.lc.oldVals := by
  unfold reclaim claim at h
  split at h
  · cases h; rfl
  · dsimp only at h
    split at h <;> cases h
    rw [lc_setLc]

theorem oldVals_runsThrough (s : State) : s.runsThrough.lc.oldVals = s.lc.oldVals := by
  unfold runsThrough lc
  exact congrArg (fun t => t.lc.oldVals) (thr_setThr_same ..)

theorem oldVals_withdrawFrom (s : State) (c : LCore) (f : Nat) : (s.withdrawFrom c f).lc.oldVals = s.lc.oldVals := by
  unfold withdrawFrom lc
  exact congrArg (fun t => t.lc.oldVals) (thr_setThr_same ..)

theorem oldVals_spanWait (s : State) (o : VMemOp) (c : LCore) (op : SpanOp) : (s.spanWait o c op).1.lc.oldVals = s.lc.oldVals := by
  unfold spanWait
  dsimp only
  split
  · split
    · rfl
    · exact oldVals_runsThrough s
  · split
    · exact oldVals_withdrawFrom ..
    · rfl

/-- An access without packets under way leaves the threads. -/
theorem SameThreads.accessPlan (s : State) (o : VMemOp) (c : LCore) : s.SameThreads (s.accessPlan o c).1 := by
  unfold State.accessPlan
  extract_lets sew group early vl
  have hprobe := probeFrom s o c vl
  have hread : ∀ {v u : State} {l : List (Nat × List Nat)} {r : Option (List (Nat × List Byte))},
      (if (o.load || o.acc == .rmw) = true then Machine.readAll group l v else (v, some [])) = (u, r) → v.SameThreads u := fun {v u l r} h => by
    split at h
    · have hall := readAll group l v
      rwa [h] at hall
    · cases h; exact refl v
  clear_value early vl
  cases early with
  | some e => exact refl s
  | none =>
    dsimp only
    split
    case h_1 hp | h_3 hp => rwa [hp] at hprobe
    case h_2 hp =>
      rw [hp] at hprobe
      refine hprobe.trans ?_
      split
      case h_1 hr | h_2 hr => exact hread hr
    case h_4 hp =>
      rw [hp] at hprobe
      refine hprobe.trans ?_
      split
      · exact ⟨rfl, rfl⟩
      · split
        case h_1 hr | h_2 hr => exact hread hr

theorem oldVals_vmemPlan (s : State) (o : VMemOp) (c : LCore) : (s.vmemPlan o c).1.lc.oldVals = s.lc.oldVals := by
  unfold vmemPlan
  split
  · exact oldVals_spanWait ..
  · rw [(SameThreads.accessPlan s o c).lc_eq]

theorem SameThreads.cappPlan (s : State) (addr : Word) (m : Bool) (c : LCore) : s.SameThreads (s.cappPlan addr m c).1 := by
  unfold State.cappPlan
  extract_lets vl k fault
  have hfault : ∀ (v : State) (e : Stop), v.SameThreads (fault v e).1 := fun v e => by
    dsimp only [fault]
    split <;> exact refl v
  clear_value fault
  split
  · exact refl s
  split
  · exact refl s
  split
  · exact hfault ..
  split
  · exact hfault ..
  split
  case h_1 hx => exact (span hx).trans (hfault ..)
  case h_2 hx =>
    refine (span hx).trans ?_
    split
    case h_1 hl => exact (load hl).trans (hfault ..)
    case h_2 l _ v b hl =>
      refine (load hl).trans ((dropLines v v.core (l.map (·.key))).trans ?_)
      dsimp only
      split
      · exact hfault ..
      split
      · exact hfault ..
      split
      case h_1 he => exact (cappEntries he).trans (hfault ..)
      case h_2 he => exact cappEntries he

theorem oldVals_portPlan (s : State) (word : IWord) (p : Nat) (write : Bool) : (s.portPlan word p write).1.lc.oldVals = s.lc.oldVals := by
  unfold portPlan
  extract_lets vl vs
  split
  · rfl
  split
  · rfl
  rename_i v hv
  have hold := oldVals_reclaim hv
  extract_lets cmds
  split
  · exact hold
  split
  · exact hold
  extract_lets n complete
  split
  · exact hold
  split
  · exact hold
  split <;> exact hold

/-- Before anything commits, no old value arrives and none is on its way (R172). -/
theorem oldVals_planOf (s : State) (i : Instr) (c : LCore) : (s.planOf i c).1.lc.oldVals = s.lc.oldVals := by
  unfold planOf
  split
  · exact oldVals_portPlan ..
  · exact oldVals_portPlan ..
  · rw [(SameThreads.cappPlan s _ _ c).lc_eq]
  · split
    · rfl
    · split
      · rfl
      · exact oldVals_vmemPlan ..

end State

/-! # The issue of a convoy (R78, R236 to R242) -/

/-- A member's word is that of its instruction. -/
theorem State.word_memberOf {s : State} {i : Instr} {x : Member} (h : s.memberOf i = some x) : x.word = encode i := by
  unfold State.memberOf at h
  split at h
  all_goals cases h
  all_goals rfl

/-! ## One member -/

section
variable {s : State} {i : Instr} {w : Window} {x : Member} {e : Effect}

/-- In a window a member has its effect, whatever it is. -/
theorem runMember_eq {eff : Window → State → State} (h : ∀ t, exec i t = member i eff t) :
    runMember exec i w s = { eff w { s with win := some w } with win := none } := by
  simp [runMember, h, member_window]

theorem runMember_effect (h : ActsBy i e) (hw : s.win = none) : runMember exec i w s = e.run w s := by
  have hwin : (e.run w s).win = none := Effect.win_run.trans hw
  rw [runMember_eq h.1, Effect.run_win, ← hwin]

/-- Of the members only VAMOSWP leaves an old value to arrive. -/
theorem oldVals_runMember {u : State} (hx : u.memberOf i = some x) (hs : ∀ f, i ≠ .vamoswp f) (w : Window) (t : State) :
    (runMember exec i w t).lc.oldVals = t.lc.oldVals := by
  by_cases hp : Pipe.memory ∈ x.pipes
  · obtain ⟨eff, hex, hold, -⟩ := State.memory_memberOf hx hp hs
    rw [runMember_eq hex]
    exact hold w { t with win := some w }
  · obtain ⟨e, ⟨hex, hold⟩, -⟩ := State.actsBy_of_memberOf hx hp
    rw [runMember_eq hex]
    exact Effect.oldVals_run (s := { t with win := some w }) hold

/-- A whole-result member waits for the completion of its convoy (R237, R241). -/
theorem runMember_partial (hx : s.memberOf i = some x) (hwin : s.win = none) (hwhole : x.whole = true) (hw : w.whole = false) :
    runMember exec i w s = s := by
  have hback : ({ { s with win := some w } with win := none } : State) = s := by rw [← hwin]
  by_cases hp : Pipe.memory ∈ x.pipes
  · have hs : ∀ f, i ≠ .vamoswp f := by
      rintro f rfl
      cases hx
      cases hwhole
    obtain ⟨eff, hex, -, hpart⟩ := State.memory_memberOf hx hp hs
    rw [runMember_eq hex, hpart hwhole w _ hw, hback]
  · obtain ⟨e, hact, he⟩ := State.actsBy_of_memberOf hx hp
    rw [runMember_effect hact hwin, Effect.run_partial (he.symm.trans hwhole) hw]

end

/-! ## The members in program order -/

section
variable {run : Instr → Window → State → State} {w : Window} {ms : List Instr}

/-- With no old value outstanding none arrives between members: each acts on what those before it left (R236). -/
theorem runAll_eq_foldl (h : ∀ i ∈ ms, ∀ t, (run i w t).lc.oldVals = t.lc.oldVals) {s : State} (hs : s.lc.oldVals = []) :
    runAll run w ms s = ms.foldl (fun v i => run i w v) s := by
  induction ms generalizing s with
  | nil => rfl
  | cons i ms ih =>
    have ht : (run i w s).lc.oldVals = [] := (h i (List.mem_cons_self ..) s).trans hs
    cases ms with
    | nil => rfl
    | cons j ms =>
      have hno : ∀ regs, (run i w s).lc.awaits regs = false := fun regs => by simp [LCore.awaits, ht]
      rw [runAll]
      · simp only [hno]
        exact ih (fun i hi => h i (List.mem_cons_of_mem _ hi)) ht
      · simp

end

/-! ## Where a stop request ends a convoy (R241, R427) -/

section
variable {v : State} {vl e : Nat}

theorem State.convoyStop_whole_iff : v.convoyStop vl none = some e ↔ ∃ j, (v.thr v.cur).stopAsked = some j
    ∧ max v.lc.vstart.toNat ((v.lc.vstart.toNat / Vtype.groupOf (Vtype.c v.lc.vtype) + j) * Vtype.groupOf (Vtype.c v.lc.vtype))
      ≤ (vl + Vtype.groupOf (Vtype.c v.lc.vtype) - 1) / Vtype.groupOf (Vtype.c v.lc.vtype) * Vtype.groupOf (Vtype.c v.lc.vtype)
    ∧ e = max v.lc.vstart.toNat
      (min (max v.lc.vstart.toNat ((v.lc.vstart.toNat / Vtype.groupOf (Vtype.c v.lc.vtype) + j) * Vtype.groupOf (Vtype.c v.lc.vtype))) vl) := by
  simp only [State.convoyStop, State.groupEnd, Option.map_eq_some_iff, Option.filter_eq_some_iff, decide_eq_true_eq]
  constructor
  · rintro ⟨_, ⟨⟨j, hj, rfl⟩, hle⟩, rfl⟩
    exact ⟨j, hj, hle, rfl⟩
  · rintro ⟨j, hj, hle, rfl⟩
    exact ⟨_, ⟨⟨j, hj, rfl⟩, hle⟩, rfl⟩

theorem State.convoyStop_trap_iff {f : Nat} {why : Stop} : v.convoyStop vl (some (f, why)) = some e ↔
    ∃ j, (v.thr v.cur).stopAsked = some j
      ∧ max v.lc.vstart.toNat ((v.lc.vstart.toNat / Vtype.groupOf (Vtype.c v.lc.vtype) + j) * Vtype.groupOf (Vtype.c v.lc.vtype)) < f
      ∧ e = max v.lc.vstart.toNat ((v.lc.vstart.toNat / Vtype.groupOf (Vtype.c v.lc.vtype) + j) * Vtype.groupOf (Vtype.c v.lc.vtype)) := by
  simp only [State.convoyStop, State.stopAt, State.groupEnd, Option.map_eq_some_iff, Option.filter_eq_some_iff, decide_eq_true_eq]
  constructor
  · rintro ⟨⟨j, hj, rfl⟩, hlt⟩
    exact ⟨j, hj, hlt, rfl⟩
  · rintro ⟨j, hj, hlt, rfl⟩
    exact ⟨⟨j, hj, rfl⟩, hlt⟩

end

/-! ## The issue of members whose checks are known -/

section
variable {u : State} {b : Option Nat} {ms : List Instr} {xs : List Member} {run : Instr → Window → State → State}

theorem filterMap_of_map_some {α β : Type} {f : α → Option β} {l : List α} {m : List β} (h : l.map f = m.map some) : l.filterMap f = m := by
  have h' := congrArg (List.filterMap id) h
  simpa [List.filterMap_map] using h'

/-- A failing check traps before anything commits (R78, R236). -/
theorem issueGroup_fails {n k : Nat} {x : Member} {i : Instr} (hm : ms.map u.memberOf = xs.map some)
    (harr : u.lc.awaits (xs.flatMap (·.groups)) = false) (hx : xs[k]? = some x) (hi : ms[k]? = some i) (hf : Fails u.lc b xs n k x)
    (hmin : ∀ y ∈ xs.zipIdx, ∀ m, m ≤ n → m < n ∨ y.2 < k → ¬ Fails u.lc b xs m y.2 y.1) :
    issueGroup b ms run u = .next (u.deliver ⟨checkCause n, (encode i).setWidth 64, BitVec.ofNat 2 k, u.lc.pc, u.lc.vstart⟩) := by
  have hix : u.memberOf i = some x := by
    have h := congrArg (·[k]?) hm
    simpa [hx, hi] using h
  have hword : ((xs[k]?.map Member.word).getD 0).setWidth 64 = (encode i).setWidth 64 := by simp [hx, State.word_memberOf hix]
  simp only [issueGroup, filterMap_of_map_some hm, harr, issueCheck_of_fails hx hf hmin, hword]
  rfl

theorem issueGroup_passes (hm : ms.map u.memberOf = xs.map some) (harr : u.lc.awaits (xs.flatMap (·.groups)) = false)
    (hnone : ∀ y ∈ xs.zipIdx, ∀ m, m ≤ 7 → ¬ Fails u.lc b xs m y.2 y.1) (hfree : u.Free (xs.flatMap (·.gs))) :
    issueGroup b ms run u = runGroup ms xs run (u.seen (xs.flatMap (·.gs))) := by
  simp only [issueGroup, filterMap_of_map_some hm, harr, issueCheck_none hnone]
  exact scalar_free hfree

theorem runGroup_noMemory {s : State} (h : ∀ x ∈ xs, Pipe.memory ∉ x.pipes) :
    runGroup ms xs run s = runWindow ms run 0 s.lc.vl none [] [] none s := by
  have hidx : xs.findIdx? (fun x => x.pipes.contains .memory) = none := by simpa [List.findIdx?_eq_none_iff] using h
  simp only [runGroup, hidx]

/-- Check 6 lets one member reach memory (R235). -/
theorem findIdx?_memory {c : LCore} {k : Nat} {x : Member} (hnone : ∀ y ∈ xs.zipIdx, ∀ m, m ≤ 7 → ¬ Fails c b xs m y.2 y.1)
    (hx : xs[k]? = some x) (hp : Pipe.memory ∈ x.pipes) : xs.findIdx? (fun x => x.pipes.contains .memory) = some k := by
  obtain ⟨hk, hxk⟩ := List.getElem?_eq_some_iff.mp hx
  rw [List.findIdx?_eq_some_iff_getElem]
  refine ⟨hk, by simpa [hxk] using hp, fun j hj hmem => hnone (x, k) (List.mk_mem_zipIdx_iff_getElem?.mpr hx) 6 (by decide) ?_⟩
  have hmem' : xs[j] ∈ (xs.take k).filter fun y => y.pipes.contains Pipe.memory :=
    List.mem_filter.mpr ⟨List.mem_take_iff_getElem.mpr ⟨j, by omega, rfl⟩, hmem⟩
  have hpos := List.length_pos_of_mem hmem'
  have hlen : 1 < ((xs.take (k + 1)).filter fun y => y.pipes.contains Pipe.memory).length := by
    have hlast : (x :: []).filter (fun y => y.pipes.contains Pipe.memory) = [x] := by simp [hp]
    rw [List.take_add_one, hx, List.filter_append, Option.toList_some, hlast, List.length_append, List.length_singleton]
    omega
  exact .inr (.inr (.inl ⟨rfl, .inr (.inl ⟨.memory, hp, by simpa using hlen⟩)⟩))

theorem runGroup_memory {s t : State} {k vl : Nat} {i : Instr} {stop : Option (Nat × Stop)} {places : List (Nat × List Nat)}
    {data : List (Nat × List Byte)} (hk : xs.findIdx? (fun x => x.pipes.contains .memory) = some k) (hi : ms[k]? = some i)
    (hplan : s.planOf i (runAll run ⟨s.lc.vstart.toNat, s.lc.vl, s.lc.vl, false, [], [], none⟩ (ms.take k) s).lc
      = (t, .run vl stop places data)) :
    runGroup ms xs run s = runWindow ms run k vl stop places data (s.recordOf i) t := by
  have hget : ms.getD k .leaveGrant = i := by simp [List.getD_eq_getElem?_getD, hi]
  simp only [runGroup, hk, hget, hplan]

end

/-! ## The window of a convoy: completion, a stop, a trap (R241) -/

section
variable {ms : List Instr} {run : Instr → Window → State → State} {k vl : Nat} {places : List (Nat × List Nat)}
  {data : List (Nat × List Byte)} {shape : Option Shape} {s : State}

theorem runWindow_completes (h : s.convoyStop vl none = none) :
    runWindow ms run k vl none places data shape s
      = (let z := runAll run ⟨s.lc.vstart.toNat, vl, vl, true, places, data, shape⟩ ms s
         .next (z.setLc (z.lc.finish ms.length vl))) := by
  simp only [runWindow, h]

theorem runWindow_stops {stop : Option (Nat × Stop)} {e : Nat} (h : s.convoyStop vl stop = some e) :
    runWindow ms run k vl stop places data shape s
      = (let z := runAll run ⟨s.lc.vstart.toNat, e, vl, false, places, data, shape⟩ ms s
         .next (z.setLc { z.lc with vl := vl, vstart := BitVec.ofNat 13 e })) := by
  simp only [runWindow, h]

theorem runWindow_traps {f : Nat} {cause : Cause} {tval : Word} (h : s.convoyStop vl (some (f, .trap cause tval)) = none) :
    runWindow ms run k vl (some (f, .trap cause tval)) places data shape s
      = (let z := runAll run ⟨s.lc.vstart.toNat, f, vl, false, places, data, shape⟩ ms s
         .next ((z.setLc { z.lc with vl := vl }).deliver ⟨cause, tval, BitVec.ofNat 2 k, z.lc.pc, BitVec.ofNat 13 f⟩)) := by
  simp only [runWindow, h, State.stopped, State.lc_setLc]

end

/-! ## A convoy of one that reaches no memory -/

theorem scalar_congr {gs : List Reg} {s : State} {k k' : State → Host.Outcome State Fault Refusal} (h : k (s.seen gs) = k' (s.seen gs)) :
    scalar gs s k = scalar gs s k' := by
  unfold scalar
  split
  · rfl
  · rfl
  · exact h

/-- By itself or as the one member of a convoy, it does the same. -/
theorem exec_eq_issueGroup {s : State} {i : Instr} {x : Member} (hx : s.memberOf i = some x) (hwin : s.win = none)
    (hp : Pipe.memory ∉ x.pipes) : exec i s = issueGroup none [i] (runMember exec) s := by
  obtain ⟨e, hact, -⟩ := State.actsBy_of_memberOf hx hp
  have hm : [i].map s.memberOf = [x].map some := by simp [hx]
  have hseen : (s.seen ([x].flatMap (·.gs))).win = none := (congrArg State.win State.seen_frame).trans hwin
  have hrun : ∀ w, runAll (fun _ w s => e.run w s) w [i] (s.seen ([x].flatMap (·.gs)))
      = runAll (runMember exec) w [i] (s.seen ([x].flatMap (·.gs))) := fun w => (runMember_effect hact hseen).symm
  have hgroup : runGroup [i] [x] (fun _ w s => e.run w s) (s.seen ([x].flatMap (·.gs)))
      = runGroup [i] [x] (runMember exec) (s.seen ([x].flatMap (·.gs))) := by
    rw [runGroup_noMemory (by simpa using hp), runGroup_noMemory (by simpa using hp)]
    simp only [runWindow, hrun]
  rw [hact.1]
  simp only [member, hwin, issueGroup, filterMap_of_map_some hm, scalar_congr hgroup]

/-! ## The checks and the window together -/

/-- Settles O20: `issueGroup_fails` for a check that fails; otherwise the members run in order over the window that the plan
gives (`issueGroup_passes`, `runAll_eq_foldl`, `runWindow_completes`, `runWindow_stops`, `runWindow_traps`). -/
theorem vectorCheckTraps : Obligations.VectorCheckTraps := by
  unfold Obligations.VectorCheckTraps
  refine ⟨fun u b ms xs hm harr => ⟨fun n k x i hx hi hf hmin => issueGroup_fails hm harr hx hi hf hmin, ?_⟩,
    fun i x s hx hwin => ⟨fun hwhole w hw => runMember_partial hx hwin hwhole hw, exec_eq_issueGroup hx hwin⟩⟩
  intro hnone hfree hold hswp a lo done groupEnd stopsAt ends
  have hrun : issueGroup b ms (runMember exec) u = runGroup ms xs (runMember exec) a := issueGroup_passes hm harr hnone hfree
  have holda : a.lc.oldVals = [] := by
    obtain ⟨l, hl⟩ := State.lc_seen (s := u) (gs := xs.flatMap (·.gs))
    rw [hl]
    exact hold
  have hkeep : ∀ i ∈ ms, ∀ w t, (runMember exec i w t).lc.oldVals = t.lc.oldVals := fun i hi => by
    have hmem : u.memberOf i ∈ xs.map some := hm ▸ List.mem_map_of_mem hi
    obtain ⟨x, -, hx⟩ := List.mem_map.mp hmem
    exact oldVals_runMember hx.symm fun f hf => hswp f (hf ▸ hi)
  have hdone : ∀ {l v} w, (∀ i ∈ l, i ∈ ms) → v.lc.oldVals = [] → runAll (runMember exec) w l v = done w l v :=
    fun w hl hv => runAll_eq_foldl (fun i hi => hkeep i (hl i hi) w) hv
  have hwhole : ∀ {v : State} {vl e : Nat}, v.convoyStop vl none = some e ↔ stopsAt v vl none e := State.convoyStop_whole_iff
  have htrap : ∀ {v : State} {vl f e : Nat} {why : Stop}, v.convoyStop vl (some (f, why)) = some e ↔ stopsAt v vl (some f) e :=
    State.convoyStop_trap_iff
  have hgoes : ∀ {v : State} {vl : Nat}, (∀ e, ¬ stopsAt v vl none e) → v.convoyStop vl none = none := fun h =>
    Option.eq_none_iff_forall_ne_some.mpr fun e he => h e (hwhole.mp he)
  refine ⟨fun hno hstop => ?_, fun e hno hstop => ?_, fun k i x v vl stop places data hi hx hp hplan => ?_⟩
  · rw [hrun, runGroup_noMemory hno, runWindow_completes (hgoes hstop), hdone _ (fun _ h => h) holda]
    rfl
  · rw [hrun, runGroup_noMemory hno, runWindow_stops (hwhole.mpr hstop), hdone _ (fun _ h => h) holda]
  · rw [← hdone _ (fun _ h => List.mem_of_mem_take h) holda] at hplan
    have holdv : v.lc.oldVals = [] := by
      have h := State.oldVals_planOf a i (runAll (runMember exec) ⟨lo, a.lc.vl, a.lc.vl, false, [], [], none⟩ (ms.take k) a).lc
      rw [hplan] at h
      exact h.trans holda
    rw [hrun, runGroup_memory (findIdx?_memory hnone hx hp) hi hplan]
    refine ⟨fun hstop hs => ?_, fun f cause tval hstop hs => ?_, fun e hstop => ?_⟩
    · rw [hs, runWindow_completes (hgoes hstop), hdone _ (fun _ h => h) holdv]
      rfl
    · have hnot : v.convoyStop vl (some (f, .trap cause tval)) = none :=
        Option.eq_none_iff_forall_ne_some.mpr fun e he => hstop e (htrap.mp he)
      rw [hs, runWindow_traps hnot, hdone _ (fun _ h => h) holdv]
    · have hat : v.convoyStop vl stop = some e := by
        cases stop with
        | none => exact hwhole.mpr hstop
        | some y => exact htrap.mpr hstop
      rw [runWindow_stops hat, hdone _ (fun _ h => h) holdv]

end Sys2Proof.Machine

/-! # One rounding (R141, R142): the function that performs it against what R141 asks -/

namespace Sys2Proof.Machine

/-! ## Magnitudes m·2^e, compared as natural numbers -/

theorem compare_mul_right {a b c : Nat} (hc : 0 < c) : compare (a * c) (b * c) = compare a b := by
  rcases Nat.lt_trichotomy a b with h | rfl | h
  · rw [compare_lt_iff_lt.mpr h, compare_lt_iff_lt.mpr (Nat.mul_lt_mul_of_pos_right h hc)]
  · rw [compare_eq_iff_eq.mpr rfl, compare_eq_iff_eq.mpr rfl]
  · rw [compare_gt_iff_gt.mpr h, compare_gt_iff_gt.mpr (Nat.mul_lt_mul_of_pos_right h hc)]

/-- x halves of 2^q against m·2^e, both scaled by the smaller power of two. -/
theorem dyadic_halves (m : Nat) (e : Int) (x : Nat) (q : Int) :
    (dyadic m e).halves x q = compare (x * 2 ^ (q - e).toNat) (2 * (m * 2 ^ (e - q).toNat)) := by
  obtain ⟨k, hk1, hk2⟩ : ∃ k, q.toNat + (-e).toNat = (q - e).toNat + k ∧ e.toNat + (-q).toNat = (e - q).toNat + k :=
    ⟨q.toNat + (-e).toNat - (q - e).toNat, by omega, by omega⟩
  calc (dyadic m e).halves x q = compare (x * 2 ^ (q.toNat + (-e).toNat)) (2 * (m * 2 ^ (e.toNat + (-q).toNat))) := by
        unfold dyadic ratio Cut.halves
        dsimp only
        congr 1 <;> rw [Nat.pow_add] <;> ring
    _ = compare (x * 2 ^ (q - e).toNat * 2 ^ k) (2 * (m * 2 ^ (e - q).toNat) * 2 ^ k) := by
        rw [hk1, hk2, Nat.pow_add, Nat.pow_add]
        congr 1 <;> ring
    _ = compare (x * 2 ^ (q - e).toNat) (2 * (m * 2 ^ (e - q).toNat)) := compare_mul_right (Nat.two_pow_pos k)

/-- n steps of 2^q against m·2^e, both counted in steps of 2^b. -/
theorem dyadic_halves_from {m n : Nat} {e q b : Int} (he : b ≤ e) (hq : b ≤ q) :
    (dyadic m e).halves (2 * n) q = compare (n * 2 ^ (q - b).toNat) (m * 2 ^ (e - b).toNat) := by
  obtain ⟨k, hk1, hk2⟩ : ∃ k, (q - b).toNat = (q - e).toNat + k ∧ (e - b).toNat = (e - q).toNat + k :=
    ⟨(q - b).toNat - (q - e).toNat, by omega, by omega⟩
  calc (dyadic m e).halves (2 * n) q = compare (n * 2 ^ (q - e).toNat * 2) (m * 2 ^ (e - q).toNat * 2) := by
        rw [dyadic_halves]
        congr 1 <;> ring
    _ = compare (n * 2 ^ (q - e).toNat) (m * 2 ^ (e - q).toNat) := compare_mul_right (by decide)
    _ = compare (n * 2 ^ (q - e).toNat * 2 ^ k) (m * 2 ^ (e - q).toNat * 2 ^ k) := (compare_mul_right (Nat.two_pow_pos k)).symm
    _ = compare (n * 2 ^ (q - b).toNat) (m * 2 ^ (e - b).toNat) := by
        rw [hk1, hk2, Nat.pow_add, Nat.pow_add, Nat.mul_assoc, Nat.mul_assoc]

/-- The leading bit of a magnitude that is not 0 (R141). -/
theorem dyadic_leads {m : Nat} {e t : Int} (h : (dyadic m e).Leads t) : m ≠ 0 ∧ t = (Nat.log2 m : Int) + e := by
  obtain ⟨hlow, hhigh⟩ := h
  rw [dyadic_halves, ne_eq, compare_gt_iff_gt, not_lt] at hlow
  rw [dyadic_halves, compare_gt_iff_gt] at hhigh
  have hm : m ≠ 0 := by
    rintro rfl
    simp at hlow
  have hle : e ≤ t := by
    by_contra hlt
    have h0 : (t + 1 - e).toNat = 0 := by omega
    rw [h0] at hhigh
    have hpos : 0 < m * 2 ^ (e - (t + 1)).toNat := Nat.mul_pos (Nat.pos_of_ne_zero hm) (Nat.two_pow_pos _)
    omega
  obtain ⟨k, rfl⟩ : ∃ k : Nat, t = k + e := ⟨(t - e).toNat, by omega⟩
  have h1 : ((k : Int) + e - e).toNat = k := by omega
  have h2 : (e - ((k : Int) + e)).toNat = 0 := by omega
  have h3 : ((k : Int) + e + 1 - e).toNat = k + 1 := by omega
  have h4 : (e - ((k : Int) + e + 1)).toNat = 0 := by omega
  rw [h1, h2] at hlow
  rw [h3, h4] at hhigh
  have hlog : Nat.log2 m = k := (Nat.log2_eq_iff hm).mpr ⟨by omega, by omega⟩
  exact ⟨hm, by rw [hlog]⟩

/-! ## Rounding a fraction M/D -/

/-- M/D rounded to an integer (R141), as `roundTo` does it: the quotient, or the next integer. -/
def roundQuot (M D : Nat) (neg : Bool) (rm : BitVec 2) : Nat :=
  let up : Bool := match rm.toNat with
    | 0 => decide (D < 2 * (M % D)) || (2 * (M % D) == D && M / D % 2 == 1)
    | 1 => false
    | 2 => neg && M % D != 0
    | _ => !neg && M % D != 0
  if up then M / D + 1 else M / D

section
variable {M D n : Nat} {neg : Bool} {rm : BitVec 2}

theorem roundQuot_bounds : M / D ≤ roundQuot M D neg rm ∧ roundQuot M D neg rm ≤ M / D + 1 := by
  unfold roundQuot
  extract_lets up
  split <;> simp

/-- A multiple is not rounded. -/
theorem roundQuot_exact (hD : 0 < D) (h : M % D = 0) : roundQuot M D neg rm = M / D := by
  have hne : (0 == D) = false := by simpa using hD.ne
  unfold roundQuot
  rw [h]
  split <;> simp [hne]

theorem mul_add_le_mul_of_lt {a b : Nat} (D : Nat) (h : a < b) : a * D + D ≤ b * D := by
  rw [← Nat.succ_mul]
  exact Nat.mul_le_mul_right D h

/-- The greatest integer below is the quotient. -/
theorem eq_quot_of_down (hlow : n * D ≤ M) (hhigh : M < (n + 1) * D) : n = M / D :=
  (Nat.div_eq_of_lt_le hlow hhigh).symm

/-- The least integer above is the quotient where it is exact, else the next one. -/
theorem eq_quot_of_up (hD : 0 < D) (hlow : M ≤ n * D) (hhigh : n = 0 ∨ (n - 1) * D < M) : n = if M % D != 0 then M / D + 1 else M / D := by
  have hM : M / D * D + M % D = M := Nat.div_add_mod' M D
  have hr := Nat.mod_lt M hD
  simp only [bne_iff_ne]
  generalize M / D = k at *
  generalize M % D = r at *
  have hge : k ≤ n := by
    by_contra hlt
    have := mul_add_le_mul_of_lt D (Nat.lt_of_not_le hlt)
    omega
  have hle : n ≤ k + 1 := by
    by_contra hlt
    have := mul_add_le_mul_of_lt D (show k < n - 1 by omega)
    omega
  rcases (show n = k ∨ n = k + 1 by omega) with rfl | rfl
  · rw [if_neg (by omega)]
  · have hnext := hhigh.resolve_left (by omega)
    simp only [Nat.add_sub_cancel] at hnext
    rw [if_pos (by omega)]

/-- The nearest integer, the even one of two (R141). -/
theorem eq_quot_of_near (hD : 0 < D) (hlow : 2 * M ≤ (2 * n + 1) * D) (hhigh : n = 0 ∨ (2 * n - 1) * D ≤ 2 * M)
    (htie : (2 * n + 1) * D = 2 * M ∨ n ≠ 0 ∧ (2 * n - 1) * D = 2 * M → n % 2 = 0) :
    n = if D < 2 * (M % D) ∨ 2 * (M % D) = D ∧ M / D % 2 = 1 then M / D + 1 else M / D := by
  have hM : M / D * D + M % D = M := Nat.div_add_mod' M D
  have hr := Nat.mod_lt M hD
  generalize M / D = k at *
  generalize M % D = r at *
  have hodd : (2 * n + 1) * D = 2 * (n * D) + D := by ring
  have hge : k ≤ n := by
    by_contra hlt
    have := mul_add_le_mul_of_lt D (Nat.lt_of_not_le hlt)
    omega
  have hle : n ≤ k + 1 := by
    by_contra hlt
    have := mul_add_le_mul_of_lt D (show 2 * k + 2 < 2 * n - 1 by omega)
    have heven : (2 * k + 2) * D = 2 * (k * D) + 2 * D := by ring
    omega
  rcases (show n = k ∨ n = k + 1 by omega) with rfl | rfl
  · rw [if_neg]
    rintro (h | ⟨h, hn⟩)
    · omega
    · have := htie (.inl (by omega))
      omega
  · have hprev : (2 * (k + 1) - 1) * D = 2 * (k * D) + D := by
      rw [show 2 * (k + 1) - 1 = 2 * k + 1 by omega]
      ring
    rw [if_pos]
    by_cases h : D < 2 * r
    · exact .inl h
    · have heq : 2 * r = D := by omega
      have := htie (.inr ⟨by omega, by omega⟩)
      exact .inr ⟨heq, by omega⟩

end

/-- The four modes of R141. -/
theorem round_modes (rm : BitVec 2) : rm.toNat = 0 ∨ rm.toNat = 1 ∨ rm.toNat = 2 ∨ rm.toNat = 3 := by
  have := rm.isLt
  omega

/-- What a rounding of a magnitude without a sticky bit gives, as a fraction of the smaller power of two. -/
theorem roundTo_eq (neg : Bool) (m : Nat) (e q : Int) (rm : BitVec 2) :
    roundTo ⟨neg, m, e, false⟩ q rm
      = (roundQuot (m * 2 ^ (e - q).toNat) (2 ^ (q - e).toNat) neg rm, m * 2 ^ (e - q).toNat % 2 ^ (q - e).toNat != 0) := by
  unfold roundTo
  by_cases hq : q ≤ e
  · have h1 : 2 ^ (q - e).toNat = 1 := by rw [show (q - e).toNat = 0 by omega]; rfl
    rw [h1, roundQuot_exact (by decide) (Nat.mod_one _), Nat.mod_one, Nat.div_one]
    simp [hq]
  · have hD := Nat.two_pow_pos (q - e).toNat
    have htie : ∀ {r D : Nat}, 0 < D → (2 * r == D && r != 0) = (2 * r == D) := fun {r D} hD => by
      by_cases h : r = 0
      · simp [h, hD.ne]
      · simp [h]
    rcases round_modes rm with hrm | hrm | hrm | hrm <;> simp [hq, hrm, roundQuot, htie hD]

/-- R141 names one integer. -/
theorem eq_roundTo_of_roundsTo {neg : Bool} {m n : Nat} {e q : Int} {rm : BitVec 2} (h : (dyadic m e).RoundsTo neg q rm n) :
    n = (roundTo ⟨neg, m, e, false⟩ q rm).1 := by
  have hD := Nat.two_pow_pos (q - e).toNat
  rw [roundTo_eq]
  simp only [Cut.RoundsTo, dyadic_halves] at h
  generalize m * 2 ^ (e - q).toNat = M at *
  generalize 2 ^ (q - e).toNat = D at *
  simp only [ne_eq, compare_gt_iff_gt, compare_lt_iff_lt, compare_eq_iff_eq, not_lt] at h
  have hdown : 2 * n * D ≤ 2 * M ∧ 2 * M < (2 * n + 2) * D → n = M / D := fun ⟨hlow, hhigh⟩ =>
    eq_quot_of_down (by nlinarith) (by nlinarith)
  have hup : 2 * M ≤ 2 * n * D ∧ (n = 0 ∨ (2 * n - 2) * D < 2 * M) → n = if M % D != 0 then M / D + 1 else M / D := fun ⟨hlow, hhigh⟩ => by
    refine eq_quot_of_up hD (by nlinarith) (hhigh.imp_right fun hlt => ?_)
    rw [show 2 * n - 2 = 2 * (n - 1) by omega] at hlt
    nlinarith
  rcases round_modes rm with hrm | hrm | hrm | hrm <;> simp only [hrm] at h
  · obtain ⟨hlow, hhigh, htie⟩ := h
    rw [eq_quot_of_near hD hlow hhigh htie]
    simp [roundQuot, hrm]
  · rw [hdown h]
    simp [roundQuot, hrm]
  · cases neg
    · rw [hdown h]
      simp [roundQuot, hrm]
    · rw [hup h]
      simp [roundQuot, hrm]
  · cases neg
    · rw [hup h]
      simp [roundQuot, hrm]
    · rw [hdown h]
      simp [roundQuot, hrm]

/-! ## The rounded magnitude: exact or not, and how large -/

section
variable {neg : Bool} {m : Nat} {e q : Int} {rm : BitVec 2}

theorem roundTo_inexact_iff : (roundTo ⟨neg, m, e, false⟩ q rm).2 = true
    ↔ (dyadic m e).halves (2 * (roundTo ⟨neg, m, e, false⟩ q rm).1) q ≠ .eq := by
  have hD := Nat.two_pow_pos (q - e).toNat
  rw [roundTo_eq, dyadic_halves, ne_eq, compare_eq_iff_eq, Nat.mul_assoc 2]
  dsimp only
  generalize m * 2 ^ (e - q).toNat = M at *
  generalize 2 ^ (q - e).toNat = D at *
  rw [bne_iff_ne, not_iff_not]
  constructor
  · intro h
    rw [roundQuot_exact hD h, Nat.div_mul_cancel (Nat.dvd_of_mod_eq_zero h)]
  · intro h
    rw [← Nat.eq_of_mul_eq_mul_left (by decide) h]
    exact Nat.mul_mod_left ..

/-- At most p + 1 bits stand above the last place kept: rounding up may add one. -/
theorem roundTo_le {p : Nat} (h : (Nat.log2 m : Int) + e - p ≤ q) : (roundTo ⟨neg, m, e, false⟩ q rm).1 ≤ 2 ^ (p + 1) := by
  have hlt : m * 2 ^ (e - q).toNat < 2 ^ (p + 1) * 2 ^ (q - e).toNat := calc
    m * 2 ^ (e - q).toNat < 2 ^ (Nat.log2 m + 1) * 2 ^ (e - q).toNat :=
      Nat.mul_lt_mul_of_pos_right Nat.lt_log2_self (Nat.two_pow_pos _)
    _ ≤ 2 ^ (p + 1) * 2 ^ (q - e).toNat := by
      rw [← Nat.pow_add, ← Nat.pow_add]
      exact Nat.pow_le_pow_right (by decide) (by omega)
  rw [roundTo_eq]
  exact roundQuot_bounds.2.trans ((Nat.div_lt_iff_lt_mul (Nat.two_pow_pos _)).mpr hlt)

theorem le_roundTo {p : Nat} (hm : m ≠ 0) (h : q ≤ (Nat.log2 m : Int) + e - p) : 2 ^ p ≤ (roundTo ⟨neg, m, e, false⟩ q rm).1 := by
  have hle : 2 ^ p * 2 ^ (q - e).toNat ≤ m * 2 ^ (e - q).toNat := calc
    2 ^ p * 2 ^ (q - e).toNat ≤ 2 ^ Nat.log2 m * 2 ^ (e - q).toNat := by
      rw [← Nat.pow_add, ← Nat.pow_add]
      exact Nat.pow_le_pow_right (by decide) (by omega)
    _ ≤ m * 2 ^ (e - q).toNat := Nat.mul_le_mul_right _ (Nat.log2_self_le hm)
  rw [roundTo_eq]
  exact ((Nat.le_div_iff_mul_le (Nat.two_pow_pos _)).mpr hle).trans roundQuot_bounds.1

end

/-! ## The finite values of a format, in steps of its smallest one (R129) -/

namespace Fmt

variable {f : Fmt}

/-- The magnitude of a code without its sign, in steps of 2^qmin. -/
def steps (f : Fmt) (c : Nat) : Nat :=
  if c / 2 ^ f.mb = 0 then c % 2 ^ f.mb else (c % 2 ^ f.mb + 2 ^ f.mb) * 2 ^ (c / 2 ^ f.mb - 1)

theorem steps_lt_succ (c : Nat) : f.steps c < f.steps (c + 1) := by
  have hP := Nat.two_pow_pos f.mb
  have hc := Nat.div_add_mod' c (2 ^ f.mb)
  have hr := Nat.mod_lt c hP
  unfold steps
  generalize c / 2 ^ f.mb = k at *
  generalize c % 2 ^ f.mb = r at *
  generalize 2 ^ f.mb = P at *
  subst hc
  by_cases hnext : r + 1 < P
  · have hdiv : (k * P + r + 1) / P = k := by
      rw [Nat.add_assoc, Nat.mul_comm, Nat.mul_add_div hP, Nat.div_eq_of_lt hnext, Nat.add_zero]
    have hmod : (k * P + r + 1) % P = r + 1 := by
      rw [Nat.add_assoc, Nat.mul_comm, Nat.mul_add_mod, Nat.mod_eq_of_lt hnext]
    rw [hdiv, hmod]
    split
    · omega
    · exact Nat.mul_lt_mul_of_pos_right (by omega) (Nat.two_pow_pos _)
  · have hsucc : k * P + r + 1 = (k + 1) * P := by
      rw [Nat.succ_mul]
      omega
    rw [hsucc, Nat.mul_div_cancel _ hP, Nat.mul_mod_left, if_neg (Nat.succ_ne_zero k), Nat.add_sub_cancel, Nat.zero_add]
    split
    · next hk =>
      subst hk
      omega
    · next hk =>
      obtain ⟨j, rfl⟩ := Nat.exists_eq_succ_of_ne_zero hk
      rw [Nat.succ_sub_one, Nat.pow_succ]
      have := Nat.two_pow_pos j
      nlinarith

theorem steps_strictMono : StrictMono f.steps := strictMono_nat_of_lt_succ steps_lt_succ

/-- A significand of mb + 1 bits, or the next power of two, over a biased exponent. -/
theorem steps_add {n E : Nat} (hle : n ≤ 2 ^ (f.mb + 1)) (hge : E ≠ 0 → 2 ^ f.mb ≤ n) : f.steps (n + E * 2 ^ f.mb) = n * 2 ^ E := by
  have hP := Nat.two_pow_pos f.mb
  rw [Nat.pow_succ] at hle
  unfold steps
  rw [Nat.add_mul_div_right _ _ hP, Nat.add_mul_mod_self_right]
  generalize 2 ^ f.mb = P at *
  rcases Nat.lt_or_ge n P with hn | hn
  · have hE : E = 0 := by
      by_contra h
      exact absurd (hge h) (by omega)
    simp [hE, Nat.div_eq_of_lt hn, Nat.mod_eq_of_lt hn]
  · rcases Nat.lt_or_ge n (2 * P) with hn2 | hn2
    · have hdiv : n / P = 1 := Nat.div_eq_of_lt_le (by omega) (by omega)
      have hmod : n % P = n - P := by
        rw [Nat.mod_eq_sub_mod hn, Nat.mod_eq_of_lt (by omega)]
      rw [hdiv, hmod, if_neg (by omega), Nat.sub_add_cancel hn, Nat.add_sub_cancel_left]
    · obtain rfl : n = 2 * P := by omega
      rw [Nat.mul_div_cancel _ hP, Nat.mul_mod_left, if_neg (by omega), Nat.zero_add, show 2 + E - 1 = 1 + E by omega, Nat.pow_add]
      ring

/-- A finite code under a sign, decoded: its magnitude in steps of 2^qmin. -/
theorem decode_signed (hf : f.maxCode < 2 ^ (f.w - 1)) {c : Nat} (hc : c ≤ f.maxCode) (neg : Bool) :
    ∃ m e, f.decode (f.signed neg c) = .fin neg m e ∧ f.qmin ≤ e ∧ m * 2 ^ (e - f.qmin).toNat = f.steps c := by
  have hlt : c < 2 ^ (f.w - 1) := hc.trans_lt hf
  have hsign : (f.signed neg c / 2 ^ (f.w - 1) % 2 == 1) = neg := by
    cases neg
    · simp [signed, Nat.div_eq_of_lt hlt]
    · simp [signed, Nat.add_div_right _ (Nat.two_pow_pos _), Nat.div_eq_of_lt hlt]
  have hmag : f.signed neg c % 2 ^ (f.w - 1) = c := by
    cases neg <;> simp [signed, Nat.mod_eq_of_lt hlt]
  unfold decode steps
  simp only [hsign, hmag, if_neg (Nat.not_lt.mpr hc)]
  generalize c / 2 ^ f.mb = k
  split
  · exact ⟨_, _, rfl, le_rfl, by simp⟩
  · next h =>
    refine ⟨_, _, rfl, by omega, ?_⟩
    rw [show (f.qmin + (k : Int) - 1 - f.qmin).toNat = k - 1 by omega]

end Fmt

/-! ## One rounding to a format (R138, R142) -/

namespace Fmt

variable {f : Fmt} {neg : Bool} {m : Nat} {e : Int} {rm : BitVec 2}

/-- The last place kept of a magnitude: mb bits below its leading one, or the smallest step. -/
def place (f : Fmt) (m : Nat) (e : Int) : Int := max ((Nat.log2 m : Int) + e - f.mb) f.qmin

theorem qmin_le_place : f.qmin ≤ f.place m e := le_max_right ..

/-- The code that a rounding gives stands for the rounded magnitude. -/
theorem steps_round (hm : m ≠ 0) : f.steps (f.round ⟨neg, m, e, false⟩ rm).bits
    = (roundTo ⟨neg, m, e, false⟩ (f.place m e) rm).1 * 2 ^ (f.place m e - f.qmin).toNat := by
  refine steps_add (roundTo_le (le_max_left ..)) fun hE => le_roundTo hm ?_
  have htop : Exact.top ⟨neg, m, e, false⟩ = (Nat.log2 m : Int) + e := rfl
  omega

/-- Beyond the largest finite value (R138): above the code of that value. -/
theorem beyond_iff (hf : f.maxCode < 2 ^ (f.w - 1)) {n c : Nat} {q : Int} (hq : f.qmin ≤ q) (hc : f.steps c = n * 2 ^ (q - f.qmin).toNat) :
    f.Beyond n q ↔ f.maxCode < c := by
  obtain ⟨m, e, hd, he, hs⟩ := decode_signed hf le_rfl false
  have hd' : f.decode f.maxCode = .fin false m e := hd
  unfold Beyond
  rw [hd']
  constructor
  · rintro ⟨_, _, ⟨⟩, h⟩
    rw [dyadic_halves_from he hq, compare_gt_iff_gt, hs, ← hc] at h
    exact steps_strictMono.lt_iff_lt.mp h
  · intro h
    refine ⟨m, e, rfl, ?_⟩
    rw [dyadic_halves_from he hq, compare_gt_iff_gt, hs, ← hc]
    exact steps_strictMono.lt_iff_lt.mpr h

/-- u, of p + 1 bits, at a bits above a bound: the test may be made 64 places up, where it has no fraction. -/
theorem scaled_lt_iff {u p : Nat} {a : Int} (hle : u ≤ 2 ^ (p + 1)) (hge : 2 ^ p ≤ u) :
    u * 2 ^ (a + 64).toNat < 2 ^ (p + 64) ∧ a < 0 ↔ u * 2 ^ (a - p).toNat < 2 ^ (p - a).toNat := by
  rcases lt_or_ge a 0 with hneg | hpos
  · have hnone : (a - p).toNat = 0 := by omega
    obtain ⟨k, rfl⟩ : ∃ k : Nat, a = -((k : Int) + 1) := ⟨(-a - 1).toNat, by omega⟩
    have hk : ((p : Int) - -((k : Int) + 1)).toNat = p + (k + 1) := by omega
    simp only [hneg, and_true, hnone, hk, Nat.pow_zero, Nat.mul_one]
    rcases Nat.lt_or_ge k 64 with hlt | hfar
    · have hup : 2 ^ (p + 64) = 2 ^ (p + (k + 1)) * 2 ^ (-((k : Int) + 1) + 64).toNat := by
        rw [← Nat.pow_add]
        congr 1
        omega
      rw [hup, Nat.mul_lt_mul_right (Nat.two_pow_pos _)]
    · have hzero : (-((k : Int) + 1) + 64).toNat = 0 := by omega
      have h1 : 2 ^ (p + 1) < 2 ^ (p + 64) := Nat.pow_lt_pow_right (by decide) (by omega)
      have h2 : 2 ^ (p + 1) < 2 ^ (p + (k + 1)) := Nat.pow_lt_pow_right (by decide) (by omega)
      rw [hzero, Nat.pow_zero, Nat.mul_one]
      omega
  · refine iff_of_false (by omega) (Nat.not_lt.mpr ?_)
    calc 2 ^ (p - a).toNat ≤ 2 ^ p * 2 ^ (a - p).toNat := by
          rw [← Nat.pow_add]
          exact Nat.pow_le_pow_right (by decide) (by omega)
      _ ≤ u * 2 ^ (a - p).toNat := Nat.mul_le_mul_right _ hge

/-- Tiny after rounding (R142): the magnitude rounded to mb bits below its leading one is below the least normal value. -/
theorem tiny_iff (hm : m ≠ 0) : (f.round ⟨neg, m, e, false⟩ rm).tiny = true
    ↔ (dyadic 1 (1 - f.bias)).halves (2 * (roundTo ⟨neg, m, e, false⟩ ((Nat.log2 m : Int) + e - f.mb) rm).1) ((Nat.log2 m : Int) + e - f.mb) = .lt := by
  have hle : (roundTo ⟨neg, m, e, false⟩ ((Nat.log2 m : Int) + e - f.mb) rm).1 ≤ 2 ^ (f.mb + 1) := roundTo_le le_rfl
  have hge : 2 ^ f.mb ≤ (roundTo ⟨neg, m, e, false⟩ ((Nat.log2 m : Int) + e - f.mb) rm).1 := le_roundTo hm le_rfl
  rw [dyadic_halves, compare_lt_iff_lt]
  unfold round Exact.top qmin
  dsimp only
  generalize (roundTo ⟨neg, m, e, false⟩ ((Nat.log2 m : Int) + e - f.mb) rm).1 = u at *
  generalize (Nat.log2 m : Int) + e = t at *
  generalize (1 : Int) - f.bias = b at *
  have h1 : t - f.mb - (b - f.mb) + 64 = t - b + 64 := by omega
  have h2 : t - f.mb - b = t - b - f.mb := by omega
  have h3 : b - (t - f.mb) = f.mb - (t - b) := by omega
  rw [h1, h2, h3, Nat.mul_assoc, Nat.one_mul, Nat.mul_lt_mul_left (by decide), ← scaled_lt_iff hle hge]
  rw [Bool.and_eq_true, decide_eq_true_eq, decide_eq_true_eq]
  norm_cast
  refine and_congr_right fun _ => ?_
  omega

/-- What one rounding gives, below the largest finite value and beyond it. -/
theorem delivers (hf : f.maxCode < 2 ^ (f.w - 1)) (most : Nat) : f.Delivers (dyadic m e) neg rm most
    (let r := f.round ⟨neg, m, e, false⟩ rm
     if f.maxCode < r.bits then (f.signed neg most, fOF ||| fNX) else (f.signed neg r.bits, r.flags)) := by
  intro t n u ht q hn hu
  obtain ⟨hm, rfl⟩ := dyadic_leads ht
  have hq : q = f.place m e := by
    unfold place qmin
    omega
  rw [hq] at hn ⊢
  obtain rfl := eq_roundTo_of_roundsTo hn
  obtain rfl := eq_roundTo_of_roundsTo hu
  have hbeyond := beyond_iff hf qmin_le_place (steps_round (f := f) (neg := neg) (rm := rm) (e := e) hm)
  have hinexact := roundTo_inexact_iff (neg := neg) (m := m) (e := e) (q := f.place m e) (rm := rm)
  have htiny := tiny_iff (f := f) (neg := neg) (rm := rm) (e := e) hm
  have hnx : (f.round ⟨neg, m, e, false⟩ rm).nx = (roundTo ⟨neg, m, e, false⟩ (f.place m e) rm).2 := rfl
  rw [hbeyond]
  refine ⟨fun h => if_pos h, fun h => ?_⟩
  dsimp only
  rw [if_neg h]
  obtain ⟨m', e', hd, he, hs⟩ := decode_signed hf (Nat.le_of_not_lt h) neg
  refine ⟨⟨m', e', hd, ?_⟩, fun hex => ?_, fun hex hti => ?_, fun hex hti => ?_⟩
  · rw [dyadic_halves_from he qmin_le_place, compare_eq_iff_eq, hs, steps_round hm]
  · simp [Rounded.flags, hnx, Bool.eq_false_iff.mpr (mt hinexact.mp (not_not_intro hex))]
  · simp [Rounded.flags, hnx, hinexact.mpr hex, htiny.mpr hti]
  · simp [Rounded.flags, hnx, hinexact.mpr hex, Bool.eq_false_iff.mpr (mt htiny.mp hti)]

/-! ## Arithmetic results, narrowing, and conversions from integers (R138, R142) -/

theorem deliver_computes (hf : f.maxCode < 2 ^ (f.w - 1)) (hm : m ≠ 0) :
    f.Computes (dyadic m e) neg rm (f.deliver ⟨neg, m, e, false⟩ rm) := by
  have hmost : (if overflowInf neg rm then f.infCode else f.maxCode)
      = if rm = 0 ∨ (rm = 2 ∧ neg = true) ∨ (rm = 3 ∧ neg = false) then f.infCode else f.maxCode := by
    have hmodes : overflowInf neg rm = true ↔ rm = 0 ∨ (rm = 2 ∧ neg = true) ∨ (rm = 3 ∧ neg = false) := by
      revert neg rm
      decide
    simp only [hmodes]
  have h := delivers (f := f) (neg := neg) (m := m) (e := e) (rm := rm) hf (if overflowInf neg rm then f.infCode else f.maxCode)
  unfold Computes deliver
  rw [← hmost]
  simpa [hm] using h

theorem ofInt_fromInteger (hf : f.maxCode < 2 ^ (f.w - 1)) (x : Int) : f.FromInteger x rm (f.ofInt x rm) := by
  refine ⟨?_, fun hx => deliver_computes hf (Int.natAbs_ne_zero.mpr hx)⟩
  rintro rfl
  simp [ofInt, deliver, signed]

/-- The flags of a rounded value say nothing of an overflow. -/
theorem flags_noOverflow (r : Rounded) : r.flags &&& fOF = 0 := by
  unfold Rounded.flags
  split
  · split <;> rfl
  · rfl

theorem narrow_narrows (hf : f.maxCode < 2 ^ (f.w - 1)) (v : FVal) : f.Narrows v rm (f.narrow v rm) := by
  cases v with
  | nan => rfl
  | inf neg => rfl
  | fin neg m e =>
    cases m with
    | zero => rfl
    | succ m =>
      have h := delivers (f := f) (neg := neg) (m := m + 1) (e := e) (rm := rm) hf f.maxCode
      have hnarrow : f.narrow (.fin neg (m + 1) e) rm = if f.maxCode < (f.round ⟨neg, m + 1, e, false⟩ rm).bits
          then (⟨f.signed neg f.maxCode, fOF ||| fNX, true⟩ : Narrowed)
          else ⟨f.signed neg (f.round ⟨neg, m + 1, e, false⟩ rm).bits, (f.round ⟨neg, m + 1, e, false⟩ rm).flags, false⟩ := by
        simp [narrow]
      rw [hnarrow]
      dsimp only at h
      by_cases hb : f.maxCode < (f.round ⟨neg, m + 1, e, false⟩ rm).bits
      · rw [if_pos hb] at h ⊢
        exact ⟨h, iff_of_true rfl (by decide : (fOF ||| fNX) &&& fOF ≠ 0)⟩
      · rw [if_neg hb] at h ⊢
        exact ⟨h, by simp [flags_noOverflow]⟩

/-- A value with a code needs no rounding. -/
theorem deliver_exact (hm : m ≠ 0) (hq : f.place m e ≤ e) (hmax : m * 2 ^ (e - f.qmin).toNat ≤ f.steps f.maxCode) :
    ∃ c, f.deliver ⟨neg, m, e, false⟩ rm = (f.signed neg c, 0) ∧ c ≤ f.maxCode ∧ f.steps c = m * 2 ^ (e - f.qmin).toNat := by
  have hqmin := qmin_le_place (f := f) (m := m) (e := e)
  have hround : roundTo ⟨neg, m, e, false⟩ (f.place m e) rm = (m * 2 ^ (e - f.place m e).toNat, false) := by simp [roundTo, hq]
  have hsteps : f.steps (f.round ⟨neg, m, e, false⟩ rm).bits = m * 2 ^ (e - f.qmin).toNat := by
    rw [steps_round hm, hround, Nat.mul_assoc, ← Nat.pow_add]
    congr 2
    omega
  have hfit : (f.round ⟨neg, m, e, false⟩ rm).bits ≤ f.maxCode := steps_strictMono.le_iff_le.mp (hsteps ▸ hmax)
  have hnx : (f.round ⟨neg, m, e, false⟩ rm).nx = false := congrArg Prod.snd hround
  exact ⟨_, by simp [deliver, hm, Nat.not_lt.mpr hfit, Rounded.flags, hnx], hfit, hsteps⟩

end Fmt

/-! ## Conversions to integers and between integers (R138, R142) -/

theorem intMin_le_intMax (signed : Bool) (w : Nat) : intMin signed w ≤ intMax signed w := by
  have h1 : (0 : Int) < 2 ^ (w - 1) := by positivity
  have h2 : (0 : Int) < 2 ^ w := by positivity
  unfold intMin intMax
  split <;> omega

theorem toInt_integer (v : FVal) (signed : Bool) (w : Nat) (rm : BitVec 2) : v.Integer signed w rm (v.toInt signed w rm) := by
  have hlo : (if signed then -2 ^ (w - 1) else 0 : Int) = intMin signed w := rfl
  have hhi : (if signed then 2 ^ (w - 1) - 1 else 2 ^ w - 1 : Int) = intMax signed w := rfl
  unfold FVal.Integer FVal.toInt
  simp only [hlo, hhi]
  cases v with
  | nan => rfl
  | inf neg => cases neg <;> rfl
  | fin neg m e =>
    intro n hn
    obtain rfl := eq_roundTo_of_roundsTo hn
    have hinexact := roundTo_inexact_iff (neg := neg) (m := m) (e := e) (q := 0) (rm := rm)
    dsimp only
    generalize roundTo ⟨neg, m, e, false⟩ 0 rm = r at *
    have hx : (if neg then -(r.1 : Int) else r.1) = signedInt neg r.1 := rfl
    rw [hx]
    refine ⟨fun h => if_pos h, fun h => ?_, fun hl hh => ?_⟩
    · rw [if_neg (not_lt.mpr (h.le.trans (intMin_le_intMax signed w))), if_pos h]
      rfl
    · rw [if_neg (not_lt.mpr hh), if_neg (not_lt.mpr hl)]
      by_cases hi : r.2 = true
      · rw [if_pos hi, if_neg (hinexact.mp hi)]
        rfl
      · rw [if_neg hi, if_pos (not_not.mp (mt hinexact.mpr hi))]
        rfl

theorem saturate_clamps (signed : Bool) (w : Nat) (x : Int) : Clamps signed w x (MemFmt.saturate signed w x) := by
  have hlo : (if signed then -2 ^ (w - 1) else 0 : Int) = intMin signed w := rfl
  have hhi : (if signed then 2 ^ (w - 1) - 1 else 2 ^ w - 1 : Int) = intMax signed w := rfl
  have hle := intMin_le_intMax signed w
  unfold Clamps MemFmt.saturate
  simp only [hlo, hhi]
  split
  · next h =>
    rw [min_eq_left h.le, max_eq_right hle]
    exact ⟨rfl, rfl, by simp [h]⟩
  split
  · next h1 h2 =>
    rw [min_eq_right (not_lt.mp h1), max_eq_left h2.le]
    exact ⟨rfl, rfl, by simp [h2]⟩
  · next h1 h2 =>
    rw [min_eq_right (not_lt.mp h1), max_eq_right (not_lt.mp h2)]
    exact ⟨rfl, rfl, by simp [h1, h2]⟩

/-! ## BF16 in FP32: exact (R142) -/

/-- The significand and the exponent of a finite value. -/
theorem Fmt.decode_fin {f : Fmt} {code : Nat} {neg : Bool} {m : Nat} {e : Int} (h : f.decode code = .fin neg m e) :
    m < 2 * 2 ^ f.mb ∧ f.qmin ≤ e ∧ (e = f.qmin ∨ e < f.qmin + (f.maxCode / 2 ^ f.mb : Nat)) := by
  unfold Fmt.decode at h
  dsimp only at h
  have hm := Nat.mod_lt (code % 2 ^ (f.w - 1)) (Nat.two_pow_pos f.mb)
  split at h
  · split at h <;> cases h
  · next hmax =>
    have hexp := Nat.div_le_div_right (c := 2 ^ f.mb) (Nat.le_of_not_lt hmax)
    generalize code % 2 ^ (f.w - 1) / 2 ^ f.mb = k at *
    generalize f.maxCode / 2 ^ f.mb = top at *
    split at h
    · cases h
      exact ⟨by omega, le_rfl, .inl rfl⟩
    · cases h
      exact ⟨by omega, by omega, .inr (by omega)⟩

theorem bf16_fin {code : Nat} {neg : Bool} {m : Nat} {e : Int} (h : Fmt.bf16.decode code = .fin neg m e) :
    m < 256 ∧ -133 ≤ e ∧ e ≤ 120 := by
  have hmax : Fmt.bf16.maxCode / 2 ^ Fmt.bf16.mb = 254 := by decide
  have hqmin : Fmt.bf16.qmin = -133 := rfl
  obtain ⟨hm, hlow, hhigh⟩ := Fmt.decode_fin h
  rw [hmax] at hhigh
  exact ⟨hm, hlow, by omega⟩

/-- The largest finite value of FP32 in its smallest steps. -/
theorem fp32_steps_maxCode : Fmt.fp32.steps Fmt.fp32.maxCode = (2 ^ 24 - 1) * 2 ^ 253 := by decide

theorem ofVal_widens (code : Nat) (rm : BitVec 2) : Fmt.fp32.Widens (Fmt.bf16.decode code) (Fmt.fp32.ofVal (Fmt.bf16.decode code) rm) := by
  have hf : Fmt.fp32.maxCode < 2 ^ (Fmt.fp32.w - 1) := by decide
  have hqmin : Fmt.fp32.qmin = -149 := rfl
  cases hv : Fmt.bf16.decode code with
  | nan => exact ⟨rfl, rfl⟩
  | inf neg => exact ⟨rfl, rfl⟩
  | fin neg m e =>
    obtain ⟨hm, hlow, hhigh⟩ := bf16_fin hv
    have hcode : ∃ c, Fmt.fp32.ofVal (.fin neg m e) rm = (Fmt.fp32.signed neg c, 0) ∧ c ≤ Fmt.fp32.maxCode
        ∧ Fmt.fp32.steps c = m * 2 ^ (e - Fmt.fp32.qmin).toNat := by
      by_cases h0 : m = 0
      · subst h0
        exact ⟨0, rfl, by decide, by rw [Nat.zero_mul]; decide⟩
      · have hlog : Nat.log2 m < 8 := (Nat.log2_lt h0).mpr hm
        have hplace : Fmt.fp32.place m e ≤ e := max_le (by simp only [Fmt.fp32]; omega) (by omega)
        refine Fmt.deliver_exact h0 hplace ?_
        have hexp : (e - Fmt.fp32.qmin).toNat ≤ 16 + 253 := by omega
        have hpow := (Nat.pow_le_pow_right (n := 2) (by decide) hexp).trans_eq (Nat.pow_add 2 16 253)
        rw [fp32_steps_maxCode]
        calc m * 2 ^ (e - Fmt.fp32.qmin).toNat ≤ 255 * (2 ^ 16 * 2 ^ 253) := Nat.mul_le_mul (Nat.le_of_lt_succ hm) hpow
          _ = 255 * 2 ^ 16 * 2 ^ 253 := (Nat.mul_assoc ..).symm
          _ ≤ (2 ^ 24 - 1) * 2 ^ 253 := Nat.mul_le_mul_right _ (by decide)
    obtain ⟨c, hout, hc, hs⟩ := hcode
    obtain ⟨m', e', hd, he, hm'⟩ := Fmt.decode_signed hf hc neg
    rw [hout]
    refine ⟨rfl, m', e', hd, ?_⟩
    rw [dyadic_halves_from (b := Fmt.fp32.qmin) (by omega) he, compare_eq_iff_eq, hm', hs]

/-! # VCVT (R294): its active elements, converted in ascending order -/

/-- Setting a bit that is 1 changes nothing. -/
theorem setField_of_getLsbD {n e : Nat} {x : BitVec n} (h : x.getLsbD e = true) : setField x e 1 1 = x := by
  apply BitVec.eq_of_getLsbD_eq
  intro i hi
  simp only [setField, BitVec.getLsbD_or, BitVec.getLsbD_and, BitVec.getLsbD_not, BitVec.getLsbD_ofNat]
  norm_num [Nat.testBit_two_pow]
  by_cases he : e = i
  · subst he
    simp [h, hi]
  · simp [he, hi]

namespace LCore

theorem active_congr {c d : LCore} {m : Bool} (h : d.k = c.k) : d.active m = c.active m := by
  funext e
  simp [active, kbit, kreg, h]

/-- A mark on an active element leaves what is active: where the instruction is masked its bit of k0 is 1 (R140). -/
theorem active_setKbit {c : LCore} {m : Bool} {n e : Nat} (h : c.active m e = true) : (c.setKbit n e true).active m = c.active m := by
  cases m with
  | false => rfl
  | true =>
    have hbit : (c.kreg 0).getLsbD e = true := by simpa [active, kbit] using h
    have hreg : (c.setKbit n e true).kreg 0 = c.kreg 0 := by
      unfold setKbit
      by_cases hn : n = 0
      · subst hn
        simp only [if_true, setField_of_getLsbD hbit]
        simp [setKreg, kreg]
      · unfold setKreg
        split <;> simp [kreg, hn]
    funext j
    simp [active, kbit, hreg]

/-- Where no step changes what is active, the elements may be chosen beforehand. -/
theorem forActive_eq {f : LCore → Nat → LCore} {m : Bool} (hf : ∀ a e, a.active m e = true → (f a e).active m = a.active m)
    (c : LCore) (w : Window) : c.forActive w m f = (c.activeIn m w.lo w.hi).foldl f c := by
  have hfold : ∀ (l : List Nat) (a : LCore), a.active m = c.active m →
      l.foldl (fun c e => if c.active m e then f c e else c) a = (l.filter (c.active m)).foldl f a := fun l => by
    induction l with
    | nil => exact fun _ _ => rfl
    | cons e l ih =>
      intro a ha
      rw [List.foldl_cons, ha, List.filter_cons]
      split
      · next he => exact ih _ ((hf a e (ha ▸ he)).trans ha)
      · exact ih a ha
  exact hfold _ c rfl

/-- One element of VCVT, with its flags and its mark under SATK. -/
def convertElem (f : VF) (a : LCore) (e : Nat) : LCore :=
  let r := cvtElem a f.s2.toNat f.s1.toNat e
  let b : LCore := (a.setVal f.d.toNat r.1 e r.2.code).raise r.2.flags
  if r.2.mark && a.satk.getLsbD 3 then b.setKbit (a.satk.extractLsb' 0 3).toNat e true else b

theorem putNarrowed_eq (f : VF) (a : LCore) (e : Nat) :
    a.putNarrowed f.d.toNat (cvtElem a f.s2.toNat f.s1.toNat e).1 e (cvtElem a f.s2.toNat f.s1.toNat e).2 = a.convertElem f e := by
  unfold convertElem putNarrowed markIf markWith
  have hsatk : ((a.setVal f.d.toNat (cvtElem a f.s2.toNat f.s1.toNat e).1 e (cvtElem a f.s2.toNat f.s1.toNat e).2.code).raise
      (cvtElem a f.s2.toNat f.s1.toNat e).2.flags).satk = a.satk := by simp [setVal, setElem]
  rw [hsatk]
  generalize cvtElem a f.s2.toNat f.s1.toNat e = r
  cases hm : r.2.mark <;> simp [hm, satkEn, satkReg]

theorem active_convertElem (f : VF) {a : LCore} {m : Bool} {e : Nat} (h : a.active m e = true) :
    (a.convertElem f e).active m = a.active m := by
  unfold convertElem
  extract_lets r b
  have hb : b.active m = a.active m := active_congr (by simp [b, setVal, setElem])
  split
  · exact (active_setKbit (hb ▸ h)).trans hb
  · exact hb

theorem pc_convertElem (f : VF) (a : LCore) (e : Nat) : (a.convertElem f e).pc = a.pc := by
  unfold convertElem
  extract_lets r b
  split <;> simp [b, setVal, setElem, setKbit]

end LCore

/-- VCVT alone: the elements from VSTART to VL − 1 that are active, converted in order, and the completion of its convoy. -/
theorem vcvt_completes {f : VF} {s : State} {x : Member} (h : s.Issues (.vcvt f) x) :
    exec (.vcvt f) s = .next (s.setLc { (s.lc.activeIn f.m s.lc.vstart.toNat s.lc.vl).foldl (LCore.convertElem f) s.lc with
      pc := s.lc.pc + 4, vstart := 0, vl := s.lc.vl }) := by
  obtain rfl : x = memCvt s.lc (encode (.vcvt f)) f := (Option.some.inj h.member).symm
  have hexec : exec (.vcvt f) s = member (.vcvt f) (elementwise f.m (LCore.convertElem f)) s :=
    congrArg (fun g => member (.vcvt f) (elementwise f.m g) s) (funext fun a => funext fun e => LCore.putNarrowed_eq f a e)
  have hgs : (memCvt s.lc (encode (.vcvt f)) f).gs = [] := rfl
  have hpc : (((s.lc.activeIn f.m s.lc.vstart.toNat s.lc.vl).foldl (LCore.convertElem f) s.lc)).pc = s.lc.pc := by
    generalize s.lc.activeIn f.m s.lc.vstart.toNat s.lc.vl = l
    generalize s.lc = c
    induction l generalizing c with
    | nil => rfl
    | cons e l ih => exact (ih _).trans (LCore.pc_convertElem f c e)
  rw [hexec, member_completes h rfl, hgs, State.seen_nil]
  dsimp only [elementwise]
  rw [LCore.forActive_eq fun a e he => LCore.active_convertElem f he, State.lc_setLc, State.setLc_setLc]
  unfold LCore.finish
  rw [hpc]
  rfl

theorem Vtype.fmt_maxCode (t : Word) : (Vtype.fmt t).maxCode < 2 ^ ((Vtype.fmt t).w - 1) := by
  unfold Vtype.fmt
  split <;> decide

/-- Settles O19: `vcvt_completes` for the order of the elements and the completion; each conversion by its lemma. -/
theorem conversionResults : Obligations.ConversionResults := by
  unfold Obligations.ConversionResults
  intro f s x hw h c one done
  refine ⟨vcvt_completes h, ?_⟩
  obtain ⟨m, cv, c2, c1, s2, s1, d⟩ := f
  intro e w g n wide r
  refine ⟨?_, ?_, ?_, ?_, ?_, ?_, ?_, ?_, ?_, ?_⟩
  all_goals rintro rfl
  · exact ⟨rfl, toInt_integer ..⟩
  · exact ⟨rfl, toInt_integer ..⟩
  · exact ⟨rfl, rfl, Fmt.ofInt_fromInteger (Vtype.fmt_maxCode _) _⟩
  · exact ⟨rfl, rfl, Fmt.ofInt_fromInteger (Vtype.fmt_maxCode _) _⟩
  · exact ⟨rfl, rfl, ofVal_widens ..⟩
  · exact ⟨rfl, Fmt.narrow_narrows (by decide) _⟩
  · rfl
  · rfl
  · exact ⟨rfl, saturate_clamps ..⟩
  · exact ⟨rfl, saturate_clamps ..⟩

end Sys2Proof.Machine

/-! # What leaves memory as it stands

One lemma for each operation of the model that writes no byte. -/

namespace Sys2Proof.Machine

/-- Steps that each leave memory leave it together. -/
theorem mem_foldl {α : Type} {f : State → α → State} (h : ∀ s a, (f s a).mem = s.mem) (l : List α) (s : State) : (l.foldl f s).mem = s.mem := by
  induction l generalizing s with
  | nil => rfl
  | cons a l ih => exact (ih _).trans (h s a)

/-! ## Threads, registers, memory, kills and traps -/

@[simp] theorem State.mem_count (s : State) (i : Nat) : (s.count i).mem = s.mem := rfl

@[simp] theorem State.mem_machineCheck (s : State) (code : BitVec 8) (info : BitVec 48) : (s.machineCheck code info).mem = s.mem := by
  grind [State.machineCheck, State.mem_stamp, State.mem_count]

@[simp] theorem State.mem_arrayLog (s : State) (word : Nat) (bit : Option Nat) : (s.arrayLog word bit).mem = s.mem := by
  unfold State.arrayLog
  split <;> rfl

@[simp] theorem State.mem_countBond (s : State) (word bit : Nat) : (s.countBond word bit).mem = s.mem := rfl

@[simp] theorem State.mem_meet (s : State) (a : Nat) : (s.meet a).mem = s.mem := by
  grind [State.meet, State.mem_count, State.mem_arrayLog, State.mem_countBond, State.mem_machineCheck]

@[simp] theorem State.mem_meets (s : State) (keys : List Nat) : (s.meets keys).mem = s.mem := by
  have h := congrArg State.mem (State.withErrors_meets s s keys)
  exact h

@[simp] theorem State.mem_rewrite (s : State) (a : Nat) : (s.rewrite a).mem = s.mem := by simp [State.rewrite]

@[simp] theorem State.mem_merged (s : State) (keys whole : List Nat) : (s.merged keys whole).mem = s.mem := by
  have h := congrArg State.mem (State.withErrors_merged s s keys whole)
  exact h

@[simp] theorem State.mem_overwritten (s : State) (keys : List Nat) : (s.overwritten keys).mem = s.mem := by simp [State.overwritten]
@[simp] theorem State.mem_barForget (s : State) (b : Nat) : (s.barForget b).mem = s.mem := rfl

@[simp] theorem State.mem_barSettle (s : State) (b : Nat) : (s.barSettle b).mem = s.mem := by
  unfold State.barSettle
  split <;> rfl

@[simp] theorem State.mem_barUnreach (s : State) (b : Nat) : (s.barUnreach b).mem = s.mem := by
  unfold State.barUnreach
  split <;> rfl

@[simp] theorem State.mem_giveBack (s : State) (n : Nat) (kinds : List LeaveKind) : (s.giveBack n kinds).mem = s.mem := rfl
@[simp] theorem State.mem_dropPorts (s : State) (n : Nat) : (s.dropPorts n).mem = s.mem := rfl
@[simp] theorem State.mem_sendReports (s : State) : s.sendReports.mem = s.mem := rfl
@[simp] theorem State.mem_unblockPushes (s : State) (c : LCore) : (s.unblockPushes c).mem = s.mem := rfl
@[simp] theorem State.mem_vacate (s : State) (n : Nat) : (s.vacate n).mem = s.mem := rfl
@[simp] theorem State.mem_endLaunch (s : State) (seq : Nat) : (s.endLaunch seq).mem = s.mem := rfl

/-! ## Translation and the TLBs (R80 to R96) -/

@[simp] theorem State.mem_walkFrom (va : Word) (fuel lvl tbl : Nat) (s : State) : (State.walkFrom va fuel lvl tbl s).1.mem = s.mem := by
  induction fuel generalizing lvl tbl s with
  | zero => rfl
  | succ fuel ih => grind [State.walkFrom, State.mem_read]

@[simp] theorem State.mem_descriptor (s : State) (ctx : Nat) : (s.descriptor ctx).1.mem = s.mem := by
  grind [State.descriptor, State.mem_read]

@[simp] theorem State.mem_walk (s : State) (ctx : Nat) (va : Word) : (s.walk ctx va).1.mem = s.mem := by
  grind [State.walk, State.mem_descriptor, State.mem_walkFrom]

@[simp] theorem State.mem_tlbFill (s : State) (e : TlbEntry) : (s.tlbFill e).mem = s.mem := by
  grind [State.tlbFill, State.mem_tickFresh]

@[simp] theorem State.mem_tlbReplace (s : State) (e f : TlbEntry) : (s.tlbReplace e f).mem = s.mem := rfl

@[simp] theorem State.mem_load (s : State) (l : List ByteAt) : (s.load l).1.mem = s.mem := by
  grind [State.load, State.mem_read]

/-! ## Ports (R199 to R213) -/

theorem State.mem_claim {s t : State} {p : Nat} (h : s.claim p = some t) : t.mem = s.mem := by
  grind [State.claim, State.mem_setPort, State.mem_setLc]

theorem State.mem_reclaim {s t : State} {p : Nat} (h : s.reclaim p = some t) : t.mem = s.mem := by
  grind [State.reclaim, State.mem_claim]

@[simp] theorem State.mem_setCmds (s : State) (p : Nat) (l : List Cmd) : (s.setCmds p l).mem = s.mem := rfl

@[simp] theorem State.mem_written (s : State) (thr p n : Nat) : (s.written thr p n).mem = s.mem := by
  unfold State.written
  split <;> rfl

theorem State.mem_gate_wait {s t : State} {gs : List Reg} (h : s.gate gs = .wait t) : t.mem = s.mem := by
  grind [State.gate, State.mem_reclaim, State.mem_waiting, State.mem_setCmds]

theorem State.mem_gate_fault {s t : State} {gs : List Reg} {f : RecFault} (h : s.gate gs = .fault t f) : t.mem = s.mem := by
  grind [State.gate, State.mem_reclaim, State.mem_setCmds]

@[simp] theorem State.mem_observe (s : State) (hit : Reg × Nat × List Nat → Bool) : (s.observe hit).mem = s.mem := by
  grind [State.observe, State.mem_dropLines, State.mem_setLc]

@[simp] theorem State.mem_popIn (s : State) (p d : Nat) (m : Bool) (w : Window) : (s.popIn p d m w).mem = s.mem := by
  grind [State.popIn, State.mem_setCmds, State.mem_setLc]

@[simp] theorem State.mem_pushIn (s : State) (p r : Nat) (m : Bool) (w : Window) : (s.pushIn p r m w).mem = s.mem := by
  grind [State.pushIn, State.mem_setCmds, State.mem_setLc]

/-! ## Issue and convoys (R78, R235 to R242) -/

@[simp] theorem mem_readAll (g : Nat) (l : List (Nat × List Nat)) (s : State) : (readAll g l s).1.mem = s.mem :=
  mem_foldl State.mem_meets _ _

@[simp] theorem State.mem_runsThrough (s : State) : s.runsThrough.mem = s.mem := rfl
@[simp] theorem State.mem_endSpan (s : State) : s.endSpan.mem = s.mem := rfl
@[simp] theorem State.mem_withdrawFrom (s : State) (c : LCore) (f : Nat) : (s.withdrawFrom c f).mem = s.mem := rfl

@[simp] theorem State.mem_spanWait (s : State) (o : VMemOp) (c : LCore) (op : SpanOp) : (s.spanWait o c op).1.mem = s.mem := by
  unfold State.spanWait
  (repeat' split) <;> simp

@[simp] theorem State.mem_spanStart (s : State) (o : VMemOp) (c : LCore) (p : Probe) : (s.spanStart o c p).1.mem = s.mem := rfl

@[simp] theorem State.mem_portPlan (s : State) (word : IWord) (p : Nat) (write : Bool) : (s.portPlan word p write).1.mem = s.mem := by
  grind [State.portPlan, → State.mem_reclaim, State.mem_setCmds]

/-! ## Fetch and the turn of a thread -/

@[simp] theorem State.mem_wake (s : State) : s.wake.mem = s.mem := by
  unfold State.wake
  split <;> rfl

@[simp] theorem State.mem_saveRetire (s : State) (ctx : Nat) (d : Reg) : (s.saveRetire ctx d).mem = s.mem := by
  unfold State.saveRetire
  split <;> rfl

@[simp] theorem State.mem_stopIfAsked (s : State) (asked : Option Nat) : (s.stopIfAsked asked).mem = s.mem := by
  unfold State.stopIfAsked
  split
  · rfl
  · dsimp only
    split <;> rfl

/-! ## Caches, errors and TLBs as the agenda moves them -/

@[simp] theorem State.mem_fillData (s : State) (core key : Nat) : (s.fillData core key).mem = s.mem := by
  grind [State.fillData, State.mem_read]

@[simp] theorem State.mem_dropData (s : State) (core key : Nat) : (s.dropData core key).mem = s.mem := rfl

@[simp] theorem State.mem_fillInsn (s : State) (core key : Nat) : (s.fillInsn core key).mem = s.mem := by
  grind [State.fillInsn, State.mem_read]

@[simp] theorem State.mem_dropInsn (s : State) (core key : Nat) : (s.dropInsn core key).mem = s.mem := rfl
@[simp] theorem State.mem_dropTlb (s : State) (core bank vpn : Nat) : (s.dropTlb core bank vpn).mem = s.mem := rfl
@[simp] theorem State.mem_upset (s : State) (word : Nat) (bit : Option Nat) : (s.upset word bit).mem = s.mem := rfl
@[simp] theorem State.mem_put (s : State) (d : Reg) (x : Word) : (s.put d x).mem = s.mem := rfl

/-! ## Scalar memory (R147 to R153, R173) -/

@[simp] theorem State.mem_loadPlain (s : State) (l : List ByteAt) : (s.loadPlain l).1.mem = s.mem := by
  grind [State.loadPlain, State.mem_read]

@[simp] theorem State.mem_updateCache (s : State) (core : Nat) (l : List (Nat × Byte)) : (s.updateCache core l).mem = s.mem := rfl
@[simp] theorem mem_elementwise (m : Bool) (g : LCore → Nat → LCore) (w : Window) (s : State) : (elementwise m g w s).mem = s.mem := rfl

/-! ## Vector instructions (R288 to R298) -/

@[simp] theorem mem_wholeResult (g : Nat → LCore → LCore) (w : Window) (s : State) : (wholeResult g w s).mem = s.mem := by
  unfold wholeResult
  split <;> rfl

/-! ## Permutes and reductions (R299 to R304) -/

@[simp] theorem State.mem_signal (s : State) (launch : Nat) (lcore : Option Nat) : (s.signal launch lcore).mem = s.mem := rfl

/-! ## Vector memory instructions (R155 to R172, R305) -/

@[simp] theorem mem_vldxaIn (f : VMF) (w : Window) (s : State) : (vldxaIn f w s).mem = s.mem := by
  grind [vldxaIn, State.mem_dropLines, State.mem_setLc, State.mem_dropCache]

/-! ## Leave and the factoring area (R325, R409) -/

@[simp] theorem State.mem_askLeave (s : State) (r : LeaveRef) (rows prio : Nat) : (s.askLeave r rows prio).mem = s.mem := by
  unfold State.askLeave
  split <;> rfl

@[simp] theorem State.mem_dropLeave (s : State) (r : LeaveRef) : (s.dropLeave r).mem = s.mem := rfl
@[simp] theorem State.mem_factDrop (s : State) : s.factDrop.mem = s.mem := rfl
@[simp] theorem State.mem_factFree (s : State) : s.factFree.mem = s.mem := rfl

/-! ## Hypervectors and the Case (R310 to R330) -/

@[simp] theorem State.mem_factRun (s : State) (area : List ByteAt) : (s.factRun area).1.mem = s.mem := by
  grind [State.factRun, State.mem_load, State.mem_dropLines, State.mem_setLc]

/-! ## The Stick (R334 to R344) -/

@[simp] theorem State.mem_endAt (s : State) (stop : Option Nat) : (s.endAt stop).mem = s.mem := by
  unfold State.endAt
  split <;> rfl

/-! ## Streams (R199 to R224) -/

theorem State.mem_push_ok {s t : State} {p : Nat} {full : Bool} {x : Cmd} (h : s.push p full x = .ok t) : t.mem = s.mem := by
  grind [State.push, State.mem_claim, State.mem_setCmds]

theorem State.mem_push_error {s t : State} {p : Nat} {full : Bool} {x : Cmd} (h : s.push p full x = .error t) : t.mem = s.mem := by
  grind [State.push, State.mem_claim, State.mem_waiting]

@[simp] theorem State.mem_writeToken (s : State) (n : Nat) (t : Reg) (v : Nat) : (s.writeToken n t v).mem = s.mem := rfl
@[simp] theorem State.mem_cancel (s : State) (p : Nat) : (s.cancel p).mem = s.mem := by simp [State.cancel]
@[simp] theorem State.mem_updMemHead (s : State) (core p : Nat) (f : Cmd → Cmd) : (s.updMemHead core p f).mem = s.mem := rfl

@[simp] theorem State.mem_readPast (s : State) (met keys : List Nat) : (s.readPast met keys).1.mem = s.mem := by
  unfold State.readPast
  dsimp only
  split
  · rfl
  · exact mem_foldl State.mem_meet _ _

@[simp] theorem State.mem_serve (s : State) (core port : Nat) : (s.serve core port).mem = s.mem := rfl

/-! ## Collectives (R370 to R380) -/

@[simp] theorem State.mem_readEntry (s : State) (gid : Nat) : (s.readEntry gid).1.mem = s.mem := by
  grind [State.readEntry, State.mem_read]

@[simp] theorem State.mem_setHome (s : State) (h : HomeRound) : (s.setHome h).mem = s.mem := rfl
@[simp] theorem State.mem_countLate (s : State) (p : CollPacket) : (s.countLate p).mem = s.mem := rfl
@[simp] theorem State.mem_pushAccepted (s : State) (p : CollPacket) : (s.pushAccepted p).mem = s.mem := rfl

@[simp] theorem State.mem_homeAccepts (s : State) (p : CollPacket) : (s.homeAccepts p).mem = s.mem := by
  grind [State.homeAccepts, State.mem_setHome, State.mem_countLate]

@[simp] theorem State.mem_learnSet (s : State) (gid : Nat) (m : SetMsg) : (s.learnSet gid m).mem = s.mem := by
  grind [State.learnSet, State.mem_setHome]

@[simp] theorem State.mem_setLeader (s : State) (l : LeaderRound) : (s.setLeader l).mem = s.mem := rfl

@[simp] theorem State.mem_fixSet (s : State) (l : LeaderRound) (part : Bool) : (s.fixSet l part).mem = s.mem := by
  grind [State.fixSet, State.mem_setLeader, State.mem_setHome]

@[simp] theorem State.mem_memberGone (s : State) (g : Group) (p : CollPacket) : (s.memberGone g p).mem = s.mem :=
  mem_foldl (fun u l => by split; exacts [State.mem_fixSet u l false, rfl]) _ _

@[simp] theorem State.mem_addRelease (s : State) (r : Released) : (s.addRelease r).mem = s.mem := by
  unfold State.addRelease
  split <;> rfl

theorem State.mem_resultAt_value {s t : State} {g : Group} {gid rank o v : Nat} {round : Option Nat}
    (h : s.resultAt g gid rank round o = .value t v) : t.mem = s.mem := by
  grind [State.resultAt, State.mem_read]

theorem State.mem_resultAt_poison {s t : State} {g : Group} {gid rank o : Nat} {round : Option Nat}
    (h : s.resultAt g gid rank round o = .poison t) : t.mem = s.mem := by
  grind [State.resultAt, State.mem_read]

@[simp] theorem mem_loadResults (g : Group) (gid rank : Nat) (round : Option Nat) (d : Nat) (a : Word) (l : List Nat) (s : State) :
    (loadResults g gid rank round d a l s).1.mem = s.mem := by
  induction l generalizing s with
  | nil => rfl
  | cons e l ih => grind [loadResults, State.mem_resultAt_value, State.mem_resultAt_poison, State.mem_setLc]

@[simp] theorem State.mem_dropGroup (s : State) (gid : Nat) : (s.dropGroup gid).mem = s.mem := rfl

@[simp] theorem State.mem_groupsWritten (s : State) (keys : List Nat) : (s.groupsWritten keys).mem = s.mem :=
  mem_foldl State.mem_dropGroup _ _

/-! ## The Imposed exchange (R381 to R397) -/

@[simp] theorem State.mem_reseat (s : State) (w : Seat) (c : LCore) : (s.reseat w c).mem = s.mem := by
  unfold State.reseat
  split <;> rfl

@[simp] theorem State.mem_setXchAt (s : State) (w : Seat) (gid : Nat) (x : XchMember) : (s.setXchAt w gid x).mem = s.mem := by simp [State.setXchAt]

@[simp] theorem State.mem_areaNum (s : State) (area : List (Nat × Bool)) (off : Nat) : (s.areaNum area off).1.mem = s.mem := by
  grind [State.areaNum, State.mem_read]

@[simp] theorem State.mem_areaHead (s : State) (area : List (Nat × Bool)) : (s.areaHead area).1.mem = s.mem := by
  grind [State.areaHead, State.mem_areaNum]

@[simp] theorem State.mem_xchSettle (s : State) (x : XchMember) : (s.xchSettle x).mem = s.mem := by
  unfold State.xchSettle
  split <;> rfl

@[simp] theorem State.mem_postRow (s : State) (gid rank : Nat) (add : Bool) (row : List Nat) : (s.postRow gid rank add row).mem = s.mem := rfl
@[simp] theorem State.mem_setImposer (s : State) (x : Imposition) : (s.setImposer x).mem = s.mem := rfl

@[simp] theorem State.mem_discardRow (s : State) (g : Group) (m : DemandMsg) : (s.discardRow g m).mem = s.mem := by
  grind [State.discardRow, State.mem_setXchAt]

@[simp] theorem State.mem_joinExchange (s : State) (w : Seat) (gid : Nat) : (s.joinExchange w gid).mem = s.mem := by
  grind [State.joinExchange, State.mem_setXchAt]

@[simp] theorem State.mem_keepEarly (s : State) (m : ExchangeMsg) : (s.keepEarly m).mem = s.mem := by
  unfold State.keepEarly
  split <;> rfl

@[simp] theorem State.mem_noteGen (s : State) (gid gen : Nat) : (s.noteGen gid gen).mem = s.mem := rfl

@[simp] theorem State.mem_settleAll (s : State) (l : List LCore) : (s.settleAll l).mem = s.mem := by
  refine mem_foldl (fun u c => ?_) _ _
  exact mem_foldl (fun v (p : Nat × XchMember) => State.mem_xchSettle v p.2) _ _

@[simp] theorem State.mem_retest (s : State) (x : Imposition) : (s.retest x).mem = s.mem := by
  unfold State.retest
  (repeat' split) <;> simp

/-! ## Matrix units (R349 to R364) -/

@[simp] theorem State.mem_finishPasses (s : State) (n : Nat) : (s.finishPasses n).mem = s.mem := by
  grind [State.finishPasses, State.mem_setLcOf]

@[simp] theorem State.mem_detach (s : State) (n : Nat) : (s.detach n).mem = s.mem := by simp [State.detach]

/-! ## Control registers (R263 to R265) -/

@[simp] theorem State.mem_csrWrite (s : State) (a : Nat) (x : Word) : (s.csrWrite a x).mem = s.mem := by
  unfold State.csrWrite
  split <;> rfl

/-! ## Images (R428 to R434) -/

@[simp] theorem State.mem_nextOrder (s : State) : s.nextOrder.1.mem = s.mem := rfl

@[simp] theorem State.mem_readRegions (i : ImageAt) (l : List (Nat × Nat)) (s : State) : (State.readRegions i l s).1.mem = s.mem := by
  induction l generalizing s with
  | nil => rfl
  | cons r l ih => grind [State.readRegions, State.mem_read, -List.map_map]

@[simp] theorem State.mem_readImage (s : State) (i : ImageAt) (c : LCore) : (s.readImage i c).1.mem = s.mem := by
  have h := State.mem_readRegions i [(0, 0x500)] s
  unfold State.readImage
  generalize State.readRegions i [(0, 0x500)] s = r at h ⊢
  split
  · dsimp only at h ⊢
    generalize hr : State.readRegions _ _ _ = q
    have hq := congrArg (·.1.mem) hr
    simp only [State.mem_readRegions] at hq
    split <;> exact hq.symm.trans h
  · exact h

/-! ## Launches and the scheduler (R226 to R233) -/

@[simp] theorem State.mem_setQueue (s : State) (slot : Nat) (q : Queue) : (s.setQueue slot q).mem = s.mem := rfl
@[simp] theorem State.mem_counterFault (s : State) (slot : Nat) : (s.counterFault slot).mem = s.mem := rfl
@[simp] theorem State.mem_updLaunch (s : State) (seq : Nat) (f : Launch → Launch) : (s.updLaunch seq f).mem = s.mem := rfl
@[simp] theorem State.mem_seatOn (s : State) (n : Nat) (c : LCore) : (s.seatOn n c).mem = s.mem := rfl
@[simp] theorem State.mem_waitDone (s : State) : s.waitDone.mem = s.mem := rfl
@[simp] theorem State.mem_stopFor (s : State) (n groups : Nat) (r : Ready) : (s.stopFor n groups r).mem = s.mem := rfl
@[simp] theorem State.mem_setEvents (s : State) (p : LCore → Bool) : (s.setEvents p).mem = s.mem := rfl

/-! ## Barriers and waits (R243 to R249, R274 to R281) -/

theorem State.mem_deal {s t : State} (h : s.deal = some t) : t.mem = s.mem := by
  grind [State.deal, State.mem_reseat, State.mem_setLc]

/-! ## Queues and packets (R280, R399 to R403) -/

@[simp] theorem State.mem_post (s : State) (ctx q : Nat) (p : BitVec 512) : (s.post ctx q p).1.mem = s.mem := by
  unfold State.post
  (repeat' split) <;> simp

@[simp] theorem State.mem_startPacket (s : State) (slot : Nat) : (s.startPacket slot).mem = s.mem := rfl
@[simp] theorem State.mem_dropTlbs (s : State) (p : TlbEntry → Bool) : (s.dropTlbs p).mem = s.mem := rfl
@[simp] theorem State.mem_dropCursors (s : State) (p : TlbEntry → Bool) : (s.dropCursors p).mem = s.mem := rfl
@[simp] theorem State.mem_swapLeaf (s : State) (x : Word) : (s.swapLeaf x).1.mem = s.mem := by simp [State.swapLeaf]
@[simp] theorem State.mem_dropBlocks (s : State) (fa fb : Nat) : (s.dropBlocks fa fb).mem = s.mem := rfl
@[simp] theorem State.mem_setSwap (s : State) (w : Swap) : (s.setSwap w).mem = s.mem := rfl
@[simp] theorem State.mem_answered (s : State) (addr : Nat) (data : Option (List Byte)) : (s.answered addr data).mem = s.mem := rfl
@[simp] theorem State.mem_updSpan (s : State) (thr : Nat) (f : SpanOp → SpanOp) : (s.updSpan thr f).mem = s.mem := rfl

/-! ## Contexts (R423, R434) -/

@[simp] theorem State.mem_stopForSave (s : State) (n : Nat) : (s.stopForSave n).mem = s.mem := by
  unfold State.stopForSave
  split <;> rfl

@[simp] theorem State.mem_saveSelf (s : State) : s.saveSelf.mem = s.mem := rfl

@[simp] theorem State.mem_readyAll (s : State) (ctx : Nat) : (s.readyAll ctx).mem = s.mem :=
  mem_foldl (fun u k => by
    dsimp only
    split
    · rfl
    · split
      · exact State.mem_nextOrder u
      · rfl) _ _

@[simp] theorem State.mem_setCtxctl (s : State) (ctx : Nat) (err : Bool) : (s.setCtxctl ctx err).mem = s.mem := rfl

/-! ## Power (R409 to R414) -/

@[simp] theorem State.mem_pauseStream (s : State) (r : LeaveRef) (b : Bool) : (s.pauseStream r b).mem = s.mem := by
  unfold State.pauseStream
  split <;> rfl

@[simp] theorem State.mem_xgoGranted (s : State) (gid : Nat) : (s.xgoGranted gid).mem = s.mem := by
  grind [State.xgoGranted, State.mem_joinExchange, State.mem_xchSettle]

@[simp] theorem State.mem_grant (s : State) (r : LeaveReq) : (s.grant r).mem = s.mem := by
  unfold State.grant
  (repeat' split) <;> simp

/-! ## Errors and repair (R436 to R449) -/

@[simp] theorem State.mem_retire (s : State) (r : Retired) (code : BitVec 8) (info : Nat) :
    (s.retire r code info).mem = s.mem := by simp [State.retire]

@[simp] theorem State.mem_checkRemaps (s : State) (word : Nat) : (s.checkRemaps word).mem = s.mem :=
  mem_foldl (fun u e => by split <;> simp) _ _

@[simp] theorem State.mem_scrub (s : State) (word : Nat) : (s.scrub word).mem = s.mem := by simp [State.scrub]

@[simp] theorem State.mem_linkLog (s : State) (stack chan : Nat) (write fail swap : Bool) (lane retries : Nat) :
    (s.linkLog stack chan write fail swap lane retries).mem = s.mem := by
  unfold State.linkLog
  split <;> rfl

@[simp] theorem State.mem_countN (s : State) (i n : Nat) : (s.countN i n).mem = s.mem :=
  mem_foldl (fun u _ => State.mem_count u i) _ _

/-! ## Host, kernels and boot (R450 to R465) -/

@[simp] theorem State.mem_attested (s : State) : s.attested.mem = s.mem := rfl

end Sys2Proof.Machine

/-! # Memory stays canonical -/

namespace Sys2Proof.Machine

/-- If the outcome is a next state, memory is canonical there. -/
def NextWf (o : Host.Outcome State Fault Refusal) : Prop := ∀ t, o = .next t → Memory.wf t.mem = true

@[simp] theorem nextWf_next {t : State} : NextWf (.next t) ↔ Memory.wf t.mem = true :=
  ⟨fun h => h t rfl, fun h _ e => Host.Outcome.next.inj e ▸ h⟩

@[simp] theorem nextWf_fault (r : Fault) : NextWf (.fault r) := fun _ e => nomatch e

@[simp] theorem nextWf_refused (r : Refusal) : NextWf (.refused r) := fun _ e => nomatch e

/-- Steps that each keep the form keep it together. -/
@[simp] theorem wf_foldl {α : Type} {f : State → α → State} {l : List α} {s : State}
    (hf : ∀ u a, Memory.wf u.mem = true → Memory.wf (f u a).mem = true) (h : Memory.wf s.mem = true) :
    Memory.wf (l.foldl f s).mem = true :=
  List.foldlRecOn (motive := fun u => Memory.wf u.mem = true) l f h fun u hu a _ => hf u a hu

/-- A pair whose state keeps the form, taken apart. -/
theorem wf_of_eq {α : Type} {p : State × α} {t : State} {r : α} (he : p = (t, r)) (hp : Memory.wf p.1.mem = true) : Memory.wf t.mem = true := by
  subst he
  exact hp

/-! ## Threads, registers, memory, kills and traps -/

@[simp] theorem State.wf_poke {s : State} (l : List (Nat × Byte)) (h : Memory.wf s.mem = true) : Memory.wf (s.poke l).mem = true :=
  Memory.wf_putAll l h

@[simp] theorem State.wf_writeBack {s : State} (l : List (Nat × Byte)) (h : Memory.wf s.mem = true) :
    Memory.wf (s.writeBack l).mem = true :=
  Memory.wf_putAll l h

@[simp] theorem State.wf_putBack {s : State} (a n x : Nat) (h : Memory.wf s.mem = true) : Memory.wf (s.putBack a n x).mem = true := by
  simp [State.putBack, h]

@[simp] theorem State.wf_barComplete {s : State} (b : Nat) (h : Memory.wf s.mem = true) : Memory.wf (s.barComplete b).mem = true := by
  grind [State.barComplete, State.mem_barForget, State.wf_putBack]

@[simp] theorem State.wf_barLeave {s : State} (m : Membership) (h : Memory.wf s.mem = true) : Memory.wf (s.barLeave m).mem = true := by
  grind [State.barLeave, State.wf_putBack, State.mem_barUnreach, State.wf_barComplete]

@[simp] theorem State.wf_barLeaveAll {s : State} (c : LCore) (h : Memory.wf s.mem = true) : Memory.wf (s.barLeaveAll c).1.mem = true := by
  refine List.foldlRecOn (motive := fun (a : State × Bool) => Memory.wf a.1.mem = true) _ _ h fun a ha m _ => ?_
  grind [State.mem_read, State.wf_barLeave]

@[simp] theorem State.wf_freeHeld {s : State} (c : LCore) (n : Option Nat) (h : Memory.wf s.mem = true) : Memory.wf (s.freeHeld c n).mem = true := by
  have hl := State.wf_barLeaveAll c h
  unfold State.freeHeld
  cases n <;> simp +contextual [hl]

@[simp] theorem State.wf_kill {s : State} (ctx : Nat) (cause : BitVec 8) (thr : Nat) (h : Memory.wf s.mem = true) :
    Memory.wf (s.kill ctx cause thr).mem = true := by
  unfold State.kill
  simp only [mem_foldl (fun u (l : Launch) => State.mem_endLaunch u l.seq)]
  exact wf_foldl (fun u _ hu => by simp [hu]) (wf_foldl (fun u _ hu => by simp [hu]) h)

@[simp] theorem State.wf_deliverTo {s : State} (n : Nat) (t : Trap) (h : Memory.wf s.mem = true) : Memory.wf (s.deliverTo n t).mem = true := by
  grind [State.deliverTo, State.mem_stamp, State.wf_kill, State.mem_setLcOf]

@[simp] theorem State.wf_deliver {s : State} (t : Trap) (h : Memory.wf s.mem = true) : Memory.wf (s.deliver t).mem = true := by
  simp [State.deliver, h]

@[simp] theorem State.wf_trap {s : State} (cause : Cause) (tval : Word) (h : Memory.wf s.mem = true) : Memory.wf (s.trap cause tval).mem = true := by
  simp [State.trap, h]

@[simp] theorem State.wf_abandon {s : State} (n : Nat) (h : Memory.wf s.mem = true) : Memory.wf (s.abandon n).mem = true := by
  grind [State.abandon, State.wf_kill, State.mem_setLcOf, State.mem_stamp]

@[simp] theorem State.wf_forward {s : State} (n : Nat) (h : Memory.wf s.mem = true) : Memory.wf (s.forward n).mem = true := by
  unfold State.forward
  (repeat' split) <;> simp [h]

/-! ## Translation and the TLBs (R80 to R96) -/

@[simp] theorem State.wf_setAD {s : State} (l : Leaf) (acc : Acc) (h : Memory.wf s.mem = true) : Memory.wf (s.setAD l acc).1.mem = true := by
  grind [State.setAD, State.wf_putBack]

@[simp] theorem State.wf_walkFor {s : State} (who : Who) (cls : AccClass) (acc : Acc) (va : Word)
    (h : Memory.wf s.mem = true) : Memory.wf (s.walkFor who cls acc va).1.mem = true := by
  grind [State.walkFor, State.mem_walk, State.wf_setAD]

@[simp] theorem State.wf_useEntry {s : State} (e : TlbEntry) (acc : Acc)
    (h : Memory.wf s.mem = true) : Memory.wf (s.useEntry e acc).1.mem = true := by
  grind [State.useEntry, State.mem_read, State.mem_tlbReplace, State.wf_putBack]

@[simp] theorem State.wf_leafFor {s : State} (core bank : Nat) (who : Who) (cls : AccClass) (acc : Acc) (va : Word)
    (h : Memory.wf s.mem = true) : Memory.wf (s.leafFor core bank who cls acc va).1.mem = true := by
  grind [State.leafFor, State.wf_walkFor, State.mem_tlbFill, State.wf_useEntry]

@[simp] theorem State.wf_xlate {s : State} (bank : Nat) (who : Who) (cls : AccClass) (acc : Acc) (va : Word)
    (h : Memory.wf s.mem = true) : Memory.wf (s.xlate bank who cls acc va).1.mem = true := by
  grind [State.xlate, State.wf_leafFor, State.wf_walkFor]

@[simp] theorem State.wf_xlateBytes {s : State} (bank : Nat) (who : Who) (cls : AccClass) (acc : Acc) (x4 : Nat) (x6 : Word) (x7 : Nat)
    (h : Memory.wf s.mem = true) : Memory.wf (State.xlateBytes bank who cls acc x4 s x6 x7).1.mem = true := by
  fun_induction State.xlateBytes bank who cls acc x4 s x6 x7 <;> grind [State.wf_xlate]

@[simp] theorem State.wf_span {s : State} (cls : AccClass) (acc : Acc) (va : Word) (n : Nat)
    (h : Memory.wf s.mem = true) : Memory.wf (s.span cls acc va n).1.mem = true := by
  simp [State.span, h]

@[simp] theorem State.wf_store {s : State} (core : Nat) (l : List ByteAt) (b : List Byte)
    (h : Memory.wf s.mem = true) : Memory.wf (s.store core l b).mem = true := by
  grind [State.store, State.mem_dropLines, State.wf_write]

@[simp] theorem State.wf_placeOf {s : State} (ctx : Nat) (level : Level) (cls : AccClass) (acc : Acc) (va : Word) (n : Nat)
    (h : Memory.wf s.mem = true) : Memory.wf (s.placeOf ctx level cls acc va n).1.mem = true := by
  simp [State.placeOf, h]

/-! ## Vector memory (R155 to R172) -/

@[simp] theorem State.wf_xlateRuns {s : State} (bank : Nat) (who : Who) (cls : AccClass) (acc : Acc) (x4 : List (Word × Nat))
    (h : Memory.wf s.mem = true) : Memory.wf (State.xlateRuns bank who cls acc x4 s).1.mem = true := by
  fun_induction State.xlateRuns bank who cls acc x4 s <;> grind [State.wf_xlateBytes]

@[simp] theorem VMemOp.wf_probeElem {s : State} (o : VMemOp) (who : Who) (sew c e : Nat) (x : ElemAt)
    (h : Memory.wf s.mem = true) : Memory.wf (o.probeElem s who sew c e x).1.mem = true := by
  unfold VMemOp.probeElem
  (repeat' split) <;> simp [h]

@[simp] theorem VMemOp.wf_probe {s : State} (o : VMemOp) (c : LCore) (who : Who) (x3 : List Nat)
    (h : Memory.wf s.mem = true) : Memory.wf (o.probe c who x3 s).1.mem = true := by
  fun_induction o.probe c who x3 s <;> grind [VMemOp.wf_probeElem]

@[simp] theorem VMemOp.wf_storeElem {s : State} (o : VMemOp) (e : Nat) (keys : List Nat)
    (h : Memory.wf s.mem = true) : Memory.wf (o.storeElem s e keys).mem = true := by
  simp [VMemOp.storeElem, h]

@[simp] theorem VMemOp.wf_storeBlock {s : State} (o : VMemOp) (w : Window) (blk : Nat) (keys : List Nat)
    (h : Memory.wf s.mem = true) : Memory.wf (o.storeBlock w s blk keys).mem = true := by
  simp [VMemOp.storeBlock, h]

@[simp] theorem VMemOp.wf_storeBytes {s : State} (o : VMemOp) (w : Window) (h : Memory.wf s.mem = true) :
    Memory.wf (o.storeBytes w s).mem = true := by
  unfold VMemOp.storeBytes
  split
  · exact wf_foldl (fun u _ hu => by simp [hu]) h
  · refine wf_foldl (fun u e hu => ?_) h
    split <;> simp [hu]

@[simp] theorem VMemOp.wf_storeIn {s : State} (o : VMemOp) (w : Window) (h : Memory.wf s.mem = true) : Memory.wf (o.storeIn w s).mem = true := by
  simp [VMemOp.storeIn, h]

@[simp] theorem VMemOp.wf_atomicIn {s : State} (o : VMemOp) (op : AtomOp) (w : Window) (h : Memory.wf s.mem = true) :
    Memory.wf (o.atomicIn op w s).mem = true := by
  refine wf_foldl (fun u e hu => ?_) h
  split
  · exact hu
  · dsimp only
    split <;> simp [hu]

/-! ## Ports (R199 to R213) -/

theorem nextWf_afterPushes {rel : Bool} {k : State → Host.Outcome State Fault Refusal} {s : State}
    (h : Memory.wf s.mem = true) (hk : NextWf (k s)) : NextWf (afterPushes rel k s) := by
  unfold afterPushes
  split
  · simp [h]
  · exact hk

theorem nextWf_scalar {gs : List Reg} {s : State} {k : State → Host.Outcome State Fault Refusal} (h : Memory.wf s.mem = true)
    (hk : ∀ u, Memory.wf u.mem = true → NextWf (k u)) : NextWf (scalar gs s k) := by
  unfold scalar
  split
  case h_1 hg => exact nextWf_next.mpr (State.mem_gate_wait hg ▸ h)
  case h_2 hg => exact nextWf_next.mpr (State.wf_trap _ _ (State.mem_gate_fault hg ▸ h))
  case h_3 => exact hk _ (by simpa using h)

/-! ## Issue and convoys (R78, R235 to R242) -/

@[simp] theorem State.wf_probeFrom {s : State} (o : VMemOp) (c : LCore) (vl : Nat)
    (h : Memory.wf s.mem = true) : Memory.wf (s.probeFrom o c vl).1.mem = true := by
  grind [State.probeFrom, VMemOp.wf_probe]

@[simp] theorem State.wf_accessPlan {s : State} (o : VMemOp) (c : LCore)
    (h : Memory.wf s.mem = true) : Memory.wf (s.accessPlan o c).1.mem = true := by
  grind [State.accessPlan, State.wf_probeFrom, mem_readAll, State.mem_spanStart]

@[simp] theorem State.wf_vmemPlan {s : State} (o : VMemOp) (c : LCore) (h : Memory.wf s.mem = true) : Memory.wf (s.vmemPlan o c).1.mem = true := by
  unfold State.vmemPlan
  (repeat' split) <;> simp [h]

@[simp] theorem State.wf_cappEntries {s : State} (q : QueueObj) (x1 : List Nat)
    (h : Memory.wf s.mem = true) : Memory.wf (State.cappEntries q x1 s).1.mem = true := by
  fun_induction State.cappEntries q x1 s <;> grind [State.wf_span]

@[simp] theorem State.wf_cappPlan {s : State} (addr : Word) (m : Bool) (c : LCore) (h : Memory.wf s.mem = true) :
    Memory.wf (s.cappPlan addr m c).1.mem = true := by
  unfold State.cappPlan
  extract_lets vl k fault
  have hf : ∀ {u : State} {e : Stop}, Memory.wf u.mem = true → Memory.wf (fault u e).1.mem = true := fun {u e} hu => by
    dsimp only [fault]
    split <;> exact hu
  clear_value fault k vl
  split
  · exact h
  split
  · exact h
  split
  · exact hf h
  split
  · exact hf h
  have hspan := State.wf_span .vectorAtomic .rmw addr 64 h
  split
  · exact hf (wf_of_eq ‹_› hspan)
  rename_i l hl
  have hload := (State.mem_load _ l).symm ▸ wf_of_eq hl hspan
  split
  · exact hf (wf_of_eq ‹_› hload)
  rename_i b hb
  have hu := wf_of_eq hb hload
  extract_lets v q
  have hv : Memory.wf v.mem = true := by simpa [v] using hu
  clear_value v q
  split
  · exact hf hv
  split
  · exact hf hv
  have hent := State.wf_cappEntries q (List.range k) hv
  split
  · exact hf (wf_of_eq ‹_› hent)
  · exact wf_of_eq ‹_› hent

@[simp] theorem State.wf_planOf {s : State} (i : Instr) (c : LCore) (h : Memory.wf s.mem = true) : Memory.wf (s.planOf i c).1.mem = true := by
  unfold State.planOf
  (repeat' split) <;> simp [h]

theorem State.nextWf_stopped {s : State} (why : Stop) (memb : Nat) (vst : BitVec 13)
    (h : Memory.wf s.mem = true) : NextWf (s.stopped why memb vst) := by
  unfold State.stopped
  (repeat' split) <;> simp [h]

/-- Members that each keep the form keep it together. -/
theorem wf_runAll {run : Instr → Window → State → State} (hr : ∀ i w u, Memory.wf u.mem = true → Memory.wf (run i w u).mem = true)
    (w : Window) (ms : List Instr) {s : State} (h : Memory.wf s.mem = true) : Memory.wf (runAll run w ms s).mem = true := by
  induction ms generalizing s with
  | nil => exact h
  | cons i ms ih =>
    cases ms with
    | nil => exact hr i w s h
    | cons j ms =>
      refine ih ?_
      split
      · exact hr i w s h
      · exact hr i w s h

theorem nextWf_runWindow {ms : List Instr} {run : Instr → Window → State → State}
    (hr : ∀ i w u, Memory.wf u.mem = true → Memory.wf (run i w u).mem = true) {memb vl : Nat} {stop : Option (Nat × Stop)}
    {places : List (Nat × List Nat)} {data : List (Nat × List Byte)} {shape : Option Shape} {s : State} (h : Memory.wf s.mem = true) :
    NextWf (runWindow ms run memb vl stop places data shape s) := by
  have hall : ∀ w, Memory.wf (runAll run w ms s).mem = true := fun w => wf_runAll hr w ms h
  unfold runWindow
  dsimp only
  split
  · simp [hall]
  · split
    · exact State.nextWf_stopped _ _ _ (hall _)
    · simp [hall]

theorem nextWf_runGroup {ms : List Instr} {mems : List Member} {run : Instr → Window → State → State}
    (hr : ∀ i w u, Memory.wf u.mem = true → Memory.wf (run i w u).mem = true) {s : State} (h : Memory.wf s.mem = true) :
    NextWf (runGroup ms mems run s) := by
  unfold runGroup
  split
  · exact nextWf_runWindow hr h
  · extract_lets i w before
    have hp := State.wf_planOf i before h
    split
    all_goals
      rename_i he
      rw [he] at hp
    · exact nextWf_runWindow hr hp
    · exact State.nextWf_stopped _ _ _ hp
    · exact State.nextWf_stopped _ _ _ hp
    · simpa using hp

theorem nextWf_issueGroup {broken : Option Nat} {ms : List Instr} {run : Instr → Window → State → State}
    (hr : ∀ i w u, Memory.wf u.mem = true → Memory.wf (run i w u).mem = true) {s : State} (h : Memory.wf s.mem = true) :
    NextWf (issueGroup broken ms run s) := by
  unfold issueGroup
  dsimp only
  split
  · simp [h]
  · split
    · simp [h]
    · exact nextWf_scalar h fun u hu => nextWf_runGroup hr hu

theorem nextWf_member {i : Instr} {eff : Window → State → State} (he : ∀ w u, Memory.wf u.mem = true → Memory.wf (eff w u).mem = true)
    {s : State} (h : Memory.wf s.mem = true) : NextWf (member i eff s) := by
  unfold member
  split
  · exact nextWf_next.mpr (he _ _ h)
  · exact nextWf_issueGroup (fun _ w u hu => he w u hu) h

/-! ## Vector instructions (R288 to R298) -/

theorem nextWf_elementwise {i : Instr} {m : Bool} {g : LCore → Nat → LCore} {s : State} (h : Memory.wf s.mem = true) :
    NextWf (member i (elementwise m g) s) :=
  nextWf_member (eff := elementwise m g) (fun _ _ hu => hu) h

theorem nextWf_wholeResult {i : Instr} {g : Nat → LCore → LCore} {s : State} (h : Memory.wf s.mem = true) :
    NextWf (member i (wholeResult g) s) :=
  nextWf_member (eff := wholeResult g) (fun w u hu => by simpa using hu) h

/-! ## Issue and convoys (R78, R235 to R242) -/

theorem nextWf_checked {x : Member} {s : State} {k : State → Host.Outcome State Fault Refusal} (h : Memory.wf s.mem = true)
    (hk : ∀ u, Memory.wf u.mem = true → NextWf (k u)) : NextWf (checked x s k) := by
  unfold checked
  split
  · simp [h]
  · split
    · simp [h]
    · exact nextWf_scalar h hk

/-! ## Fetch and the turn of a thread -/

@[simp] theorem State.wf_fetchWord {s : State} (va : Word) (h : Memory.wf s.mem = true) : Memory.wf (s.fetchWord va).1.mem = true := by
  grind [State.fetchWord, State.wf_span, State.mem_read]

@[simp] theorem State.wf_gather {s : State} (w : IWord) (x1 x2 : Nat) (x4 : Word)
    (h : Memory.wf s.mem = true) : Memory.wf (State.gather w x1 x2 s x4).1.mem = true := by
  fun_induction State.gather w x1 x2 s x4 <;> grind [State.wf_fetchWord]

@[simp] theorem State.wf_fetchGroup {s : State} (va : Word) (h : Memory.wf s.mem = true) : Memory.wf (s.fetchGroup va).1.mem = true := by
  grind [State.fetchGroup, State.wf_fetchWord, State.wf_gather]

/-! ## Scalar instructions (R253 to R262) -/

theorem nextWf_opABD {s : State} (f : SF) (op : Word → Word → Word) (h : Memory.wf s.mem = true) : NextWf (opABD f op s) := by
  grind [opABD, nextWf_next, nextWf_fault, nextWf_scalar, State.mem_put]

theorem nextWf_opAD {s : State} (f : SF) (op : Word → Word) (h : Memory.wf s.mem = true) : NextWf (opAD f op s) := by
  grind [opAD, nextWf_next, nextWf_fault, nextWf_scalar, State.mem_put]

theorem nextWf_opImm {s : State} (f : IF) (op : Word → Word → Word) (h : Memory.wf s.mem = true) : NextWf (opImm f op s) := by
  grind [opImm, nextWf_next, nextWf_fault, nextWf_scalar, State.mem_put]

theorem nextWf_opShift {s : State} (f : HF) (op : Word → Nat → Word) (h : Memory.wf s.mem = true) : NextWf (opShift f op s) := by
  grind [opShift, nextWf_next, nextWf_fault, nextWf_scalar, State.mem_put]

theorem nextWf_branch {s : State} (f : BF) (cond : Word → Word → Bool) (h : Memory.wf s.mem = true) : NextWf (branch f cond s) := by
  grind [branch, nextWf_next, nextWf_fault, nextWf_scalar, State.mem_setLc]

theorem nextWf_execLui {s : State} (f : UF) (h : Memory.wf s.mem = true) : NextWf (execLui f s) := by
  grind [execLui, nextWf_next, nextWf_fault, nextWf_scalar, State.mem_put]

theorem nextWf_execAuipc {s : State} (f : UF) (h : Memory.wf s.mem = true) : NextWf (execAuipc f s) := by
  grind [execAuipc, nextWf_next, nextWf_fault, nextWf_scalar, State.mem_put]

theorem nextWf_execJal {s : State} (f : UF) (h : Memory.wf s.mem = true) : NextWf (execJal f s) := by
  grind [execJal, nextWf_next, nextWf_fault, nextWf_scalar, State.mem_setLc]

theorem nextWf_execJalr {s : State} (f : IF) (h : Memory.wf s.mem = true) : NextWf (execJalr f s) := by
  grind [execJalr, nextWf_next, nextWf_fault, nextWf_scalar, State.mem_setLc, State.wf_trap]

theorem nextWf_execLoop {s : State} (f : BF) (h : Memory.wf s.mem = true) : NextWf (execLoop f s) := by
  grind [execLoop, nextWf_next, nextWf_fault, nextWf_scalar, State.mem_setLc]

/-! ## Scalar floating point (R257 to R259) -/

theorem nextWf_opF {s : State} (f : FF) (op : Fmt → Nat → Nat → BitVec 2 → Nat × BitVec 5) (h : Memory.wf s.mem = true) : NextWf (opF f op s) := by
  grind [opF, nextWf_next, nextWf_fault, nextWf_scalar, State.mem_setLc]

theorem nextWf_execFsqrt {s : State} (f : FF) (h : Memory.wf s.mem = true) : NextWf (execFsqrt f s) := by
  grind [execFsqrt, nextWf_next, nextWf_fault, nextWf_scalar, State.mem_setLc]

theorem nextWf_execFma {s : State} (f : FF) (h : Memory.wf s.mem = true) : NextWf (execFma f s) := by
  grind [execFma, nextWf_next, nextWf_fault, nextWf_scalar, State.mem_setLc]

theorem nextWf_execFcmp {s : State} (f : FCF) (h : Memory.wf s.mem = true) : NextWf (execFcmp f s) := by
  grind [execFcmp, nextWf_next, nextWf_fault, nextWf_scalar, State.mem_setLc]

theorem nextWf_execFmv {s : State} (f : FF) (h : Memory.wf s.mem = true) : NextWf (execFmv f s) := by
  grind [execFmv, nextWf_next, nextWf_fault, nextWf_scalar, State.mem_put]

theorem nextWf_execFcvt {s : State} (f : FF) (h : Memory.wf s.mem = true) : NextWf (execFcvt f s) := by
  grind [execFcvt, nextWf_next, nextWf_fault, nextWf_scalar, State.mem_setLc]

/-! ## Scalar memory (R147 to R153, R173) -/

@[simp] theorem State.wf_scalarAccess {s : State} (cls : AccClass) (acc : Acc) (addr : Word) (n : Nat)
    (h : Memory.wf s.mem = true) : Memory.wf (s.scalarAccess cls acc addr n).1.mem = true := by
  unfold State.scalarAccess
  (repeat' split) <;> simp [h]

theorem nextWf_scalarLoad {s : State} (n : Nat) (ext : Nat → Word) (f : IF) (h : Memory.wf s.mem = true) : NextWf (scalarLoad n ext f s) := by
  grind [scalarLoad, nextWf_next, nextWf_fault, nextWf_scalar, State.wf_scalarAccess, State.nextWf_stopped, State.mem_loadPlain, State.mem_put]

theorem nextWf_scalarStore {s : State} (n : Nat) (f : IF) (h : Memory.wf s.mem = true) : NextWf (scalarStore n f s) := by
  grind [scalarStore, nextWf_next, nextWf_fault, nextWf_scalar, State.wf_scalarAccess, State.nextWf_stopped, State.mem_setLc,
    State.mem_updateCache, State.wf_write]

theorem nextWf_scalarAtomic {s : State} (op : AtomOp) (f : AF) (h : Memory.wf s.mem = true) : NextWf (scalarAtomic op f s) := by
  grind [scalarAtomic, nextWf_next, nextWf_fault, nextWf_scalar, nextWf_afterPushes, State.wf_scalarAccess, State.nextWf_stopped, State.mem_read,
    State.wf_write, State.wf_writeBack, State.mem_dropLines, State.mem_dropCache, State.mem_setLc, State.mem_put]

theorem nextWf_execFence {s : State} (f : IF) (h : Memory.wf s.mem = true) : NextWf (execFence f s) := by
  grind [execFence, nextWf_next, nextWf_fault, State.mem_waiting, State.mem_dropCache, State.mem_dropInsns, State.mem_setLc]

/-! ## Vector instructions (R288 to R298) -/

theorem nextWf_setVl {s : State} (d : Reg) (req avl : Word) (h : Memory.wf s.mem = true) : NextWf (setVl d req avl s) := by
  simp [setVl, h]

theorem nextWf_serial {gs : List Reg} {s : State} {k : State → Host.Outcome State Fault Refusal} (h : Memory.wf s.mem = true)
    (hk : ∀ u, Memory.wf u.mem = true → NextWf (k u)) : NextWf (serial gs s k) := by
  unfold serial
  split
  · simp [h]
  · exact nextWf_scalar h hk

theorem nextWf_execSetvl {s : State} (f : SF) (h : Memory.wf s.mem = true) : NextWf (execSetvl f s) := by
  grind [execSetvl, nextWf_next, nextWf_fault, nextWf_serial, nextWf_setVl]

theorem nextWf_execSetvli {s : State} (f : IF) (h : Memory.wf s.mem = true) : NextWf (execSetvli f s) := by
  grind [execSetvli, nextWf_next, nextWf_fault, nextWf_serial, nextWf_setVl]

theorem nextWf_intVV {s : State} (i : Instr) (f : VF) (op : Nat → Nat → Nat → Nat) (h : Memory.wf s.mem = true) : NextWf (intVV i f op s) := by
  grind [intVV, nextWf_next, nextWf_fault, nextWf_member, mem_elementwise]

theorem nextWf_intVG {s : State} (i : Instr) (f : VF) (op : Nat → Nat → Nat → Nat) (h : Memory.wf s.mem = true) : NextWf (intVG i f op s) := by
  grind [intVG, nextWf_next, nextWf_fault, nextWf_member, mem_elementwise]

theorem nextWf_intV {s : State} (i : Instr) (f : VF) (op : Nat → Nat → Nat) (h : Memory.wf s.mem = true) : NextWf (intV i f op s) := by
  grind [intV, nextWf_next, nextWf_fault, nextWf_member, mem_elementwise]

theorem nextWf_fpVV {s : State} (i : Instr) (f : VF) (op : Fmt → Nat → Nat → Nat → BitVec 2 → Nat × BitVec 5)
    (h : Memory.wf s.mem = true) : NextWf (fpVV i f op s) := by
  grind [fpVV, nextWf_next, nextWf_fault, nextWf_member, mem_elementwise]

theorem nextWf_fpVG {s : State} (i : Instr) (f : VF) (op : Fmt → Nat → Nat → Nat → BitVec 2 → Nat × BitVec 5)
    (h : Memory.wf s.mem = true) : NextWf (fpVG i f op s) := by
  grind [fpVG, nextWf_next, nextWf_fault, nextWf_member, mem_elementwise]

theorem nextWf_fpV {s : State} (i : Instr) (f : VF) (op : Fmt → Nat → BitVec 2 → Nat × BitVec 5)
    (h : Memory.wf s.mem = true) : NextWf (fpV i f op s) := by
  grind [fpV, nextWf_next, nextWf_fault, nextWf_member, mem_elementwise]

theorem nextWf_cmpVV {s : State} (i : Instr) (f : VF) (rel : Nat → Nat → Nat → Bool) (h : Memory.wf s.mem = true) : NextWf (cmpVV i f rel s) := by
  grind [cmpVV, nextWf_next, nextWf_fault, nextWf_member, mem_elementwise]

theorem nextWf_cmpVG {s : State} (i : Instr) (f : VF) (rel : Nat → Nat → Nat → Bool) (h : Memory.wf s.mem = true) : NextWf (cmpVG i f rel s) := by
  grind [cmpVG, nextWf_next, nextWf_fault, nextWf_member, mem_elementwise]

theorem nextWf_fcmpVV {s : State} (i : Instr) (f : VF) (n : Nat) (h : Memory.wf s.mem = true) : NextWf (fcmpVV i f n s) := by
  grind [fcmpVV, nextWf_next, nextWf_fault, nextWf_member, mem_elementwise]

theorem nextWf_fcmpVG {s : State} (i : Instr) (f : VF) (n : Nat) (h : Memory.wf s.mem = true) : NextWf (fcmpVG i f n s) := by
  grind [fcmpVG, nextWf_next, nextWf_fault, nextWf_member, mem_elementwise]

theorem nextWf_maskOp {s : State} (i : Instr) (f : VF) (op : Bool → Bool → Bool) (h : Memory.wf s.mem = true) : NextWf (maskOp i f op s) := by
  grind [maskOp, nextWf_next, nextWf_fault, nextWf_member, mem_elementwise]

/-! ## Permutes and reductions (R299 to R304) -/

theorem nextWf_intReduce {s : State} (i : Instr) (f : VF) (op : Word → Word → Word) (h : Memory.wf s.mem = true) : NextWf (intReduce i f op s) := by
  grind [intReduce, nextWf_next, nextWf_fault, nextWf_member, mem_wholeResult]

theorem nextWf_fpReduce {s : State} (i : Instr) (f : VF) (op : Fmt → Nat → Nat → BitVec 2 → Nat × BitVec 5)
    (h : Memory.wf s.mem = true) : NextWf (fpReduce i f op s) := by
  grind [fpReduce, nextWf_next, nextWf_fault, nextWf_member, mem_wholeResult]

@[simp] theorem wf_cappIn {s : State} (m : Bool) (w : Window) (h : Memory.wf s.mem = true) : Memory.wf (cappIn m w s).mem = true := by
  grind [cappIn, State.mem_dropLines, State.wf_write, State.mem_signal]

theorem nextWf_execCapp {s : State} (f : VF) (h : Memory.wf s.mem = true) : NextWf (execCapp f s) := by
  grind [execCapp, nextWf_next, nextWf_fault, nextWf_member, wf_cappIn]

/-! ## Vector memory instructions (R155 to R172, R305) -/

theorem nextWf_loadMember {s : State} (i : Instr) (h : Memory.wf s.mem = true) : NextWf (loadMember i s) := by
  grind [loadMember, nextWf_next, nextWf_fault, nextWf_member, State.mem_dropLines, State.mem_setLc]

theorem nextWf_storeMember {s : State} (i : Instr) (h : Memory.wf s.mem = true) : NextWf (storeMember i s) := by
  grind [storeMember, nextWf_next, nextWf_fault, nextWf_member, VMemOp.wf_storeIn]

theorem nextWf_execVldxa {s : State} (f : VMF) (h : Memory.wf s.mem = true) : NextWf (execVldxa f s) := by
  grind [execVldxa, nextWf_next, nextWf_fault, nextWf_member, mem_vldxaIn]

theorem nextWf_atomicMember {s : State} (i : Instr) (op : AtomOp) (h : Memory.wf s.mem = true) : NextWf (atomicMember i op s) := by
  grind [atomicMember, nextWf_next, nextWf_fault, nextWf_member, VMemOp.wf_atomicIn]

/-! ## Leave and the factoring area (R325, R409) -/

@[simp] theorem State.wf_putParts {s : State} (key : Nat) (l : List (Nat × List Byte)) (h : Memory.wf s.mem = true) :
    Memory.wf (s.putParts key l).mem = true :=
  wf_foldl (fun _ _ hu => State.wf_write _ hu) h

/-! ## Hypervectors and the Case (R310 to R330) -/

theorem nextWf_execHvset {s : State} (f : VF) (h : Memory.wf s.mem = true) : NextWf (execHvset f s) := by
  grind [execHvset, nextWf_next, nextWf_fault, nextWf_serial, State.wf_trap, State.mem_setLc]

theorem nextWf_execHvrand {s : State} (f : VF) (h : Memory.wf s.mem = true) : NextWf (execHvrand f s) := by
  grind [execHvrand, nextWf_next, nextWf_fault, nextWf_checked, State.mem_setLc]

theorem nextWf_execHvstat {s : State} (f : VF) (h : Memory.wf s.mem = true) : NextWf (execHvstat f s) := by
  grind [execHvstat, nextWf_next, nextWf_fault, nextWf_serial, State.mem_setLc]

@[simp] theorem State.wf_readSort {s : State} (i : Nat) (h : Memory.wf s.mem = true) : Memory.wf (s.readSort i).1.mem = true := by
  grind [State.readSort, State.wf_span, State.mem_load, State.mem_dropLines]

@[simp] theorem State.wf_readSorts {s : State} (x0 : List Nat) (h : Memory.wf s.mem = true) : Memory.wf (State.readSorts x0 s).1.mem = true := by
  fun_induction State.readSorts x0 s <;> grind [State.wf_readSort]

theorem nextWf_execHvclean {s : State} (f : VF) (h : Memory.wf s.mem = true) : NextWf (execHvclean f s) := by
  grind [execHvclean, nextWf_next, nextWf_fault, nextWf_checked, State.wf_trap, State.mem_setLc, State.wf_readSorts, State.nextWf_stopped]

@[simp] theorem State.wf_putArea {s : State} (area : List ByteAt) (parts : List (Nat × List Byte))
    (h : Memory.wf s.mem = true) : Memory.wf (s.putArea area parts).mem = true := by
  simp +contextual [State.putArea, h]

@[simp] theorem State.wf_factSave {s : State} (area : List ByteAt) (r : Fact)
    (h : Memory.wf s.mem = true) : Memory.wf (s.factSave area r).mem = true := by
  simp [State.factSave, h]

@[simp] theorem State.wf_factStop {s : State} (area : List ByteAt) (r : Fact)
    (h : Memory.wf s.mem = true) : Memory.wf (s.factStop area r).mem = true := by
  simp [State.factStop, h]

theorem State.nextWf_factFault {s : State} (area : List ByteAt) (r : Fact) (e : Stop) (h : Memory.wf s.mem = true) :
    NextWf (s.factFault area r e) := by
  unfold State.factFault
  split
  · simp [h]
  · exact State.nextWf_stopped _ _ _ h
  · exact State.nextWf_stopped _ _ _ (State.wf_factStop _ _ h)

theorem State.nextWf_factBlock {s : State} (d : Reg) (area : List ByteAt) (x : Nat) (r : Fact)
    (h : Memory.wf s.mem = true) : NextWf (s.factBlock d area x r) := by
  grind [State.factBlock, nextWf_next, nextWf_fault, State.wf_readSorts, State.nextWf_factFault, State.mem_factFree, State.wf_putArea,
    State.mem_setLc]

theorem State.nextWf_factGo {s : State} (d : Reg) (x : Nat) (h : Memory.wf s.mem = true) : NextWf (s.factGo d x) := by
  grind [State.factGo, nextWf_next, nextWf_fault, State.wf_span, State.mem_factFree, State.mem_waiting, State.nextWf_stopped, State.mem_factRun,
    State.wf_factStop, State.mem_factDrop, State.wf_factSave, State.nextWf_factBlock]

theorem nextWf_execHvfact {s : State} (f : VF) (h : Memory.wf s.mem = true) : NextWf (execHvfact f s) := by
  grind [execHvfact, nextWf_next, nextWf_fault, nextWf_checked, State.wf_trap, State.mem_waiting, State.mem_askLeave, State.nextWf_factGo]

theorem nextWf_execFactoringBufferTake {s : State} (core thr : Nat) (h : Memory.wf s.mem = true) : NextWf (execFactoringBufferTake core thr s) := by
  unfold execFactoringBufferTake
  split
  · exact nextWf_next.mpr h
  rename_i y _
  extract_lets t pass o
  split
  · have hp : ∀ {u : State}, Memory.wf u.mem = true → Memory.wf (pass u).mem = true := id
    have ho : Memory.wf o.mem = true := h
    clear_value pass o
    split
    · exact nextWf_next.mpr (hp ((State.mem_factFree _).symm ▸ ho))
    have hs := State.wf_span .ownVault .rmw o.lc.work (49 * o.lc.sst) ho
    split
    · exact nextWf_next.mpr h
    · rename_i u e _ hu
      have hst := State.nextWf_stopped e 0 u.lc.vstart ((State.mem_factFree u).symm ▸ wf_of_eq hu hs)
      split
      · exact nextWf_next.mpr (hp (hst _ ‹_›))
      · exact hst
    · exact nextWf_next.mpr (hp (State.wf_factStop _ _ (wf_of_eq ‹_› hs)))
  · exact nextWf_next.mpr h

/-! ## The Stick (R334 to R344) -/

theorem nextWf_execSkset {s : State} (f : VF) (h : Memory.wf s.mem = true) : NextWf (execSkset f s) := by
  grind [execSkset, nextWf_next, nextWf_fault, nextWf_serial, State.wf_trap, State.mem_setLc]

theorem nextWf_execSkclr {s : State} (_f : VF) (h : Memory.wf s.mem = true) : NextWf (execSkclr _f s) := by
  grind [execSkclr, nextWf_next, nextWf_fault, nextWf_serial, State.mem_setLc]

theorem nextWf_onStick {x : Member} {s : State} {k : State → Host.Outcome State Fault Refusal} (h : Memory.wf s.mem = true)
    (hk : ∀ u, Memory.wf u.mem = true → NextWf (k u)) : NextWf (onStick x s k) := by
  refine nextWf_checked h fun u hu => ?_
  split
  · simp [hu]
  · split
    · simp [hu]
    · exact hk u hu

theorem nextWf_execSkfeed {s : State} (f : VF) (h : Memory.wf s.mem = true) : NextWf (execSkfeed f s) := by
  grind [execSkfeed, nextWf_next, nextWf_fault, nextWf_onStick, State.mem_endAt, State.mem_setLc]

theorem nextWf_execSkest {s : State} (f : VF) (h : Memory.wf s.mem = true) : NextWf (execSkest f s) := by
  grind [execSkest, nextWf_next, nextWf_fault, nextWf_onStick, State.mem_endAt, State.mem_setLc]

theorem nextWf_execSkstat {s : State} (f : VF) (h : Memory.wf s.mem = true) : NextWf (execSkstat f s) := by
  grind [execSkstat, nextWf_next, nextWf_fault, nextWf_onStick, State.mem_setLc]

/-! ## Streams (R199 to R224) -/

theorem nextWf_execStrm {s : State} (f : VF) (h : Memory.wf s.mem = true) : NextWf (execStrm f s) := by
  grind [execStrm, nextWf_next, nextWf_fault, nextWf_checked, State.wf_trap, State.mem_setLc, State.mem_put, State.mem_push_ok, State.mem_push_error]

theorem nextWf_execVldp {s : State} (f : VF) (h : Memory.wf s.mem = true) : NextWf (execVldp f s) := by
  grind [execVldp, nextWf_next, nextWf_fault, nextWf_member, State.mem_popIn]

theorem nextWf_execVstp {s : State} (f : VF) (h : Memory.wf s.mem = true) : NextWf (execVstp f s) := by
  grind [execVstp, nextWf_next, nextWf_fault, nextWf_member, State.mem_pushIn]

theorem nextWf_execSavail {s : State} (f : VF) (h : Memory.wf s.mem = true) : NextWf (execSavail f s) := by
  grind [execSavail, nextWf_next, nextWf_fault, nextWf_scalar, State.mem_put]

theorem nextWf_onPort {p : Nat} {s : State} {k : State → Host.Outcome State Fault Refusal} (h : Memory.wf s.mem = true)
    (hk : ∀ u, Memory.wf u.mem = true → NextWf (k u)) : NextWf (onPort p s k) := by
  unfold onPort
  split
  · simp [h]
  · exact hk _ (State.mem_reclaim ‹_› ▸ h)

theorem nextWf_execSwait {s : State} (f : VF) (h : Memory.wf s.mem = true) : NextWf (execSwait f s) := by
  grind [execSwait, nextWf_next, nextWf_fault, nextWf_onPort, State.mem_observe, State.mem_setLc, State.wf_trap, State.mem_setCmds, State.mem_waiting]

theorem nextWf_stopHead {p : Nat} {s : State} {k : State → Host.Outcome State Fault Refusal} (h : Memory.wf s.mem = true)
    (hk : NextWf (k s)) : NextWf (stopHead p s k) := by
  unfold stopHead
  dsimp only
  split
  · exact hk
  · split
    · exact hk
    · simp [h]

theorem nextWf_execScancel {s : State} (f : VF) (h : Memory.wf s.mem = true) : NextWf (execScancel f s) := by
  grind [execScancel, nextWf_next, nextWf_fault, nextWf_onPort, State.mem_setLc, nextWf_stopHead, State.mem_cancel]

theorem nextWf_execSsusp {s : State} (f : VF) (h : Memory.wf s.mem = true) : NextWf (execSsusp f s) := by
  grind [execSsusp, nextWf_next, nextWf_fault, nextWf_onPort, State.mem_setLc, nextWf_stopHead, State.mem_setCmds]

theorem nextWf_execSresm {s : State} (f : VF) (h : Memory.wf s.mem = true) : NextWf (execSresm f s) := by
  grind [execSresm, nextWf_next, nextWf_fault, nextWf_onPort, State.mem_setLc, State.mem_setCmds]

theorem nextWf_execStreamDispatch {s : State} (core port : Nat) (h : Memory.wf s.mem = true) : NextWf (execStreamDispatch core port s) := by
  grind [execStreamDispatch, nextWf_next, nextWf_fault, State.mem_askLeave, State.mem_updMemHead]

@[simp] theorem State.wf_cursorXlate {s : State} (core : Nat) (who : Who) (acc : Acc) (x : Option TlbEntry) (va : Word)
    (h : Memory.wf s.mem = true) : Memory.wf (s.cursorXlate core who acc x va).1.mem = true := by
  unfold State.cursorXlate
  extract_lets walk
  have hw : ∀ {u : State}, Memory.wf u.mem = true → Memory.wf (walk u).1.mem = true := fun {u} hu => by
    dsimp only [walk]
    grind [State.wf_leafFor]
  clear_value walk
  grind [State.wf_useEntry]

@[simp] theorem State.wf_cursorBytes {s : State} (core : Nat) (who : Who) (acc : Acc) (x3 : Nat) (x5 : Option TlbEntry) (x6 : Word) (x7 : Nat)
    (h : Memory.wf s.mem = true) : Memory.wf (State.cursorBytes core who acc x3 s x5 x6 x7).1.mem = true := by
  fun_induction State.cursorBytes core who acc x3 s x5 x6 x7 <;> grind [State.wf_cursorXlate]

@[simp] theorem State.wf_cursorRuns {s : State} (core : Nat) (who : Who) (acc : Acc) (x3 : List (Word × Nat)) (x5 : Option TlbEntry)
    (h : Memory.wf s.mem = true) : Memory.wf (State.cursorRuns core who acc x3 s x5).1.mem = true := by
  fun_induction State.cursorRuns core who acc x3 s x5 <;> grind [State.wf_cursorBytes]

@[simp] theorem State.wf_landOne {s : State} (core : Nat) (x : Cmd) (met : List Nat)
    (h : Memory.wf s.mem = true) : Memory.wf (s.landOne core x met).1.mem = true := by
  grind [State.landOne, State.wf_cursorRuns, State.mem_readPast]

@[simp] theorem State.wf_writeOne {s : State} (core : Nat) (x : Cmd) (h : Memory.wf s.mem = true) : Memory.wf (s.writeOne core x).1.mem = true := by
  grind [State.writeOne, State.wf_cursorRuns, State.wf_poke]

@[simp] theorem State.wf_writeBlockOne {s : State} (core : Nat) (x : Cmd) (h : Memory.wf s.mem = true) :
    Memory.wf (s.writeBlockOne core x).1.mem = true := by
  unfold State.writeBlockOne
  extract_lets r n vals passed
  clear_value r n vals passed
  split
  · exact h
  rename_i a _
  split
  · exact h
  split
  · exact h
  split
  · exact h
  have hr := State.wf_cursorRuns core (s.streamWho core x) .write a.runs x.xlat h
  split
  · exact wf_of_eq ‹_› hr
  · exact State.wf_poke _ (wf_of_eq ‹_› hr)

@[simp] theorem State.wf_moveOne {s : State} (core : Nat) (x : Cmd) (met : List Nat)
    (h : Memory.wf s.mem = true) : Memory.wf (s.moveOne core x met).1.mem = true := by
  unfold State.moveOne
  (repeat' split) <;> simp [h]

@[simp] theorem State.wf_moveAll {s : State} (core : Nat) (cmds : List Cmd) (drain : Bool) (x3 : Nat) (x5 : Cmd) (x6 : List Nat)
    (h : Memory.wf s.mem = true) : Memory.wf (State.moveAll core cmds drain x3 s x5 x6).1.mem = true := by
  fun_induction State.moveAll core cmds drain x3 s x5 x6 <;> grind [State.wf_moveOne]

@[simp] theorem State.wf_moveGroup {s : State} (core : Nat) (cmds : List Cmd) (drain : Bool) (n : Nat) (x : Cmd)
    (h : Memory.wf s.mem = true) : Memory.wf (State.moveGroup core cmds drain n s x).1.mem = true := by
  simp [State.moveGroup, h]

theorem State.nextWf_afterGroup {s : State} (core port : Nat) (x : Cmd) (y : Option Halt)
    (h : Memory.wf s.mem = true) : NextWf (s.afterGroup core port x y) := by
  unfold State.afterGroup
  (repeat' split) <;> simp [h]

theorem nextWf_execStreamElementGroup {s : State} (core port : Nat) (h : Memory.wf s.mem = true) : NextWf (execStreamElementGroup core port s) := by
  unfold execStreamElementGroup
  split
  · exact nextWf_next.mpr h
  rename_i x _
  split
  · exact nextWf_next.mpr h
  have hm := State.wf_moveGroup core (s.port core port).cmds false x.groupSize x h
  split
  rename_i u y e hu
  have ht := wf_of_eq hu hm
  exact State.nextWf_afterGroup _ _ _ _ (by simpa using ht)

theorem nextWf_execStreamComplete {s : State} (core port : Nat) (h : Memory.wf s.mem = true) : NextWf (execStreamComplete core port s) := by
  unfold execStreamComplete
  (repeat' split) <;> simp [h]

@[simp] theorem State.wf_drainGroups {s : State} (core : Nat) (cmds : List Cmd) (x2 : Nat) (x4 : Cmd)
    (h : Memory.wf s.mem = true) : Memory.wf (State.drainGroups core cmds x2 s x4).1.mem = true := by
  fun_induction State.drainGroups core cmds x2 s x4 <;> grind [State.wf_moveGroup]

@[simp] theorem State.wf_drainWrite {s : State} (core : Nat) (cmds : List Cmd) (x : Cmd)
    (h : Memory.wf s.mem = true) : Memory.wf (s.drainWrite core cmds x).1.mem = true := by
  grind [State.drainWrite, State.wf_drainGroups, State.wf_kill]

@[simp] theorem State.wf_takeCmds {s : State} (core port : Nat) (h : Memory.wf s.mem = true) : Memory.wf (s.takeCmds core port).1.mem = true := by
  simp only [State.takeCmds, State.mem_written, State.mem_dropLeave, State.mem_setPort]
  refine List.foldlRecOn (motive := fun (a : State × List SavedCmd) => Memory.wf a.1.mem = true) _ _ h fun a ha x _ => ?_
  dsimp only
  split
  · exact State.wf_drainWrite _ _ _ ha
  · exact ha

@[simp] theorem State.wf_displacePort {s : State} (core port o : Nat)
    (h : Memory.wf s.mem = true) : Memory.wf (s.displacePort core port o).mem = true := by
  grind [State.displacePort, State.wf_takeCmds, State.mem_setLcOf, State.wf_putParts]

theorem nextWf_execPortDisplace {s : State} (core port thr : Nat) (h : Memory.wf s.mem = true) : NextWf (execPortDisplace core port thr s) := by
  grind [execPortDisplace, nextWf_next, nextWf_fault, State.wf_displacePort, State.mem_setPort]

/-! ## Collectives (R370 to R380) -/

theorem nextWf_execCset {s : State} (f : KF) (h : Memory.wf s.mem = true) : NextWf (execCset f s) := by
  grind [execCset, nextWf_next, nextWf_fault, nextWf_serial, State.mem_readEntry, State.nextWf_stopped, State.mem_setLc]

@[simp] theorem State.wf_xfail {s : State} (n : Nat) (h : Memory.wf s.mem = true) : Memory.wf (s.xfail n).mem = true := by
  simp [State.xfail, h]

theorem nextWf_onGroup {s : State} {k : Nat → Group → Nat → State → Host.Outcome State Fault Refusal} (h : Memory.wf s.mem = true)
    (hk : ∀ gid g r, NextWf (k gid g r s)) : NextWf (onGroup s k) := by
  unfold onGroup
  split
  · simp [h]
  · split
    · simp [h]
    · exact hk _ _ _

theorem nextWf_execVstc {s : State} (f : VF) (h : Memory.wf s.mem = true) : NextWf (execVstc f s) := by
  grind [execVstc, nextWf_next, nextWf_fault, nextWf_checked, nextWf_onGroup, State.mem_waiting, State.wf_trap, State.mem_setLc]

@[simp] theorem State.wf_cwaitDone {s : State} (gid rank round : Nat) (r : ReleaseMsg)
    (h : Memory.wf s.mem = true) : Memory.wf (s.cwaitDone gid rank round r).mem = true := by
  unfold State.cwaitDone
  (repeat' split) <;> simp [h]

@[simp] theorem State.wf_storeWords {s : State} (va : Word) (x2 : List (List Byte))
    (h : Memory.wf s.mem = true) : Memory.wf (s.storeWords va x2).1.mem = true := by
  fun_induction s.storeWords va x2 <;> grind [State.wf_span, State.wf_store]

theorem nextWf_execCwait {s : State} (_f : VF) (h : Memory.wf s.mem = true) : NextWf (execCwait _f s) := by
  grind [execCwait, nextWf_next, nextWf_fault, nextWf_onGroup, State.mem_setLc, State.mem_waiting, State.wf_cwaitDone, State.wf_storeWords,
    State.nextWf_stopped]

theorem nextWf_execCollectivePacket {s : State} (p : CollPacket) (h : Memory.wf s.mem = true) : NextWf (execCollectivePacket p s) := by
  grind [execCollectivePacket, nextWf_next, nextWf_fault, State.mem_homeAccepts, State.mem_pushAccepted]

@[simp] theorem State.wf_combineHome {s : State} (g : Group) (y : HomeRound) (home : Nat) (ps : List CollPacket) (dlvl : Nat)
    (h : Memory.wf s.mem = true) : Memory.wf (s.combineHome g y home ps dlvl).mem = true := by
  grind [State.combineHome, State.mem_read, State.wf_kill, State.mem_overwritten, State.wf_writeBack, State.mem_setHome]

theorem nextWf_execHomeCombine {s : State} (gid home : Nat) (told : Option SetMsg) (h : Memory.wf s.mem = true) :
    NextWf (execHomeCombine gid home told s) := by
  unfold execHomeCombine
  split
  · exact nextWf_next.mpr h
  split
  · exact nextWf_next.mpr (State.wf_kill _ _ _ h)
  extract_lets u
  have hu : Memory.wf u.mem = true := by
    dsimp only [u]
    split
    · exact (State.mem_learnSet _ _ _).symm ▸ h
    · exact h
  clear_value u
  split
  · exact nextWf_next.mpr hu
  split
  · exact nextWf_next.mpr hu
  dsimp only
  split
  · exact nextWf_next.mpr hu
  · exact nextWf_next.mpr (State.wf_combineHome _ _ _ _ _ hu)

theorem nextWf_execArrivalReport {s : State} (p : CollPacket) (h : Memory.wf s.mem = true) : NextWf (execArrivalReport p s) := by
  grind [execArrivalReport, nextWf_next, nextWf_fault, State.mem_memberGone, State.mem_setLeader, State.mem_fixSet]

theorem nextWf_execCollectiveDeadline {s : State} (gid : Nat) (h : Memory.wf s.mem = true) : NextWf (execCollectiveDeadline gid s) := by
  grind [execCollectiveDeadline, nextWf_next, nextWf_fault, State.mem_fixSet]

theorem nextWf_execRoundRelease {s : State} (gid : Nat) (told : Option ReleaseMsg) (homes : List HomeMsg) (h : Memory.wf s.mem = true) :
    NextWf (execRoundRelease gid told homes s) := by
  unfold execRoundRelease
  split
  · exact nextWf_next.mpr ((State.mem_addRelease _ _).symm ▸ h)
  split
  · dsimp only
    split
    · exact nextWf_next.mpr h
    · exact nextWf_next.mpr ((State.mem_addRelease _ _).symm ▸ h)
  · exact nextWf_next.mpr h

theorem nextWf_execVldc {s : State} (f : VF) (h : Memory.wf s.mem = true) : NextWf (execVldc f s) := by
  grind [execVldc, nextWf_next, nextWf_fault, nextWf_checked, nextWf_onGroup, mem_loadResults, State.nextWf_stopped, State.mem_endAt]

/-! ## The Imposed exchange (R381 to R397) -/

@[simp] theorem State.wf_putArea' {s : State} (area : List (Nat × Bool)) (off n x : Nat)
    (h : Memory.wf s.mem = true) : Memory.wf (s.putArea' area off n x).mem = true := by
  grind [State.putArea', State.wf_write]

@[simp] theorem State.wf_areaBlocks {s : State} (who : Who) (base : Word) (x2 : List Nat)
    (h : Memory.wf s.mem = true) : Memory.wf (State.areaBlocks who base x2 s).1.mem = true := by
  fun_induction State.areaBlocks who base x2 s <;> grind [State.wf_xlate]

theorem nextWf_onDemand {word : IWord} {r : Reg} {s : State} {k : Nat → Group → Nat → State → Host.Outcome State Fault Refusal}
    (h : Memory.wf s.mem = true) (hk : ∀ gid g r u, Memory.wf u.mem = true → NextWf (k gid g r u)) : NextWf (onDemand word r s k) := by
  refine nextWf_checked h fun u hu => nextWf_onGroup hu fun gid g rank => ?_
  split
  · simp [hu]
  · exact nextWf_afterPushes hu (hk _ _ _ u hu)

theorem nextWf_execDpost {s : State} (f : VF) (h : Memory.wf s.mem = true) : NextWf (execDpost f s) := by
  grind [execDpost, nextWf_next, nextWf_fault, nextWf_onDemand, State.wf_xfail, State.mem_setLc, State.wf_areaBlocks, State.nextWf_stopped,
    State.mem_areaHead, State.mem_postRow, State.mem_dropLines]

theorem nextWf_execDposta {s : State} (f : VF) (h : Memory.wf s.mem = true) : NextWf (execDposta f s) := by
  grind [execDposta, nextWf_next, nextWf_fault, nextWf_onDemand, State.wf_xfail, State.mem_setLc, State.mem_postRow]

theorem nextWf_execDemandRow {s : State} (m : DemandMsg) (h : Memory.wf s.mem = true) : NextWf (execDemandRow m s) := by
  grind [execDemandRow, nextWf_next, nextWf_fault, State.mem_discardRow, State.mem_setImposer]

@[simp] theorem State.wf_lateArea {s : State} (w : Seat) (gid : Nat) (g : Group) (h : Memory.wf s.mem = true) :
    Memory.wf (s.lateArea w gid g).1.mem = true := by
  unfold State.lateArea
  extract_lets kills c old who x
  have hk : ∀ {u : State}, Memory.wf u.mem = true → Memory.wf (kills u c).mem = true := fun hu => State.wf_kill _ _ _ hu
  clear_value kills x who
  have ha := State.wf_areaBlocks who c.xbase (List.range 6) h
  split
  · exact wf_of_eq ‹_› ha
  · exact hk (wf_of_eq ‹_› ha)
  · exact wf_of_eq ‹_› ha
  rename_i u area hu
  have hh := (State.mem_areaHead u area).symm ▸ wf_of_eq hu ha
  split
  · exact hk (wf_of_eq ‹_› hh)
  · exact wf_of_eq ‹_› hh

@[simp] theorem State.wf_takeArea {s : State} (gid : Nat) (g : Group) (h : Memory.wf s.mem = true) : Memory.wf (s.takeArea gid g).mem = true := by
  unfold State.takeArea
  split
  · exact h
  rename_i w _
  have hl := State.wf_lateArea w gid g h
  dsimp only
  split
  · exact h
  split
  · exact wf_of_eq ‹_› hl
  · exact (State.mem_setXchAt _ _ _ _).symm ▸ wf_of_eq ‹_› hl

theorem nextWf_execCalendarDeadline {s : State} (gid : Nat) (h : Memory.wf s.mem = true) : NextWf (execCalendarDeadline gid s) := by
  unfold execCalendarDeadline
  (repeat' split) <;> simp [h]

theorem nextWf_execImposerHeartbeat {s : State} (gid : Nat) (heard : Bool)
    (h : Memory.wf s.mem = true) : NextWf (execImposerHeartbeat gid heard s) := by
  unfold execImposerHeartbeat
  (repeat' split) <;> simp [h]

theorem nextWf_execStandbyTakeover {s : State} (gid : Nat) (h : Memory.wf s.mem = true) : NextWf (execStandbyTakeover gid s) := by
  unfold execStandbyTakeover
  (repeat' split) <;> simp [h]

@[simp] theorem State.wf_writeArea {s : State} (x : XchMember) (rank : Nat) (m : GrantsMsg) (h : Memory.wf s.mem = true) :
    Memory.wf (s.writeArea x rank m).mem = true := by
  have hp : ∀ {u : State} (off n v : Nat), Memory.wf u.mem = true → Memory.wf (u.putArea' x.area off n v).mem = true := fun off n v hu =>
    State.wf_putArea' _ _ _ _ hu
  unfold State.writeArea
  extract_lets put a b c
  exact hp _ _ _ (wf_foldl (fun u _ hu => hp _ _ _ (hp _ _ _ (hp _ _ _ (hp _ _ _ (hp _ _ _ (hp _ _ _ hu))))))
    (wf_foldl (fun u _ hu => hp _ _ _ (hp _ _ _ hu)) (hp _ _ _ (hp _ _ _ (hp _ _ _ (hp _ _ _ (hp _ _ _ h)))))))

@[simp] theorem State.wf_putXgen {s : State} (w : Seat) (gen : Nat) (h : Memory.wf s.mem = true) : Memory.wf (s.putXgen w gen).mem = true := by
  unfold State.putXgen
  dsimp only
  split
  · split <;> simp [h, Memory.wf_putAll]
  · simp [h]

@[simp] theorem State.wf_readUpTo {s : State} (who : Who) (x1 : Nat) (x3 : Word) (x4 : Nat)
    (h : Memory.wf s.mem = true) : Memory.wf (State.readUpTo who x1 s x3 x4).1.mem = true := by
  fun_induction State.readUpTo who x1 s x3 x4 <;> grind [State.wf_xlateBytes, State.mem_read]

theorem State.nextWf_sendPair {s : State} (w : Seat) (gid rank dst n from_ : Nat) (short : Bool) (upd : XchMember → XchMember)
    (h : Memory.wf s.mem = true) : NextWf (s.sendPair w gid rank dst n from_ short upd) := by
  unfold State.sendPair
  extract_lets c x
  have hr := State.wf_readUpTo (xchWho c x) (n / 0x8000 + 2) (x.sbuf + BitVec.ofNat 64 ((x.dest dst).soff + from_)) n h
  split
  · exact nextWf_fault _
  · exact nextWf_next.mpr (State.wf_kill _ _ _ (wf_of_eq ‹_› hr))
  · rename_i u b e _ _ hu
    have ht := wf_of_eq hu hr
    refine nextWf_next.mpr ?_
    rw [State.mem_xchSettle, State.mem_setXchAt]
    exact ht

theorem State.nextWf_sendSheet {s : State} (w : Seat) (gid rank k : Nat) (h : Memory.wf s.mem = true) : NextWf (s.sendSheet w gid rank k) := by
  grind [State.sendSheet, nextWf_next, nextWf_fault, State.mem_joinExchange, State.nextWf_sendPair]

theorem State.nextWf_sendTail {s : State} (w : Seat) (gid rank : Nat) (h : Memory.wf s.mem = true) : NextWf (s.sendTail w gid rank) := by
  grind [State.sendTail, nextWf_next, nextWf_fault, State.mem_joinExchange, State.nextWf_sendPair]

theorem nextWf_execSheetStart {s : State} (gid sheet : Nat) (h : Memory.wf s.mem = true) : NextWf (execSheetStart gid sheet s) := by
  grind [execSheetStart, nextWf_next, nextWf_fault, State.nextWf_sendSheet]

theorem nextWf_execLooseTailStart {s : State} (gid : Nat) (h : Memory.wf s.mem = true) : NextWf (execLooseTailStart gid s) := by
  grind [execLooseTailStart, nextWf_next, nextWf_fault, State.nextWf_sendTail]

theorem nextWf_execReadyFlit {s : State} (m : ReadyMsg) (h : Memory.wf s.mem = true) : NextWf (execReadyFlit m s) := by
  grind [execReadyFlit, nextWf_next, nextWf_fault, State.mem_setXchAt, State.nextWf_sendSheet, State.nextWf_sendTail]

@[simp] theorem State.wf_landBytes {s : State} (who : Who) (rbuf : Word) (x3 x4 : Nat) (x5 : List Byte)
    (h : Memory.wf s.mem = true) : Memory.wf (s.landBytes who rbuf x3 x4 x5).1.mem = true := by
  fun_induction s.landBytes who rbuf x3 x4 x5 <;> grind [State.wf_xlateBytes, State.wf_write]

theorem State.nextWf_takeBytes {s : State} (w : Seat) (rank : Nat) (m : ExchangeMsg) (y : XSource) (h : Memory.wf s.mem = true) :
    NextWf (s.takeBytes w rank m y) := by
  unfold State.takeBytes
  extract_lets x at_
  have hl := State.wf_landBytes (xchWho (s.seated w) x) x.rbuf (m.bytes.length / 0x8000 + 2) at_ (m.bytes.take (x.rlen.toNat - at_)) h
  split
  · exact nextWf_fault _
  · exact nextWf_next.mpr (State.wf_kill _ _ _ (wf_of_eq ‹_› hl))
  rename_i u ks _ _ _ hu
  have hp := fun a b c d => State.wf_putArea' a b c d (wf_of_eq hu hl)
  dsimp only
  split
  · exact nextWf_next.mpr ((State.mem_setXchAt _ _ _ _).symm ▸ hp _ _ _ _)
  · refine nextWf_next.mpr ?_
    rw [State.mem_xchSettle]
    exact (State.mem_setXchAt _ _ _ _).symm ▸ hp _ _ _ _

theorem nextWf_execExchangeBytes {s : State} (m : ExchangeMsg) (h : Memory.wf s.mem = true) : NextWf (execExchangeBytes m s) := by
  grind [execExchangeBytes, nextWf_next, nextWf_fault, State.mem_keepEarly, State.nextWf_takeBytes]

@[simp] theorem State.wf_acceptGrants {s : State} (gid : Nat) (g : Group) (m : GrantsMsg) (h : Memory.wf s.mem = true) :
    Memory.wf (s.acceptGrants gid g m).mem = true := by
  unfold State.acceptGrants
  split
  · rename_i w rank _ _
    split
    · exact h
    extract_lets x r
    have hr : Memory.wf r.1.mem = true := by
      dsimp only [r]
      split
      · exact h
      · exact State.wf_lateArea _ _ _ h
    clear_value r
    split
    · exact hr
    · dsimp only at hr ⊢
      simp [hr]
  · exact (State.mem_noteGen _ _ _).symm ▸ h
  · exact h

theorem nextWf_landEarly {s : State} (l : List ExchangeMsg) (h : Memory.wf s.mem = true) : NextWf (landEarly l s) := by
  induction l generalizing s with
  | nil => exact nextWf_next.mpr h
  | cons m l ih =>
    have hm := nextWf_execExchangeBytes (s := s) m h
    unfold landEarly
    split
    · exact ih (hm _ ‹_›)
    · exact hm

theorem State.nextWf_takeGrants {s : State} (gid : Nat) (g : Group) (m : GrantsMsg) (h : Memory.wf s.mem = true) : NextWf (s.takeGrants gid g m) := by
  grind [State.takeGrants, nextWf_next, nextWf_fault, State.wf_acceptGrants, nextWf_landEarly]

theorem nextWf_execGrantWrite {s : State} (gid : Nat) (told : Option GrantsMsg)
    (h : Memory.wf s.mem = true) : NextWf (execGrantWrite gid told s) := by
  grind [execGrantWrite, nextWf_next, nextWf_fault, State.nextWf_takeGrants, State.mem_setImposer]

theorem nextWf_execMemberDead {s : State} (dev : Nat) (h : Memory.wf s.mem = true) : NextWf (execMemberDead dev s) := by
  unfold execMemberDead
  (repeat' split) <;> simp [h]

theorem nextWf_execXgo {s : State} (_f : VF) (h : Memory.wf s.mem = true) : NextWf (execXgo _f s) := by
  grind [execXgo, nextWf_next, nextWf_fault, nextWf_onGroup, State.mem_setLc, State.wf_xfail, State.mem_joinExchange, State.mem_askLeave,
    State.mem_xchSettle]

theorem nextWf_execXtrim {s : State} (f : VF) (h : Memory.wf s.mem = true) : NextWf (execXtrim f s) := by
  grind [execXtrim, nextWf_next, nextWf_fault, nextWf_scalar, nextWf_onGroup, State.mem_setLc]

theorem nextWf_recorded {gid : Nat} {s : State} {k : State → Host.Outcome State Fault Refusal} (h : Memory.wf s.mem = true)
    (hk : NextWf (k s)) : NextWf (recorded gid s k) := by
  unfold recorded
  dsimp only
  split
  · simp [h]
  · split
    · simp [h]
    · exact hk

theorem nextWf_execXwait {s : State} (f : VF) (h : Memory.wf s.mem = true) : NextWf (execXwait f s) := by
  grind [execXwait, nextWf_next, nextWf_fault, nextWf_scalar, nextWf_onGroup, State.wf_xfail, nextWf_recorded, State.mem_put, State.mem_waiting,
    State.mem_setLc, State.mem_dropLines]

theorem nextWf_execXstat {s : State} (f : VF) (h : Memory.wf s.mem = true) : NextWf (execXstat f s) := by
  grind [execXstat, nextWf_next, nextWf_fault, nextWf_serial, nextWf_onGroup, nextWf_recorded, State.mem_put]

/-! ## Matrix units (R349 to R364) -/

@[simp] theorem State.wf_displace {s : State} (n : Nat) (h : Memory.wf s.mem = true) : Memory.wf (s.displace n).mem = true := by
  grind [State.displace, State.mem_finishPasses, State.wf_putParts, State.mem_dropLeave, State.mem_setLcOf]

@[simp] theorem State.wf_makeRoom {s : State} (cl q : Nat) (x2 : List Nat)
    (h : Memory.wf s.mem = true) : Memory.wf (State.makeRoom cl q x2 s).mem = true := by
  fun_induction State.makeRoom cl q x2 s <;> grind [State.wf_displace]

@[simp] theorem State.wf_grantRows {s : State} (d : Reg) (q : Nat) (h : Memory.wf s.mem = true) : Memory.wf (s.grantRows d q).mem = true := by
  grind [State.grantRows, State.wf_makeRoom, State.mem_dropLeave, State.mem_setLc]

theorem nextWf_execMatt {s : State} (f : VF) (h : Memory.wf s.mem = true) : NextWf (execMatt f s) := by
  grind [execMatt, nextWf_next, nextWf_fault, nextWf_scalar, State.mem_waiting, State.mem_detach, State.mem_setLc, State.mem_askLeave,
    State.wf_grantRows]

theorem nextWf_execMdet {s : State} (_f : VF) (h : Memory.wf s.mem = true) : NextWf (execMdet _f s) := by
  unfold execMdet
  (repeat' split) <;> simp [h]

theorem nextWf_attached {word : IWord} {s : State} {k : Attach → State → Host.Outcome State Fault Refusal} (h : Memory.wf s.mem = true)
    (hk : ∀ a, NextWf (k a s)) : NextWf (attached word s k) := by
  unfold attached
  split
  · simp [h]
  · dsimp only
    split
    · split <;> simp [h]
    · exact hk _

theorem nextWf_execMzero {s : State} (f : VF) (h : Memory.wf s.mem = true) : NextWf (execMzero f s) := by
  grind [execMzero, nextWf_next, nextWf_fault, nextWf_attached, State.mem_waiting, State.mem_setLc]

theorem nextWf_execAttachmentReacquire {s : State} (thr : Nat) (h : Memory.wf s.mem = true) : NextWf (execAttachmentReacquire thr s) := by
  grind [execAttachmentReacquire, nextWf_next, nextWf_fault, State.mem_askLeave, State.mem_setLcOf]

theorem nextWf_tileChecked {word : IWord} {ill misplaced : Bool} {gs : List Reg} {s : State} {k : State → Host.Outcome State Fault Refusal}
    (h : Memory.wf s.mem = true) (hk : ∀ u, Memory.wf u.mem = true → NextWf (k u)) : NextWf (tileChecked word ill misplaced gs s k) := by
  unfold tileChecked
  split
  · simp [h]
  · split
    · simp [h]
    · exact nextWf_scalar h hk

theorem nextWf_execMldb {s : State} (f : TF) (h : Memory.wf s.mem = true) : NextWf (execMldb f s) := by
  grind [execMldb, nextWf_next, nextWf_fault, nextWf_tileChecked, nextWf_attached, State.wf_trap, State.wf_span, State.nextWf_stopped,
    State.mem_load, State.mem_dropLines, State.mem_setLc]

theorem nextWf_execMma {s : State} (f : TF) (h : Memory.wf s.mem = true) : NextWf (execMma f s) := by
  refine nextWf_tileChecked h fun u hu => nextWf_attached hu fun a => ?_
  grind [nextWf_next, State.wf_trap, State.wf_span, State.nextWf_stopped, State.mem_load, State.mem_dropLines, State.mem_setLc]

theorem nextWf_execTileWrite {s : State} (cluster : Nat) (h : Memory.wf s.mem = true) : NextWf (execTileWrite cluster s) := by
  unfold execTileWrite
  (repeat' split) <;> simp [h]

@[simp] theorem State.wf_placeRows {s : State} (align n : Nat) (x3 : List Word)
    (h : Memory.wf s.mem = true) : Memory.wf (s.placeRows align n x3).1.mem = true := by
  fun_induction s.placeRows align n x3 <;> grind [State.wf_span]

theorem nextWf_execMst {s : State} (f : TF) (h : Memory.wf s.mem = true) : NextWf (execMst f s) := by
  refine nextWf_tileChecked h fun u hu => nextWf_attached hu fun a => ?_
  dsimp only
  split
  · exact nextWf_next.mpr hu
  have hp := fun a b c => State.wf_placeRows a b c hu
  split
  · exact State.nextWf_stopped _ _ _ (wf_of_eq ‹_› (hp _ _ _))
  · exact nextWf_next.mpr (wf_foldl (fun v p hv => State.wf_store _ _ _ hv) (wf_of_eq ‹_› (hp _ _ _)))

theorem nextWf_execMgemv {s : State} (f : TF) (h : Memory.wf s.mem = true) : NextWf (execMgemv f s) := by
  refine nextWf_checked h fun s h => ?_
  grind [nextWf_next, nextWf_fault, State.mem_setLc, State.wf_scalarAccess, State.nextWf_stopped, State.mem_load, State.wf_trap,
    State.mem_push_ok, State.mem_push_error, State.mem_dropLines]

@[simp] theorem State.wf_gemvRowBytes {s : State} (core : Nat) (who : Who) (b : BDesc) (fmt : BitVec 4) (k row : Nat)
    (h : Memory.wf s.mem = true) : Memory.wf (s.gemvRowBytes core who b fmt k row).1.mem = true := by
  grind [State.gemvRowBytes, State.wf_xlateBytes, State.mem_load]

theorem nextWf_execMgemvRow {s : State} (core port row : Nat) (h : Memory.wf s.mem = true) : NextWf (execMgemvRow core port row s) := by
  grind [execMgemvRow, nextWf_next, nextWf_fault, State.mem_askLeave, State.wf_gemvRowBytes, State.mem_updMemHead, State.wf_kill]

/-! ## Control registers (R263 to R265) -/

theorem nextWf_csrOp {s : State} (i : Instr) (f : CF) (new : Option (Word → Word → Word))
    (h : Memory.wf s.mem = true) : NextWf (csrOp i f new s) := by
  grind [csrOp, nextWf_next, nextWf_fault, State.mem_waiting, State.wf_trap, nextWf_scalar, State.mem_put, State.wf_forward, State.mem_csrWrite]

theorem nextWf_execTrap {s : State} (f : CF) (h : Memory.wf s.mem = true) : NextWf (execTrap f s) := by
  simp [execTrap, h]

theorem nextWf_execTret {s : State} (f : CF) (h : Memory.wf s.mem = true) : NextWf (execTret f s) := by
  unfold execTret
  (repeat' split) <;> simp [h]

theorem nextWf_execWfe {s : State} (_f : CF) (h : Memory.wf s.mem = true) : NextWf (execWfe _f s) := by
  unfold execWfe
  (repeat' split) <;> simp [h]

/-! ## Images (R428 to R434) -/

@[simp] theorem State.wf_quiesce {s : State} (n : Nat) (h : Memory.wf s.mem = true) : Memory.wf (s.quiesce n).mem = true := by
  unfold State.quiesce
  generalize List.range 16 = ps
  extract_lets u v r
  have hv : Memory.wf v.mem = true := State.wf_displace n h
  clear_value v
  have hr : Memory.wf r.1.mem = true := by
    refine List.foldlRecOn (motive := fun (a : State × List SavedCmd) => Memory.wf a.1.mem = true) _ _ hv fun a ha p _ => ?_
    dsimp only
    split
    · exact State.wf_takeCmds _ _ ha
    · exact ha
  clear_value r
  split
  · exact hr
  · exact hr

theorem State.nextWf_saveAt {s : State} (n : Nat) (i : ImageAt) (ready parked : Bool)
    (h : Memory.wf s.mem = true) : NextWf (s.saveAt n i ready parked) := by
  grind [State.saveAt, nextWf_next, nextWf_fault, State.wf_quiesce, State.mem_nextOrder, State.wf_write, State.mem_vacate, State.mem_setThr]

@[simp] theorem State.wf_transfer {s : State} (n : Nat) (moves : List (Nat × Nat)) (h : Memory.wf s.mem = true) :
    Memory.wf (s.transfer n moves).mem = true := by
  refine Memory.wf_putAll _ (Memory.wf_filter _ ?_)
  exact wf_foldl (fun u _ hu => wf_foldl (fun v _ hv => by simp [hv]) hu) h

@[simp] theorem State.wf_moveImage {s : State} (k : Nat) (i : ImageAt) (h : Memory.wf s.mem = true) : Memory.wf (s.moveImage k i).mem = true := by
  unfold State.moveImage
  (repeat' split) <;> simp [h]

theorem State.wf_clearSlot {s t : State} (thr : Nat) (ht : s.clearSlot thr = some t) (h : Memory.wf s.mem = true) : Memory.wf t.mem = true := by
  unfold State.clearSlot at ht
  split at ht
  · exact Option.some.inj ht ▸ h
  · obtain ⟨i, -, rfl⟩ := Option.map_eq_some_iff.mp ht
    exact State.wf_moveImage _ _ h

@[simp] theorem State.wf_reinstate {s : State} (n : Nat) (h : Memory.wf s.mem = true) : Memory.wf (s.reinstate n).mem = true := by
  have hc : ∀ {v : State} {p : Nat}, Memory.wf v.mem = true → Memory.wf ((({ v with cur := n } : State).claim p).getD v).mem = true := fun {v p} hv => by
    cases hcl : ({ v with cur := n } : State).claim p with
    | none => exact hv
    | some t => exact (State.mem_claim hcl).symm ▸ hv
  unfold State.reinstate
  generalize List.range 16 = ps
  refine wf_foldl (fun u p hu => ?_) h
  split
  · exact hu
  split
  · exact hc hu
  rename_i o _
  split
  · have hd := State.wf_displacePort (n / 4) p o hu
    dsimp only
    split
    · exact hc hd
    · exact hd
  · exact hu

/-! ## Launches and the scheduler (R226 to R233) -/

@[simp] theorem State.wf_counterKeys {s : State} (ctx : Nat) (acc : Acc) (va : Word) (n : Nat)
    (h : Memory.wf s.mem = true) : Memory.wf (s.counterKeys ctx acc va n).1.mem = true := by
  grind [State.counterKeys, State.wf_xlate]

@[simp] theorem State.wf_counterRead {s : State} (slot ctx : Nat) (va : Word)
    (h : Memory.wf s.mem = true) : Memory.wf (s.counterRead slot ctx va).1.mem = true := by
  grind [State.counterRead, State.wf_counterKeys, State.wf_kill, State.mem_counterFault, State.mem_read]

@[simp] theorem State.wf_counterAdd {s : State} (slot ctx : Nat) (va x : Word)
    (h : Memory.wf s.mem = true) : Memory.wf (s.counterAdd slot ctx va x).mem = true := by
  grind [State.counterAdd, State.wf_counterKeys, State.wf_kill, State.mem_counterFault, State.mem_read, State.wf_writeBack]

@[simp] theorem State.wf_copyVault {s : State} (core : Nat) (k : Kernel)
    (h : Memory.wf s.mem = true) : Memory.wf (s.copyVault core k).mem = true := by
  grind [State.copyVault, State.wf_placeOf, State.wf_kill, State.mem_read, State.wf_write]

@[simp] theorem State.wf_takeVault {s : State} (core launch : Nat) (k : Kernel)
    (h : Memory.wf s.mem = true) : Memory.wf (s.takeVault core launch k).mem = true := by
  grind [State.takeVault, State.wf_copyVault]

@[simp] theorem State.wf_dispatchOn {s : State} (n seq c : Nat) (h : Memory.wf s.mem = true) : Memory.wf (s.dispatchOn n seq c).mem = true := by
  grind [State.dispatchOn, State.wf_takeVault, State.mem_descriptor, State.wf_kill, State.mem_seatOn, State.mem_updLaunch]

@[simp] theorem State.wf_launchDone {s : State} (l : Launch) (h : Memory.wf s.mem = true) : Memory.wf (s.launchDone l).mem = true := by
  unfold State.launchDone
  (repeat' split) <;> simp [h]

@[simp] theorem State.wf_coreDone {s : State} (seq : Nat) (h : Memory.wf s.mem = true) : Memory.wf (s.coreDone seq).mem = true := by
  grind [State.coreDone, State.mem_updLaunch, State.wf_launchDone]

theorem State.nextWf_park {s : State} (n seq : Nat) (i : ImageAt) (rs : List Ready) (h : Memory.wf s.mem = true) : NextWf (s.park n seq i rs) := by
  have hs := State.nextWf_saveAt (s := s.updLaunch seq fun l => { l with parkedThisStall := true }) n i false true h
  unfold State.park
  split
  · have ht := hs _ ‹_›
    refine nextWf_next.mpr ?_
    split
    · exact State.wf_dispatchOn _ _ _ ht
    · exact ht
  · exact hs

@[simp] theorem State.wf_deadlockAt {s : State} (n parked : Nat) (h : Memory.wf s.mem = true) : Memory.wf (s.deadlockAt n parked).mem = true := by
  simp [State.deadlockAt, h]

@[simp] theorem State.wf_deadlock {s : State} (seq : Nat) (h : Memory.wf s.mem = true) : Memory.wf (s.deadlock seq).mem = true := by
  unfold State.deadlock
  (repeat' split) <;> simp [h]

theorem State.nextWf_stallCheck {s : State} (seq : Nat) (h : Memory.wf s.mem = true) : NextWf (s.stallCheck seq) := by
  grind [State.stallCheck, nextWf_next, nextWf_fault, State.wf_deadlock, State.nextWf_park]

theorem State.nextWf_waitIn {s : State} (w : WaitFor) (h : Memory.wf s.mem = true) : NextWf (s.waitIn w) := by
  grind [State.waitIn, nextWf_next, nextWf_fault, State.nextWf_stallCheck, State.mem_waiting]

theorem nextWf_execDispatch {s : State} (h : Memory.wf s.mem = true) : NextWf (execDispatch s) := by
  unfold execDispatch
  split
  · split
    · exact nextWf_next.mpr (State.wf_dispatchOn _ _ _ h)
    · exact nextWf_next.mpr h
  · exact nextWf_next.mpr h

@[simp] theorem State.wf_restoreOn {s : State} (k n : Nat) (h : Memory.wf s.mem = true) : Memory.wf (s.restoreOn k n).mem = true := by
  have hm := State.wf_moveImage k (threadSlot n) h
  unfold State.restoreOn
  generalize s.moveImage k (threadSlot n) = u at hm ⊢
  extract_lets v
  split
  · exact hm
  rename_i x _
  have hi := (State.mem_readImage v x.at_ x.lc).symm ▸ hm
  split
  · exact State.wf_kill _ _ _ (wf_of_eq ‹_› hi)
  rename_i t c ht
  have hw := wf_of_eq ht hi
  extract_lets a b d
  have hb : Memory.wf b.mem = true := by
    dsimp only [b]
    split
    · exact hw
    · exact State.wf_takeVault _ _ _ hw
  have hd : Memory.wf d.mem = true := State.wf_reinstate n ((State.mem_seatOn _ _ _).symm ▸ hb)
  split
  · exact hd
  · split
    · exact State.wf_deadlockAt _ _ hd
    · exact hd

theorem nextWf_execRestore {s : State} (h : Memory.wf s.mem = true) : NextWf (execRestore s) := by
  unfold execRestore
  split
  · split
    · exact nextWf_next.mpr (State.wf_restoreOn _ _ h)
    · exact nextWf_next.mpr h
  · exact nextWf_next.mpr h

theorem nextWf_execPreempt {s : State} (groups : Nat) (h : Memory.wf s.mem = true) : NextWf (execPreempt groups s) := by
  grind [execPreempt, nextWf_next, nextWf_fault, State.mem_stopFor]

theorem nextWf_execQuantumExpiry {s : State} (groups : Nat) (h : Memory.wf s.mem = true) : NextWf (execQuantumExpiry groups s) := by
  grind [execQuantumExpiry, nextWf_next, nextWf_fault, State.mem_stopFor]

theorem nextWf_execPreemptSave {s : State} (thr : Nat) (h : Memory.wf s.mem = true) : NextWf (execPreemptSave thr s) := by
  unfold execPreemptSave
  extract_lets t
  split
  · split
    · exact nextWf_next.mpr h
    have hu := State.wf_clearSlot _ ‹_› h
    split
    · exact State.nextWf_saveAt _ _ _ _ hu
    split
    · exact nextWf_next.mpr h
    split
    · exact nextWf_fault _
    have hs := State.nextWf_saveAt thr (threadSlot thr) false false hu
    split
    · rename_i v hv
      have hv' := hs v hv
      refine nextWf_next.mpr ?_
      split
      · exact State.wf_moveImage _ _ hv'
      · exact hv'
    · exact hs
  · exact nextWf_next.mpr h

theorem nextWf_execUnpark {s : State} (h : Memory.wf s.mem = true) : NextWf (execUnpark s) := by
  grind [execUnpark, nextWf_next, nextWf_fault, State.mem_nextOrder, State.nextWf_stallCheck]

/-! ## Barriers and waits (R243 to R249, R274 to R281) -/

theorem nextWf_execSev {s : State} (f : CF) (h : Memory.wf s.mem = true) : NextWf (execSev f s) := by
  grind [execSev, nextWf_next, nextWf_fault, nextWf_scalar, State.mem_setEvents, State.mem_setLc]

theorem State.nextWf_endCore {s : State} (h : Memory.wf s.mem = true) : NextWf (s.endCore) := by
  grind [State.endCore, nextWf_next, nextWf_fault, State.mem_waiting, State.wf_barLeaveAll, State.mem_dropPorts, State.mem_detach, State.wf_kill,
    State.mem_setLc, State.mem_giveBack, State.nextWf_stallCheck, State.wf_coreDone, State.mem_vacate]

theorem nextWf_execTend {s : State} (f : CF) (h : Memory.wf s.mem = true) : NextWf (execTend f s) := by
  grind [execTend, nextWf_next, nextWf_fault, State.wf_trap, State.mem_setLc, → State.mem_deal, State.nextWf_endCore]

theorem nextWf_onBarrier {acc : Acc} {addr : Word} {s : State} {k : Nat → State → Host.Outcome State Fault Refusal} (h : Memory.wf s.mem = true)
    (hk : ∀ b u, Memory.wf u.mem = true → NextWf (k b u)) : NextWf (onBarrier acc addr s k) := by
  unfold onBarrier
  grind [State.wf_scalarAccess, State.nextWf_stopped, State.mem_load, State.mem_dropLines, nextWf_next, State.wf_trap]

theorem nextWf_execBjoin {s : State} (f : SF) (h : Memory.wf s.mem = true) : NextWf (execBjoin f s) := by
  grind [execBjoin, nextWf_next, nextWf_fault, nextWf_scalar, nextWf_afterPushes, nextWf_onBarrier, State.mem_setLc, State.mem_dropCache,
    State.wf_trap, State.wf_putBack, State.mem_barSettle, State.wf_barComplete]

theorem nextWf_execBleave {s : State} (f : SF) (h : Memory.wf s.mem = true) : NextWf (execBleave f s) := by
  grind [execBleave, nextWf_next, nextWf_fault, nextWf_scalar, nextWf_afterPushes, nextWf_onBarrier, State.mem_dropCache, State.mem_setLc,
    State.wf_barLeave]

@[simp] theorem State.wf_arrive {s : State} (b : Nat) (slot : Option Nat) (h : Memory.wf s.mem = true) : Memory.wf (s.arrive b slot).mem = true := by
  grind [State.arrive, State.wf_putBack, State.wf_barComplete, State.mem_barUnreach, State.mem_barSettle]

theorem nextWf_execBarr {s : State} (f : SF) (h : Memory.wf s.mem = true) : NextWf (execBarr f s) := by
  grind [execBarr, nextWf_next, nextWf_fault, nextWf_scalar, nextWf_afterPushes, nextWf_onBarrier, State.wf_arrive, State.mem_put,
    State.mem_dropCache]

theorem nextWf_phaseWait {addr : Word} {b : Nat} {ph : BitVec 32} {w : WaitFor} {s : State} {k : State → State} (h : Memory.wf s.mem = true)
    (hk : ∀ u, Memory.wf u.mem = true → Memory.wf (k u).mem = true) : NextWf (phaseWait addr b ph w s k) := by
  unfold phaseWait
  split
  · simp [h]
  · split
    · exact nextWf_next.mpr (hk _ (by simpa using h))
    · split
      · simp [h]
      · exact State.nextWf_waitIn _ h

theorem nextWf_execBarw {s : State} (f : SF) (h : Memory.wf s.mem = true) : NextWf (execBarw f s) := by
  grind [execBarw, nextWf_next, nextWf_fault, nextWf_scalar, nextWf_phaseWait, State.mem_put, State.mem_setLc, nextWf_onBarrier,
    nextWf_afterPushes, State.wf_arrive, State.mem_dropCache]

theorem nextWf_execBwait {s : State} (f : SF) (h : Memory.wf s.mem = true) : NextWf (execBwait f s) := by
  grind [execBwait, nextWf_next, nextWf_fault, nextWf_scalar, nextWf_onBarrier, nextWf_phaseWait, State.mem_setLc]

theorem nextWf_execBtest {s : State} (f : SF) (h : Memory.wf s.mem = true) : NextWf (execBtest f s) := by
  grind [execBtest, nextWf_next, nextWf_fault, nextWf_scalar, nextWf_onBarrier, State.mem_put, State.mem_dropCache]

theorem nextWf_execWaitc {s : State} (f : SF) (h : Memory.wf s.mem = true) : NextWf (execWaitc f s) := by
  grind [execWaitc, nextWf_next, nextWf_fault, nextWf_scalar, State.wf_scalarAccess, State.nextWf_stopped, State.mem_load, State.mem_waitDone,
    State.mem_dropCache, State.mem_setLc, State.nextWf_waitIn]

/-! ## Queues and packets (R280, R399 to R403) -/

theorem nextWf_execQpost {s : State} (f : SF) (h : Memory.wf s.mem = true) : NextWf (execQpost f s) := by
  grind [execQpost, nextWf_next, nextWf_fault, nextWf_scalar, nextWf_afterPushes, State.wf_scalarAccess, State.nextWf_stopped, State.mem_load,
    State.mem_post, State.mem_dropLines, State.mem_put]

theorem nextWf_execLaunchPortWrite {s : State} (off size : Nat) (data : BitVec 512)
    (h : Memory.wf s.mem = true) : NextWf (execLaunchPortWrite off size data s) := by
  grind [execLaunchPortWrite, nextWf_next, nextWf_fault, State.mem_stamp, State.mem_setQueue]

theorem nextWf_execQdescEnable {s : State} (slot : Nat) (v : Word) (h : Memory.wf s.mem = true) : NextWf (execQdescEnable slot v s) := by
  grind [execQdescEnable, nextWf_next, nextWf_fault, State.mem_setQueue, State.mem_stamp]

theorem nextWf_execQdescDisable {s : State} (slot : Nat) (v : Word) (h : Memory.wf s.mem = true) : NextWf (execQdescDisable slot v s) := by
  grind [execQdescDisable, nextWf_next, nextWf_fault, State.mem_setQueue, State.mem_stamp]

@[simp] theorem State.wf_countersReach {s : State} (slot ctx : Nat) (x2 : List (Word × Nat))
    (h : Memory.wf s.mem = true) : Memory.wf (State.countersReach slot ctx x2 s).1.mem = true := by
  fun_induction State.countersReach slot ctx x2 s <;> grind [State.wf_counterRead]

@[simp] theorem State.wf_startLaunch {s : State} (slot : Nat) (p : BitVec 512)
    (h : Memory.wf s.mem = true) : Memory.wf (s.startLaunch slot p).mem = true := by
  grind [State.startLaunch, State.mem_startPacket, State.wf_launchDone]

@[simp] theorem State.wf_tryWaiting {s : State} (slot : Nat) (p : BitVec 512)
    (h : Memory.wf s.mem = true) : Memory.wf (s.tryWaiting slot p).mem = true := by
  grind [State.tryWaiting, State.wf_countersReach, State.wf_startLaunch, State.mem_startPacket]

theorem nextWf_onHead {slot t : Nat} {s : State} {k : BitVec 512 → State} (h : Memory.wf s.mem = true)
    (hk : ∀ p, Memory.wf (k p).mem = true) : NextWf (onHead slot t s k) := by
  unfold onHead
  split
  · split <;> simp [h, hk]
  · simp [h]

theorem nextWf_execLaunchPacket {s : State} (slot : Nat) (h : Memory.wf s.mem = true) : NextWf (execLaunchPacket slot s) := by
  grind [execLaunchPacket, nextWf_next, nextWf_fault, nextWf_onHead, State.wf_tryWaiting]

theorem nextWf_execWaitcPacket {s : State} (slot : Nat) (h : Memory.wf s.mem = true) : NextWf (execWaitcPacket slot s) := by
  grind [execWaitcPacket, nextWf_next, nextWf_fault, nextWf_onHead, State.wf_tryWaiting]

theorem nextWf_execSignalPacket {s : State} (slot : Nat) (h : Memory.wf s.mem = true) : NextWf (execSignalPacket slot s) := by
  grind [execSignalPacket, nextWf_next, nextWf_fault, nextWf_onHead, State.wf_counterAdd, State.mem_startPacket]

theorem nextWf_execSetdetPacket {s : State} (slot : Nat) (h : Memory.wf s.mem = true) : NextWf (execSetdetPacket slot s) := by
  grind [execSetdetPacket, nextWf_next, nextWf_fault, nextWf_onHead, State.mem_startPacket, State.mem_setQueue]

theorem nextWf_execDrainPacket {s : State} (slot : Nat) (h : Memory.wf s.mem = true) : NextWf (execDrainPacket slot s) := by
  grind [execDrainPacket, nextWf_next, nextWf_fault, nextWf_onHead, State.mem_startPacket]

@[simp] theorem State.wf_mark {s : State} (slot ctx : Nat) (va tag : Word)
    (h : Memory.wf s.mem = true) : Memory.wf (s.mark slot ctx va tag).mem = true := by
  grind [State.mark, State.wf_counterKeys, State.wf_kill, State.mem_counterFault, State.wf_write]

theorem nextWf_execMarkPacket {s : State} (slot : Nat) (h : Memory.wf s.mem = true) : NextWf (execMarkPacket slot s) := by
  grind [execMarkPacket, nextWf_next, nextWf_fault, nextWf_onHead, State.wf_mark, State.mem_startPacket]

theorem nextWf_execCounterReread {s : State} (slot : Nat) (h : Memory.wf s.mem = true) : NextWf (execCounterReread slot s) := by
  unfold execCounterReread
  (repeat' split) <;> simp [h]

/-! ## Page swaps, remote and cluster-span accesses (R98 to R118) -/

theorem nextWf_execTlbinv {s : State} (f : SF) (h : Memory.wf s.mem = true) : NextWf (execTlbinv f s) := by
  grind [execTlbinv, nextWf_next, nextWf_fault, State.wf_trap, nextWf_scalar, State.mem_waiting, State.mem_dropTlbs]

theorem nextWf_execTlbinvRetire {s : State} (h : Memory.wf s.mem = true) : NextWf (execTlbinvRetire s) := by
  unfold execTlbinvRetire
  (repeat' split) <;> simp [h]

@[simp] theorem State.wf_beginSwap {s : State} (l m : Leaf) (h : Memory.wf s.mem = true) : Memory.wf (s.beginSwap l m).mem = true := by
  simp [State.beginSwap, h]

theorem nextWf_execSwappg {s : State} (f : SF) (h : Memory.wf s.mem = true) : NextWf (execSwappg f s) := by
  grind [execSwappg, nextWf_next, nextWf_fault, State.wf_trap, nextWf_scalar, State.mem_swapLeaf, State.nextWf_stopped, State.mem_put,
    State.wf_beginSwap]

@[simp] theorem State.wf_landBlocks {s : State} (fa fb : Nat) (h : Memory.wf s.mem = true) : Memory.wf (s.landBlocks fa fb).mem = true := by
  simp [State.landBlocks, h]

theorem nextWf_execSwapComplete {s : State} (swap : Nat) (h : Memory.wf s.mem = true) : NextWf (execSwapComplete swap s) := by
  unfold execSwapComplete
  (repeat' split) <;> simp [h]

@[simp] theorem State.wf_atomicAt {s : State} (r : RemoteAtomic) (l : List Nat)
    (h : Memory.wf s.mem = true) : Memory.wf (s.atomicAt r l).mem = true := by
  grind [State.atomicAt, State.mem_read, State.mem_answered, State.wf_writeBack]

@[simp] theorem State.wf_serveRemote {s : State} (x : RemoteOp) (h : Memory.wf s.mem = true) : Memory.wf (s.serveRemote x).mem = true := by
  unfold State.serveRemote
  extract_lets hold
  split
  · grind [State.wf_atomicAt]
  · grind [State.wf_write, State.mem_answered, State.mem_read]
  · split
    · exact nextWf_execExchangeBytes _ h _ ‹_›
    · exact h

theorem nextWf_execHomeAtomic {s : State} (r : RemoteAtomic) (h : Memory.wf s.mem = true) : NextWf (execHomeAtomic r s) := by
  simp [execHomeAtomic, h]

theorem nextWf_execRemoteDomainAccess {s : State} (r : RemoteAccess) (h : Memory.wf s.mem = true) : NextWf (execRemoteDomainAccess r s) := by
  simp [execRemoteDomainAccess, h]

@[simp] theorem State.wf_serveHeld {s : State} (h : Memory.wf s.mem = true) : Memory.wf s.serveHeld.mem = true := by
  simp +contextual [State.serveHeld, h]

theorem nextWf_execSwapSubblockMove {s : State} (swap : Nat) (h : Memory.wf s.mem = true) : NextWf (execSwapSubblockMove swap s) := by
  unfold execSwapSubblockMove
  (repeat' split) <;> simp [h]

@[simp] theorem State.wf_applyScatter {s : State} (x : SpanPacket) (ks : List (List Nat)) (h : Memory.wf s.mem = true) :
    Memory.wf (s.applyScatter x ks).mem = true := by
  simp only [State.applyScatter, State.mem_updSpan, mem_foldl State.mem_overwritten]
  exact wf_foldl (fun u _ hu => by simp [hu]) h

theorem nextWf_execClusterSpanPacket {s : State} (n : Nat) (h : Memory.wf s.mem = true) : NextWf (execClusterSpanPacket n s) := by
  grind [execClusterSpanPacket, nextWf_next, nextWf_fault, State.wf_applyScatter, mem_readAll, State.wf_kill]

theorem nextWf_execGatherResponse {s : State} (n : Nat) (h : Memory.wf s.mem = true) : NextWf (execGatherResponse n s) := by
  unfold execGatherResponse
  (repeat' split) <;> simp [h]

theorem nextWf_execVamoswpOldValue {s : State} (thr : Nat) (h : Memory.wf s.mem = true) : NextWf (execVamoswpOldValue thr s) := by
  grind [execVamoswpOldValue, nextWf_next, nextWf_fault, State.mem_setLcOf]

/-! ## Contexts (R423, R434) -/

/-- The equations of `State.toPool` are out of the elaborator's reach (it evaluates the offset 0x27FFF), so it is unfolded by `delta`. -/
theorem State.nextWf_toPool {s : State} (ctx fuel : Nat) (h : Memory.wf s.mem = true) : NextWf (State.toPool ctx fuel s) := by
  have hstep : ∀ n b (t : State), (∀ u : State, Memory.wf u.mem = true → NextWf (b.1 u)) → Memory.wf t.mem = true →
      NextWf (State.toPool._f ctx (n + 1) b t) := fun n b t hb ht => by
    delta State.toPool._f
    dsimp only
    split
    · exact nextWf_next.mpr ht
    split
    · exact nextWf_next.mpr ht
    split
    · exact hb _ (State.wf_moveImage _ _ ht)
    · exact nextWf_fault _
  delta State.toPool
  induction fuel generalizing s with
  | zero => exact nextWf_next.mpr h
  | succ fuel ih => exact hstep fuel _ s (fun _ => ih) h

theorem State.nextWf_saveContext {s : State} (ctx : Nat) (d : Reg) (h : Memory.wf s.mem = true) : NextWf (s.saveContext ctx d) := by
  have hv : Memory.wf ((({ s with contexts := s.contexts.filter (· != ctx) } : State).threadsIn ctx).foldl State.stopForSave
      { s with contexts := s.contexts.filter (· != ctx) }).mem = true := by
    rw [mem_foldl State.mem_stopForSave]
    exact h
  unfold State.saveContext
  dsimp only
  generalize (({ s with contexts := s.contexts.filter (· != ctx) } : State).threadsIn ctx).foldl State.stopForSave
      { s with contexts := s.contexts.filter (· != ctx) } = v at hv ⊢
  have hp := State.nextWf_toPool ctx v.saved.length hv
  split
  · have ht := hp _ ‹_›
    split
    · exact nextWf_next.mpr ((State.mem_saveSelf _).symm ▸ ht)
    · exact nextWf_next.mpr ((State.mem_saveRetire _ _ _).symm ▸ ht)
  · exact hp

theorem nextWf_execSavectx {s : State} (f : SF) (h : Memory.wf s.mem = true) : NextWf (execSavectx f s) := by
  grind [execSavectx, nextWf_next, nextWf_fault, State.wf_trap, nextWf_scalar, State.mem_put, State.nextWf_saveContext]

theorem nextWf_execCtxctlMakeResident {s : State} (v : Word) (h : Memory.wf s.mem = true) : NextWf (execCtxctlMakeResident v s) := by
  unfold execCtxctlMakeResident
  extract_lets ctx
  split
  · exact nextWf_next.mpr h
  split
  · exact nextWf_next.mpr h
  have hd : Memory.wf (s.stamp.descriptor ctx).1.mem = true := by simp [h]
  split
  · rw [nextWf_next, State.mem_setCtxctl]
    exact State.wf_kill _ _ _ (wf_of_eq ‹_› hd)
  rename_i u d hu
  have hu' := wf_of_eq hu hd
  split
  · exact nextWf_next.mpr hu'
  · rw [nextWf_next, State.mem_readyAll]
    split <;> exact hu'

theorem nextWf_execCtxctlKill {s : State} (v : Word) (h : Memory.wf s.mem = true) : NextWf (execCtxctlKill v s) := by
  unfold execCtxctlKill
  split
  · exact nextWf_next.mpr h
  · rw [nextWf_next, State.mem_setCtxctl]
    exact State.wf_kill _ _ _ h

theorem nextWf_execTfwd {s : State} (v : Word) (h : Memory.wf s.mem = true) : NextWf (execTfwd v s) := by
  unfold execTfwd
  (repeat' split) <;> simp [h]

theorem nextWf_execCkillRead {s : State} (h : Memory.wf s.mem = true) : NextWf (execCkillRead s) := by
  unfold execCkillRead
  (repeat' split) <;> simp [h]

/-! ## Power (R409 to R414) -/

@[simp] theorem State.wf_withdraw {s : State} (y : LeaveHeld) (h : Memory.wf s.mem = true) : Memory.wf (s.withdraw y).mem = true := by
  unfold State.withdraw
  (repeat' split) <;> simp [h]

@[simp] theorem State.wf_makeFit {s : State} (r : LeaveReq) (l : List LeaveHeld) (h : Memory.wf s.mem = true) :
    Memory.wf (State.makeFit r l s).mem = true := by
  induction l generalizing s with
  | nil => exact h
  | cons a l ih => grind [State.makeFit, State.wf_withdraw]

theorem nextWf_execLeaveGrant {s : State} (h : Memory.wf s.mem = true) : NextWf (execLeaveGrant s) := by
  grind [execLeaveGrant, nextWf_next, nextWf_fault, State.wf_makeFit, State.mem_grant]

theorem nextWf_execLeaveExpiry {s : State} (n : Nat) (h : Memory.wf s.mem = true) : NextWf (execLeaveExpiry n s) := by
  unfold execLeaveExpiry
  (repeat' split) <;> simp [h]

theorem nextWf_execRenewalTimeout {s : State} (n : Nat) (h : Memory.wf s.mem = true) : NextWf (execRenewalTimeout n s) := by
  unfold execRenewalTimeout
  (repeat' split) <;> simp [h]

@[simp] theorem State.wf_deckCheck {s : State} (h : Memory.wf s.mem = true) : Memory.wf s.deckCheck.mem = true :=
  wf_foldl (fun _ _ hu => State.wf_withdraw _ hu) (by simpa using h)

theorem nextWf_execDeckCurrentSample {s : State} (ia ib : Nat) (h : Memory.wf s.mem = true) : NextWf (execDeckCurrentSample ia ib s) := by
  grind [execDeckCurrentSample, nextWf_next, nextWf_fault, State.wf_withdraw, State.wf_deckCheck]

/-! ## Errors and repair (R436 to R449) -/

theorem nextWf_execHbmPatrolScrub {s : State} (addr : Nat) (h : Memory.wf s.mem = true) : NextWf (execHbmPatrolScrub addr s) := by
  unfold execHbmPatrolScrub
  (repeat' split) <;> simp [h]

theorem nextWf_execVaultPatrolScrub {s : State} (addr : Nat) (h : Memory.wf s.mem = true) : NextWf (execVaultPatrolScrub addr s) := by
  unfold execVaultPatrolScrub
  (repeat' split) <;> simp [h]

theorem nextWf_execTsvParityRetry {s : State} (stack chan : Nat) (write : Bool) (retries : Nat)
    (h : Memory.wf s.mem = true) : NextWf (execTsvParityRetry stack chan write retries s) := by
  unfold execTsvParityRetry
  (repeat' split) <;> simp [h]

theorem nextWf_execLaneTest {s : State} (stack chan : Nat) (write : Bool) (lane addr : Nat) (passed : Bool)
    (h : Memory.wf s.mem = true) : NextWf (execLaneTest stack chan write lane addr passed s) := by
  grind [execLaneTest, nextWf_next, nextWf_fault, State.mem_countN, State.mem_count, State.mem_linkLog, State.mem_retire]

theorem nextWf_execBondLaneSwap {s : State} (core bank lane : Nat) (h : Memory.wf s.mem = true) : NextWf (execBondLaneSwap core bank lane s) := by
  grind [execBondLaneSwap, nextWf_next, nextWf_fault, State.mem_count, State.mem_machineCheck]

theorem nextWf_execRemapPoisonWalk {s : State} (vault : Bool) (unit chan bank group : Nat) (h : Memory.wf s.mem = true) :
    NextWf (execRemapPoisonWalk vault unit chan bank group s) := by
  unfold execRemapPoisonWalk
  dsimp only
  split
  · exact nextWf_next.mpr h
  · exact nextWf_next.mpr (wf_foldl (fun u _ hu => State.wf_kill _ _ _ hu) h)

theorem nextWf_execMcrec0Clear {s : State} (v : Word) (h : Memory.wf s.mem = true) : NextWf (execMcrec0Clear v s) := by
  unfold execMcrec0Clear
  (repeat' split) <;> simp [h]

theorem nextWf_execAlog0Clear {s : State} (v : Word) (h : Memory.wf s.mem = true) : NextWf (execAlog0Clear v s) := by
  unfold execAlog0Clear
  (repeat' split) <;> simp [h]

theorem nextWf_execLlog0Clear {s : State} (v : Word) (h : Memory.wf s.mem = true) : NextWf (execLlog0Clear v s) := by
  unfold execLlog0Clear
  (repeat' split) <;> simp [h]

theorem nextWf_execSecntClear {s : State} (i : Nat) (h : Memory.wf s.mem = true) : NextWf (execSecntClear i s) := by
  unfold execSecntClear
  (repeat' split) <;> simp [h]

/-! ## Host, kernels and boot (R450 to R465) -/

theorem nextWf_execConfigWrite {s : State} (off : Nat) (v : HostWrite) (h : Memory.wf s.mem = true) : NextWf (execConfigWrite off v s) := by
  unfold execConfigWrite
  (repeat' split) <;> simp [h]

theorem nextWf_execKernelLoad {s : State} (v : Word) (h : Memory.wf s.mem = true) : NextWf (execKernelLoad v s) := by
  unfold execKernelLoad
  (repeat' split) <;> simp [h]

@[simp] theorem State.wf_loaderRead {s : State} (ctx : Nat) (va : Word) (n : Nat)
    (h : Memory.wf s.mem = true) : Memory.wf (s.loaderRead ctx va n).1.mem = true := by
  grind [State.loaderRead, State.wf_placeOf, State.wf_kill, State.mem_read]

@[simp] theorem State.wf_loadKernel {s : State} (j : LoadJob) (h : Memory.wf s.mem = true) : Memory.wf (s.loadKernel j).1.mem = true := by
  have hd := (State.mem_descriptor s j.ctx).symm ▸ h
  unfold State.loadKernel
  split
  · exact State.wf_kill _ _ _ (wf_of_eq ‹_› hd)
  rename_i u d hu
  have hu' := wf_of_eq hu hd
  split
  · exact hu'
  split
  · exact hu'
  have hl := State.wf_loaderRead j.ctx j.dsc 64 hu'
  split
  · exact wf_of_eq ‹_› hl
  rename_i v b hv
  have hv' := wf_of_eq hv hl
  split
  · exact hv'
  extract_lets n
  have hm := State.wf_loaderRead j.ctx (j.dsc + 64) (16 * n) hv'
  split
  · exact wf_of_eq ‹_› hm
  have ht := wf_of_eq ‹_› hm
  dsimp only
  split
  · exact ht
  split
  · exact ht
  · exact ht

theorem nextWf_execKernelLoadDone {s : State} (h : Memory.wf s.mem = true) : NextWf (execKernelLoadDone s) := by
  unfold execKernelLoadDone
  (repeat' split) <;> simp [h]

theorem nextWf_execKernelUnload {s : State} (v : Word) (h : Memory.wf s.mem = true) : NextWf (execKernelUnload v s) := by
  grind [execKernelUnload, nextWf_next, nextWf_fault, State.mem_descriptor, State.wf_kill]

theorem nextWf_execAttcmdGo {s : State} (v : Word) (h : Memory.wf s.mem = true) : NextWf (execAttcmdGo v s) := by
  grind [execAttcmdGo, nextWf_next, nextWf_fault]

theorem nextWf_execAttestationReport {s : State} (h : Memory.wf s.mem = true) : NextWf (execAttestationReport s) := by
  grind [execAttestationReport, nextWf_next, nextWf_fault, State.mem_attested, State.mem_read, State.wf_write, State.mem_tickFresh]

theorem nextWf_execHostCxlMemAccess {s : State} (r : RemoteAccess) (h : Memory.wf s.mem = true) : NextWf (execHostCxlMemAccess r s) := by
  grind [execHostCxlMemAccess, nextWf_next, nextWf_fault, State.mem_groupsWritten, State.wf_write, State.mem_read, State.mem_answered]

@[simp] theorem State.wf_boot {s : State} (h : Memory.wf s.mem = true) : Memory.wf s.boot.mem = true := by
  unfold State.boot
  extract_lets y p goes
  split
  · exact h
  split
  · exact h
  split
  · exact h
  split
  · exact h
  split
  · exact h
  · exact Memory.wf_filter _ h

@[simp] theorem State.wf_undoSwap {s : State} (w : Swap) (h : Memory.wf s.mem = true) : Memory.wf (s.undoSwap w).mem = true :=
  State.wf_putNum _ _ _ (State.wf_putNum _ _ _ (wf_foldl (fun _ _ hu => State.wf_transfer _ _ hu) h))

@[simp] theorem State.wf_afterReset {s : State} (h : Memory.wf s.mem = true) : Memory.wf s.afterReset.mem = true := by
  simp +contextual [State.afterReset, h]

theorem nextWf_execDeviceReset {s : State} (h : Memory.wf s.mem = true) : NextWf (execDeviceReset s) := by
  simp [execDeviceReset, h]

/-! ## Every instruction and every step of another agent -/

/-- The meaning of every instruction, and of every step of another agent, keeps the form: the shared forms in groups, the others one
by one. -/
theorem nextWf_exec {s : State} (i : Instr) (h : Memory.wf s.mem = true) : NextWf (exec i s) := by
  cases i with
  | add f | sub f | and f | or f | xor f | sll f | srl f | sra f | slt f | sltn f | min f | max f | minn f | maxn f | mul f | mulh f
  | mulhn f | div f | divn f | rem f | remn f =>
    dsimp only [exec]
    exact nextWf_opABD _ _ h
  | clz f | ctz f | popc f =>
    dsimp only [exec]
    exact nextWf_opAD _ _ h
  | addi f | andi f | ori f | xori f | slti f =>
    dsimp only [exec]
    exact nextWf_opImm _ _ h
  | slli f | srli f | srai f =>
    dsimp only [exec]
    exact nextWf_opShift _ _ h
  | lui f => exact nextWf_execLui f h
  | auipc f => exact nextWf_execAuipc f h
  | jal f => exact nextWf_execJal f h
  | jalr f => exact nextWf_execJalr f h
  | loop f => exact nextWf_execLoop f h
  | fadd f | fsub f | fmul f | fdiv f | fmin f | fmax f =>
    dsimp only [exec]
    exact nextWf_opF _ _ h
  | fsqrt f => exact nextWf_execFsqrt f h
  | fma f => exact nextWf_execFma f h
  | fcmp f => exact nextWf_execFcmp f h
  | fcvt f => exact nextWf_execFcvt f h
  | fmv f => exact nextWf_execFmv f h
  | ldacq f | strel f | amoadd f | amoswp f | amocas f | amomin f | amomax f | amoand f | amoor f =>
    dsimp only [exec]
    exact nextWf_scalarAtomic _ _ h
  | ldb f | ldbn f | ldh f | ldhn f | ldw f | ldwn f | ldd f =>
    dsimp only [exec]
    exact nextWf_scalarLoad _ _ _ h
  | stb f | sth f | stw f | std f =>
    dsimp only [exec]
    exact nextWf_scalarStore _ _ h
  | beq f | bne f | blt f | bge f | bltn f | bgen f =>
    dsimp only [exec]
    exact nextWf_branch _ _ h
  | vadd f | vsub f | vmul f | vmulh f | vand f | vor f | vxor f | vsll f | vsrl f | vsra f | vmin f | vmax f | vminn f | vmaxn f
  | vsadd f | vssub f =>
    dsimp only [exec]
    exact nextWf_intVV _ _ _ h
  | vmerge f | vmergeScalar f | vid f | vmvs f | vcvt f =>
    dsimp only [exec]
    exact nextWf_elementwise h
  | vaddScalar f | vsubScalar f | vmulScalar f | vmulhScalar f | vandScalar f | vorScalar f | vxorScalar f | vsllScalar f
  | vsrlScalar f | vsraScalar f | vminScalar f | vmaxScalar f | vminnScalar f | vmaxnScalar f | vsaddScalar f | vssubScalar f =>
    dsimp only [exec]
    exact nextWf_intVG _ _ _ h
  | vpopc f | vclz f =>
    dsimp only [exec]
    exact nextWf_intV _ _ _ h
  | vmvx f | vslideup f | vslidedn f | vrgath f | vcmpr f | vargmax f | vspsel f | vconfl f | vfcomb f | kffs f | kpopc f | hvbind f
  | hvperm f | hvbund f | hvmaj f | hvsim f =>
    dsimp only [exec]
    exact nextWf_wholeResult h
  | vfadd f | vfsub f | vfmul f | vfma f | vfnma f | vfdiv f | vfmin f | vfmax f =>
    dsimp only [exec]
    exact nextWf_fpVV _ _ _ h
  | vfaddScalar f | vfsubScalar f | vfmulScalar f | vfmaScalar f | vfnmaScalar f | vfdivScalar f | vfminScalar f | vfmaxScalar f =>
    dsimp only [exec]
    exact nextWf_fpVG _ _ _ h
  | vfsqrt f | vfabs f | vfneg f | vfexp2 f | vflog2 f | vfrsq f | vfrcp f =>
    dsimp only [exec]
    exact nextWf_fpV _ _ _ h
  | vcmpeq f | vcmpne f | vcmplt f | vcmple f | vcmpltn f | vcmplen f =>
    dsimp only [exec]
    exact nextWf_cmpVV _ _ _ h
  | vfcmpeq f | vfcmplt f | vfcmple f =>
    dsimp only [exec]
    exact nextWf_fcmpVV _ _ _ h
  | vcmpeqScalar f | vcmpneScalar f | vcmpltScalar f | vcmpleScalar f | vcmpltnScalar f | vcmplenScalar f =>
    dsimp only [exec]
    exact nextWf_cmpVG _ _ _ h
  | vfcmpeqScalar f | vfcmpltScalar f | vfcmpleScalar f =>
    dsimp only [exec]
    exact nextWf_fcmpVG _ _ _ h
  | vredsum f | vredmax f | vredmin f =>
    dsimp only [exec]
    exact nextWf_intReduce _ _ _ h
  | vfredsum f | vfredmax f | vfredmin f =>
    dsimp only [exec]
    exact nextWf_fpReduce _ _ _ h
  | capp f => exact nextWf_execCapp f h
  | setvl f => exact nextWf_execSetvl f h
  | setvli f => exact nextWf_execSetvli f h
  | vld f | vlds f | vldx f | vldt f | vldff f | vldv f =>
    dsimp only [exec]
    exact nextWf_loadMember _ h
  | vst f | vsts f | vstx f | vstt f | vstv f | vstxr f =>
    dsimp only [exec]
    exact nextWf_storeMember _ h
  | vldxa f => exact nextWf_execVldxa f h
  | vamoadd f | vamomin f | vamomax f | vamoswp f =>
    dsimp only [exec]
    exact nextWf_atomicMember _ _ h
  | fence f => exact nextWf_execFence f h
  | kand f | kor f | kxor f | knot f | kmov f =>
    dsimp only [exec]
    exact nextWf_maskOp _ _ _ h
  | hvset f => exact nextWf_execHvset f h
  | hvrand f => exact nextWf_execHvrand f h
  | hvclean f => exact nextWf_execHvclean f h
  | hvfact f => exact nextWf_execHvfact f h
  | hvstat f => exact nextWf_execHvstat f h
  | skset f => exact nextWf_execSkset f h
  | skfeed f => exact nextWf_execSkfeed f h
  | skest f => exact nextWf_execSkest f h
  | skstat f => exact nextWf_execSkstat f h
  | skclr f => exact nextWf_execSkclr f h
  | matt f => exact nextWf_execMatt f h
  | mdet f => exact nextWf_execMdet f h
  | mzero f => exact nextWf_execMzero f h
  | mma f => exact nextWf_execMma f h
  | mldb f => exact nextWf_execMldb f h
  | mst f => exact nextWf_execMst f h
  | mgemv f => exact nextWf_execMgemv f h
  | strm f => exact nextWf_execStrm f h
  | savail f => exact nextWf_execSavail f h
  | swait f => exact nextWf_execSwait f h
  | scancel f => exact nextWf_execScancel f h
  | ssusp f => exact nextWf_execSsusp f h
  | sresm f => exact nextWf_execSresm f h
  | vldp f => exact nextWf_execVldp f h
  | vstp f => exact nextWf_execVstp f h
  | vstc f => exact nextWf_execVstc f h
  | vldc f => exact nextWf_execVldc f h
  | cwait f => exact nextWf_execCwait f h
  | dpost f => exact nextWf_execDpost f h
  | dposta f => exact nextWf_execDposta f h
  | xtrim f => exact nextWf_execXtrim f h
  | xgo f => exact nextWf_execXgo f h
  | xwait f => exact nextWf_execXwait f h
  | xstat f => exact nextWf_execXstat f h
  | cset f => exact nextWf_execCset f h
  | csrrd f | csrwr f | csrset f | csrclr f =>
    dsimp only [exec]
    exact nextWf_csrOp _ _ _ h
  | trap f => exact nextWf_execTrap f h
  | tret f => exact nextWf_execTret f h
  | wfe f => exact nextWf_execWfe f h
  | sev f => exact nextWf_execSev f h
  | pause f | streamStop core port | matrixPass cluster | dtimeDiscipline dtime offset =>
    dsimp only [exec]
    exact nextWf_next.mpr h
  | tend f => exact nextWf_execTend f h
  | bjoin f => exact nextWf_execBjoin f h
  | bleave f => exact nextWf_execBleave f h
  | barr f => exact nextWf_execBarr f h
  | bwait f => exact nextWf_execBwait f h
  | barw f => exact nextWf_execBarw f h
  | btest f => exact nextWf_execBtest f h
  | waitc f => exact nextWf_execWaitc f h
  | qpost f => exact nextWf_execQpost f h
  | swappg f => exact nextWf_execSwappg f h
  | tlbinv f => exact nextWf_execTlbinv f h
  | savectx f => exact nextWf_execSavectx f h
  | tlbinvRetire => exact nextWf_execTlbinvRetire h
  | swapSubblockMove swap => exact nextWf_execSwapSubblockMove swap h
  | swapComplete swap => exact nextWf_execSwapComplete swap h
  | homeAtomic r => exact nextWf_execHomeAtomic r h
  | vamoswpOldValue thr => exact nextWf_execVamoswpOldValue thr h
  | clusterSpanPacket n => exact nextWf_execClusterSpanPacket n h
  | gatherResponse n => exact nextWf_execGatherResponse n h
  | streamDispatch core port => exact nextWf_execStreamDispatch core port h
  | streamElementGroup core port => exact nextWf_execStreamElementGroup core port h
  | streamComplete core port => exact nextWf_execStreamComplete core port h
  | portDisplace core port thr => exact nextWf_execPortDisplace core port thr h
  | attachmentReacquire thr => exact nextWf_execAttachmentReacquire thr h
  | tileWrite cluster => exact nextWf_execTileWrite cluster h
  | mgemvRow core port row => exact nextWf_execMgemvRow core port row h
  | factoringBufferTake core thr => exact nextWf_execFactoringBufferTake core thr h
  | collectivePacket p => exact nextWf_execCollectivePacket p h
  | arrivalReport p => exact nextWf_execArrivalReport p h
  | collectiveDeadline gid => exact nextWf_execCollectiveDeadline gid h
  | homeCombine gid home told => exact nextWf_execHomeCombine gid home told h
  | roundRelease gid told homes => exact nextWf_execRoundRelease gid told homes h
  | memberDead dev => exact nextWf_execMemberDead dev h
  | demandRow m => exact nextWf_execDemandRow m h
  | calendarDeadline gid => exact nextWf_execCalendarDeadline gid h
  | grantWrite gid told => exact nextWf_execGrantWrite gid told h
  | sheetStart gid sheet => exact nextWf_execSheetStart gid sheet h
  | exchangeBytes m => exact nextWf_execExchangeBytes m h
  | readyFlit m => exact nextWf_execReadyFlit m h
  | looseTailStart gid => exact nextWf_execLooseTailStart gid h
  | imposerHeartbeat gid heard => exact nextWf_execImposerHeartbeat gid heard h
  | standbyTakeover gid => exact nextWf_execStandbyTakeover gid h
  | leaveGrant => exact nextWf_execLeaveGrant h
  | leaveExpiry n => exact nextWf_execLeaveExpiry n h
  | renewalTimeout n => exact nextWf_execRenewalTimeout n h
  | deckCurrentSample ia ib => exact nextWf_execDeckCurrentSample ia ib h
  | launchPortWrite off size data => exact nextWf_execLaunchPortWrite off size data h
  | launchPacket slot => exact nextWf_execLaunchPacket slot h
  | waitcPacket slot => exact nextWf_execWaitcPacket slot h
  | signalPacket slot => exact nextWf_execSignalPacket slot h
  | setdetPacket slot => exact nextWf_execSetdetPacket slot h
  | drainPacket slot => exact nextWf_execDrainPacket slot h
  | markPacket slot => exact nextWf_execMarkPacket slot h
  | counterReread slot => exact nextWf_execCounterReread slot h
  | dispatch =>
    dsimp only [exec]
    exact nextWf_execDispatch h
  | preempt groups => exact nextWf_execPreempt groups h
  | quantumExpiry groups => exact nextWf_execQuantumExpiry groups h
  | preemptSave thr => exact nextWf_execPreemptSave thr h
  | restore =>
    dsimp only [exec]
    exact nextWf_execRestore h
  | unpark => exact nextWf_execUnpark h
  | ctxctlMakeResident v => exact nextWf_execCtxctlMakeResident v h
  | ctxctlKill v => exact nextWf_execCtxctlKill v h
  | tfwd v => exact nextWf_execTfwd v h
  | ckillRead => exact nextWf_execCkillRead h
  | qdescEnable slot v => exact nextWf_execQdescEnable slot v h
  | qdescDisable slot v => exact nextWf_execQdescDisable slot v h
  | mcrec0Clear v => exact nextWf_execMcrec0Clear v h
  | alog0Clear v => exact nextWf_execAlog0Clear v h
  | llog0Clear v => exact nextWf_execLlog0Clear v h
  | secntClear n => exact nextWf_execSecntClear n h
  | configWrite off v => exact nextWf_execConfigWrite off v h
  | kernelLoad v => exact nextWf_execKernelLoad v h
  | kernelUnload v => exact nextWf_execKernelUnload v h
  | kernelLoadDone => exact nextWf_execKernelLoadDone h
  | attcmdGo v => exact nextWf_execAttcmdGo v h
  | attestationReport => exact nextWf_execAttestationReport h
  | deviceReset => exact nextWf_execDeviceReset h
  | hostCxlMemAccess r => exact nextWf_execHostCxlMemAccess r h
  | hbmPatrolScrub addr => exact nextWf_execHbmPatrolScrub addr h
  | vaultPatrolScrub addr => exact nextWf_execVaultPatrolScrub addr h
  | tsvParityRetry stack chan write retries => exact nextWf_execTsvParityRetry stack chan write retries h
  | laneTest stack chan write lane addr passed => exact nextWf_execLaneTest stack chan write lane addr passed h
  | bondLaneSwap core bank lane => exact nextWf_execBondLaneSwap core bank lane h
  | remapPoisonWalk vault unit chan bank group => exact nextWf_execRemapPoisonWalk vault unit chan bank group h
  | remoteDomainAccess r => exact nextWf_execRemoteDomainAccess r h

/-! ## The turn of a thread and the acts of the agenda -/

theorem wf_runMember {ex : Instr → State → Host.Outcome State Fault Refusal} (he : ∀ i u, Memory.wf u.mem = true → NextWf (ex i u))
    (i : Instr) (w : Window) {s : State} (h : Memory.wf s.mem = true) : Memory.wf (runMember ex i w s).mem = true := by
  unfold runMember
  split
  · rename_i t ht
    exact he i { s with win := some w } h t ht
  · exact h

theorem nextWf_issueAll {ex : Instr → State → Host.Outcome State Fault Refusal} (he : ∀ i u, Memory.wf u.mem = true → NextWf (ex i u))
    (broken : Option Nat) (ms : List Instr) {s : State} (h : Memory.wf s.mem = true) : NextWf (issueAll ex broken ms s) := by
  unfold issueAll
  split
  · exact he _ _ h
  · exact nextWf_issueGroup (fun i w _ hu => wf_runMember he i w hu) h

theorem State.nextWf_issueAt {dec : IWord → Option Instr} {ex : Instr → State → Host.Outcome State Fault Refusal}
    (he : ∀ i u, Memory.wf u.mem = true → NextWf (ex i u)) {s : State} (h : Memory.wf s.mem = true) : NextWf (s.issueAt dec ex) := by
  have hf := State.wf_fetchGroup s.lc.pc h
  unfold State.issueAt
  split
  · exact State.nextWf_stopped _ _ _ (wf_of_eq ‹_› hf)
  rename_i u ws broken hu
  have hu' := wf_of_eq hu hf
  split
  · exact nextWf_next.mpr (State.wf_deliver _ hu')
  · exact nextWf_issueAll he _ _ hu'

theorem State.nextWf_turn {dec : IWord → Option Instr} {ex : Instr → State → Host.Outcome State Fault Refusal}
    (he : ∀ i u, Memory.wf u.mem = true → NextWf (ex i u)) {s : State} (h : Memory.wf s.mem = true) : NextWf (State.turn dec ex s) := by
  have hi : NextWf (State.issueAt dec ex s.wake) := State.nextWf_issueAt he (by simpa using h)
  unfold State.turn
  dsimp only
  split
  · exact nextWf_next.mpr h
  split
  · simpa using h
  split
  · exact nextWf_next.mpr (State.wf_abandon _ h)
  split
  · simpa using h
  split
  · exact nextWf_next.mpr h
  split
  · simpa using hi _ ‹_›
  · exact hi

theorem State.nextWf_act {ex : Instr → State → Host.Outcome State Fault Refusal} {turn : State → Host.Outcome State Fault Refusal}
    {boot : State → State} (he : ∀ i u, Memory.wf u.mem = true → NextWf (ex i u)) (ht : ∀ u, Memory.wf u.mem = true → NextWf (turn u))
    (hb : ∀ u, Memory.wf u.mem = true → Memory.wf (boot u).mem = true) {s : State} (a : Act) (h : Memory.wf s.mem = true) :
    NextWf (State.act ex turn boot s a) := by
  cases a with
  | turn t =>
    dsimp only [State.act]
    split
    · exact ht _ h
    · exact nextWf_next.mpr h
  | event i =>
    dsimp only [State.act]
    split
    · exact he _ _ h
    · exact nextWf_next.mpr h
  | boot => exact nextWf_next.mpr (hb _ h)
  | fillData core key => exact nextWf_next.mpr (by simpa using h)
  | fillInsn core key => exact nextWf_next.mpr (by simpa using h)
  | tick ns | dropData core key | dropInsn core key | dropTlb core bank vpn | upset word bit | remapUpset e | power p | facts p =>
    exact nextWf_next.mpr h

theorem nextWf_step {s : State} (h : Memory.wf s.mem = true) : NextWf (step s) := by
  have ht : ∀ u : State, Memory.wf u.mem = true → NextWf (State.turn decodeWord exec u) := fun _ => State.nextWf_turn fun i _ => nextWf_exec i
  unfold step State.advance
  split
  · exact State.nextWf_act (fun i _ => nextWf_exec i) ht (fun _ => State.wf_boot) _ h
  · split
    · exact ht s h
    · exact nextWf_next.mpr (State.wf_boot h)

/-- Settles O5: whatever the step runs keeps the form, since every store is a fold of single writes and every other change of memory a
filter. -/
theorem stepKeepsMemoryCanonical : Obligations.StepKeepsMemoryCanonical := by
  unfold Obligations.StepKeepsMemoryCanonical
  exact fun s t hs ht => nextWf_step hs t ht

end Sys2Proof.Machine

namespace Sys2Proof.Machine
/-! # Scalar accesses that trap before translation -/

variable {s : State} {gs : List Reg} {addr : Word} {n : Nat}

/-- An address with a bit at or above 51 stops a scalar access with BOUNDS, whatever its alignment (R80, R96). -/
theorem State.scalarAccess_bounds (cls : AccClass) (acc : Acc) (h : 2 ^ 51 ≤ addr.toNat) :
    s.scalarAccess cls acc addr n = (s, .error (.trap .bounds addr)) := by
  have hq : addr.toNat / 2 ^ 51 ≠ 0 := Nat.div_ne_zero_iff.mpr ⟨by norm_num, h⟩
  rw [State.scalarAccess, if_pos (bne_iff_ne.mpr hq)]

/-- Below 2^51, an address that is no multiple of the size stops a scalar access with MISALIGN (R96, R147). -/
theorem State.scalarAccess_misaligned (cls : AccClass) (acc : Acc) (hb : addr.toNat < 2 ^ 51) (hm : addr.toNat % n ≠ 0) :
    s.scalarAccess cls acc addr n = (s, .error (.trap .misalign addr)) := by
  have hq : ¬ (addr.toNat / 2 ^ 51 != 0) = true := by rw [Nat.div_eq_of_lt hb]; decide
  rw [State.scalarAccess, if_neg hq, if_pos (bne_iff_ne.mpr hm)]

/-- The signed immediate of a scalar access, written as the statements write it. -/
theorem imm15_eq_ofInt (x : BitVec 15) : imm15 x = BitVec.ofInt 64 x.toInt := rfl

/-- The instruction traps at the current pc with the cause of the first check that its address fails (R96). -/
def State.AddressTraps (s : State) (o : Host.Outcome State Fault Refusal) (gs : List Reg) (addr : Word) (n : Nat) : Prop :=
  (2 ^ 51 ≤ addr.toNat → o = .next ((s.seen gs).deliver ⟨.bounds, addr, 0, s.lc.pc, s.lc.vstart⟩))
    ∧ (addr.toNat < 2 ^ 51 → addr.toNat % n ≠ 0 →
        o = .next ((s.seen gs).deliver ⟨.misalign, addr, 0, s.lc.pc, s.lc.vstart⟩))

/-- An access that fails a check of its address is a trap of the state that the instruction has seen. -/
theorem State.stopped_trap_seen (c : Cause) (v : Word) :
    (s.seen gs).stopped (.trap c v) 0 (s.seen gs).lc.vstart
      = .next ((s.seen gs).deliver ⟨c, v, 0, s.lc.pc, s.lc.vstart⟩) := by
  rw [State.vstart_seen, ← State.pc_seen (s := s) (gs := gs)]
  rfl

/-- A scalar load traps at a bad address (R147). -/
theorem scalarLoad_addressTraps (ext : Nat → Word) {f : IF} (h : s.Free [f.d, f.a]) :
    s.AddressTraps (scalarLoad n ext f s) [f.d, f.a] (s.lc.rd f.a + BitVec.ofInt 64 f.imm.toInt) n := by
  constructor
  · intro hb
    simp only [scalarLoad, scalar_free h, State.rd_seen, imm15_eq_ofInt, State.scalarAccess_bounds _ _ hb]
    exact State.stopped_trap_seen ..
  · intro hb hm
    simp only [scalarLoad, scalar_free h, State.rd_seen, imm15_eq_ofInt, State.scalarAccess_misaligned _ _ hb hm]
    exact State.stopped_trap_seen ..

/-- A scalar store traps at a bad address (R147). -/
theorem scalarStore_addressTraps {f : IF} (h : s.Free [f.d, f.a]) :
    s.AddressTraps (scalarStore n f s) [f.d, f.a] (s.lc.rd f.a + BitVec.ofInt 64 f.imm.toInt) n := by
  constructor
  · intro hb
    simp only [scalarStore, scalar_free h, State.rd_seen, imm15_eq_ofInt, State.scalarAccess_bounds _ _ hb]
    exact State.stopped_trap_seen ..
  · intro hb hm
    simp only [scalarStore, scalar_free h, State.rd_seen, imm15_eq_ofInt, State.scalarAccess_misaligned _ _ hb hm]
    exact State.stopped_trap_seen ..

/-- A scalar atomic, LDACQ or STREL traps at a bad address, a release once nothing of VSTP is on its way (R150, R152). -/
theorem scalarAtomic_addressTraps (op : AtomOp) {f : AF} (h : s.Free [f.d, f.a, f.b])
    (hrel : releases op f.succ = true → s.owes = false) :
    s.AddressTraps (scalarAtomic op f s) [f.d, f.a, f.b] (s.lc.rd f.a) 8 := by
  have hseen : releases op f.succ = true → (s.seen [f.d, f.a, f.b]).owes = false := by rwa [State.owes_seen]
  constructor
  · intro hb
    simp only [scalarAtomic, scalar_free h, afterPushes_go hseen, State.rd_seen, State.scalarAccess_bounds _ _ hb]
    exact State.stopped_trap_seen ..
  · intro hb hm
    simp only [scalarAtomic, scalar_free h, afterPushes_go hseen, State.rd_seen, State.scalarAccess_misaligned _ _ hb hm]
    exact State.stopped_trap_seen ..

/-- Settles O33: the checks of the address come first in the order of R96, so each form stops before it translates. -/
theorem scalarAccessTraps : Obligations.ScalarAccessTraps := by
  unfold Obligations.ScalarAccessTraps
  intro s first out
  refine ⟨fun f => ⟨fun p hp hfree => ?_, fun p hp hfree => ?_⟩, fun f i hi hfirst hfree => ?_⟩
  · simp only [loadRules, List.mem_cons, List.not_mem_nil, or_false] at hp
    obtain rfl | rfl | rfl | rfl | rfl | rfl | rfl := hp
    all_goals exact scalarLoad_addressTraps _ hfree
  · simp only [storeRules, List.mem_cons, List.not_mem_nil, or_false] at hp
    obtain rfl | rfl | rfl | rfl := hp
    all_goals exact scalarStore_addressTraps hfree
  · have hrel (op : AtomOp) (hop : op ≠ .ldacq → i ≠ .ldacq f) (hst : op = .strel → i = .strel f)
        (hr : releases op f.succ = true) : s.owes = false := by
      cases op <;> grind [releases]
    simp only [List.mem_cons, List.not_mem_nil, or_false] at hi
    obtain rfl | rfl | rfl | rfl | rfl | rfl | rfl | rfl | rfl := hi
    all_goals exact scalarAtomic_addressTraps _ hfree (hrel _ (by simp) (by simp))

end Sys2Proof.Machine

namespace Sys2Proof.Machine
/-! # What a translation may change -/

variable {s t u v : State} {va : Word} {who : Who} {cls : AccClass} {acc : Acc}

/-! ## The fields that a translation may change -/

/-- A state with what another has of the parts that a translation reaches: memory, the TLBs with the free values of
their replacement, and the errors of the words that a walk reads. -/
def State.withMaps (s o : State) : State :=
  { s with mem := o.mem, tlb := o.tlb, fresh := o.fresh, poison := o.poison, latent := o.latent, host := o.host, seq := o.seq,
           msix := o.msix, bondCounts := o.bondCounts }

/-- A state with another's memory, TLBs and free values. -/
def State.withTlbs (s o : State) : State := { s with mem := o.mem, tlb := o.tlb, fresh := o.fresh }

/-- From one state to the other only what a translation reaches has changed; where no error was present, no error has
been met either. -/
structure State.OnlyMaps (s u : State) : Prop where
  frame : u.withMaps s = s
  clean : s.latent = [] → u.withTlbs s = s

theorem State.OnlyMaps.refl (s : State) : s.OnlyMaps s := ⟨rfl, fun _ => rfl⟩

theorem State.OnlyMaps.trans (h : s.OnlyMaps t) (k : t.OnlyMaps u) : s.OnlyMaps u where
  frame := by
    have e : u.withMaps s = (u.withMaps t).withMaps s := rfl
    rw [e, k.frame, h.frame]
  clean hs := by
    have hl : t.latent = [] := (congrArg State.latent (h.clean hs)).trans hs
    have e : u.withTlbs s = (u.withTlbs t).withTlbs s := rfl
    rw [e, k.clean hl, h.clean hs]

/-- Memory, the TLBs and the free values are the state's to change. -/
theorem State.OnlyMaps.of_eq (h : u.withTlbs s = s) : s.OnlyMaps u where
  frame := by
    have k := congrArg (State.withMaps · s) h
    exact k
  clean _ := h

/-- A read meets the errors of its words and changes nothing else (R436, R439). -/
theorem State.OnlyMaps.read (s : State) (keys : List Nat) : s.OnlyMaps (s.read keys).1 where
  frame := by
    have k := congrArg (State.withMaps · s) (State.withErrors_meets s s keys)
    exact k
  clean h := by
    have e : (s.read keys).1 = s := by simp [State.read, State.meets, h]
    rw [e]
    rfl

/-- A number written back to a word whose errors its read has met. -/
theorem State.OnlyMaps.putBack (s : State) (a n x : Nat) : s.OnlyMaps (s.putBack a n x) where
  frame := rfl
  clean h := by
    have e : (s.putBack a n x).latent = s.latent := by simp [State.putBack, State.writeBack, h]
    exact congrArg (fun l => ({ s with latent := l } : State)) e

/-- Filling a TLB changes its entries and the free values of their replacement (R92). -/
theorem State.tlbFill_cases (s : State) (e : TlbEntry) : ∃ l n, s.tlbFill e = { s with tlb := l, fresh := n } := by
  unfold State.tlbFill
  dsimp only
  generalize (if e.bank == tlb2 then Config.tlb2Entries else Config.laneTlbEntries) = cap
  split
  · exact ⟨e :: s.tlb, s.fresh, rfl⟩
  · split
    · exact ⟨s.tlb, s.tickFresh.fresh, rfl⟩
    · exact ⟨_, s.tickFresh.fresh, rfl⟩

theorem State.OnlyMaps.tlbFill (s : State) (e : TlbEntry) : s.OnlyMaps (s.tlbFill e) := by
  obtain ⟨l, n, h⟩ := s.tlbFill_cases e
  rw [h]
  exact .of_eq rfl

theorem State.OnlyMaps.walkFrom (va : Word) (fuel lvl tbl : Nat) (s : State) : s.OnlyMaps (State.walkFrom va fuel lvl tbl s).1 := by
  induction fuel generalizing lvl tbl s with
  | zero => exact .refl s
  | succ fuel ih =>
    have hr := State.OnlyMaps.read s (keysFrom (tbl + 8 * (va.toNat / 2 ^ Pte.shift lvl % 4096)) 8)
    grind [State.walkFrom, State.OnlyMaps.refl, State.OnlyMaps.trans]

theorem State.OnlyMaps.descriptor (s : State) (ctx : Nat) : s.OnlyMaps (s.descriptor ctx).1 := by
  grind [State.descriptor, State.OnlyMaps.read s (keysFrom (s.descKey ctx) 16)]

theorem State.OnlyMaps.walk (s : State) (ctx : Nat) (va : Word) : s.OnlyMaps (s.walk ctx va).1 := by
  have hd := State.OnlyMaps.descriptor s ctx
  unfold State.walk
  split
  · simp_all
  · rename_i t d e
    rw [e] at hd
    exact hd.trans (.walkFrom ..)

theorem State.OnlyMaps.walkFor (s : State) (who : Who) (cls : AccClass) (acc : Acc) (va : Word) :
    s.OnlyMaps (s.walkFor who cls acc va).1 := by
  have hw := State.OnlyMaps.walk s who.ctx va
  grind [State.walkFor, State.setAD, State.OnlyMaps.trans, State.OnlyMaps.putBack]

theorem State.OnlyMaps.tlbReplace (s : State) (e f : TlbEntry) : s.OnlyMaps (s.tlbReplace e f) := .of_eq rfl

theorem State.OnlyMaps.setTlb (s : State) (l : List TlbEntry) : s.OnlyMaps { s with tlb := l } := .of_eq rfl

theorem State.OnlyMaps.useEntry (s : State) (e : TlbEntry) (acc : Acc) : s.OnlyMaps (s.useEntry e acc).1 := by
  have hr := State.OnlyMaps.read s (keysFrom e.leaf 8)
  grind [State.useEntry, State.OnlyMaps.trans, State.OnlyMaps.refl, State.OnlyMaps.putBack, State.OnlyMaps.tlbReplace,
    State.OnlyMaps.setTlb]

/-- A walk for an access of a core: the leaf that it gives is kept in the second level and in the bank (R93). -/
def State.walkFill (s : State) (core bank : Nat) (who : Who) (cls : AccClass) (acc : Acc) (va : Word) : State × Except Stop Leaf :=
  match s.walkFor who cls acc va with
  | (s, .error e) => (s, .error e)
  | (s, .ok l) =>
    let s := s.tlbFill (l.entry core tlb2 who.ctx va)
    (if bank == tlb2 then s else s.tlbFill (l.entry core bank who.ctx va), .ok l)

/-- A walk that fills changes, beside the TLBs, what the walk changes. -/
theorem State.walkFill_cases (s : State) (core bank : Nat) (who : Who) (cls : AccClass) (acc : Acc) (va : Word) :
    ∃ l n, (s.walkFill core bank who cls acc va).1 = { (s.walkFor who cls acc va).1 with tlb := l, fresh := n } := by
  unfold State.walkFill
  split
  · rename_i t e h
    rw [h]
    exact ⟨t.tlb, t.fresh, rfl⟩
  · rename_i t l h
    rw [h]
    obtain ⟨l₁, n₁, h₁⟩ := t.tlbFill_cases (l.entry core tlb2 who.ctx va)
    obtain ⟨l₂, n₂, h₂⟩ := (t.tlbFill (l.entry core tlb2 who.ctx va)).tlbFill_cases (l.entry core bank who.ctx va)
    dsimp only
    split
    · exact ⟨l₁, n₁, h₁⟩
    · rw [h₂, h₁]
      exact ⟨l₂, n₂, rfl⟩

/-- The leaf for an access of a core (R93): a walk where no entry maps the address or the entry is out of date; else
the state in which the entry was used, with the bank perhaps filled. -/
theorem State.leafFor_cases (s : State) (core bank : Nat) (who : Who) (cls : AccClass) (acc : Acc) (va : Word) :
    s.leafFor core bank who cls acc va = s.walkFill core bank who cls acc va
    ∨ (s.leafFor core bank who cls acc va).1 = s
    ∨ ∃ e, (s.tlbFind core bank who.ctx va = some e ∨ s.tlbFind core tlb2 who.ctx va = some e)
      ∧ (((s.useEntry e acc).2 = .ok none
            ∧ s.leafFor core bank who cls acc va = (s.useEntry e acc).1.walkFill core bank who cls acc va)
        ∨ ∃ l n, (s.leafFor core bank who cls acc va).1 = { (s.useEntry e acc).1 with tlb := l, fresh := n }) := by
  have hfound : ∀ e, (match s.tlbFind core bank who.ctx va with
      | some e => some e
      | none => s.tlbFind core tlb2 who.ctx va) = some e →
      s.tlbFind core bank who.ctx va = some e ∨ s.tlbFind core tlb2 who.ctx va = some e := by
    grind
  unfold State.leafFor
  dsimp only
  split
  · exact .inl rfl
  · rename_i e he
    replace he := hfound e he
    split
    · exact .inr (.inl rfl)
    · refine .inr (.inr ⟨e, he, ?_⟩)
      split
      · rename_i t x hu
        rw [hu]
        exact .inr ⟨t.tlb, t.fresh, rfl⟩
      · rename_i t hu
        rw [hu]
        exact .inl ⟨rfl, rfl⟩
      · rename_i t l hu
        rw [hu]
        obtain ⟨l₁, n₁, h₁⟩ := t.tlbFill_cases (l.entry core bank who.ctx va)
        refine .inr ?_
        generalize hv : (if e.bank == bank then t else t.tlbFill (l.entry core bank who.ctx va)) = v
        have hc : ∃ l n, v = { t with tlb := l, fresh := n } := by
          rw [← hv]
          split
          · exact ⟨t.tlb, t.fresh, rfl⟩
          · exact ⟨l₁, n₁, h₁⟩
        split
        · exact hc
        · exact hc

theorem State.OnlyMaps.setTlbs (h : s.OnlyMaps t) (l : List TlbEntry) (n : Nat) : s.OnlyMaps { t with tlb := l, fresh := n } :=
  h.trans (.of_eq rfl)

theorem State.OnlyMaps.walkFill (s : State) (core bank : Nat) (who : Who) (cls : AccClass) (acc : Acc) (va : Word) :
    s.OnlyMaps (s.walkFill core bank who cls acc va).1 := by
  obtain ⟨l, n, h⟩ := s.walkFill_cases core bank who cls acc va
  rw [h]
  exact (State.OnlyMaps.walkFor s who cls acc va).setTlbs l n

theorem State.OnlyMaps.leafFor (s : State) (core bank : Nat) (who : Who) (cls : AccClass) (acc : Acc) (va : Word) :
    s.OnlyMaps (s.leafFor core bank who cls acc va).1 := by
  obtain h | h | ⟨e, -, ⟨-, h⟩ | ⟨l, n, h⟩⟩ := s.leafFor_cases core bank who cls acc va
  · rw [h]
    exact .walkFill ..
  · rw [h]
    exact .refl s
  · rw [h]
    exact (State.OnlyMaps.useEntry s e acc).trans (.walkFill ..)
  · rw [h]
    exact (State.OnlyMaps.useEntry s e acc).setTlbs l n

/-- The state that a translation answers is that of the leaf which it looks for, or the one that it began in (R80). -/
theorem State.xlate_fst (s : State) (bank : Nat) (who : Who) (cls : AccClass) (acc : Acc) (va : Word) :
    (s.xlate bank who cls acc va).1 = s
    ∨ (∃ core, who.core = some core ∧ (s.xlate bank who cls acc va).1 = (s.leafFor core bank who cls acc va).1)
    ∨ (who.core = none ∧ (s.xlate bank who cls acc va).1 = (s.walkFor who cls acc va).1) := by
  have fst_match (r : State × Except Stop Leaf) : (match (motive := State × Except Stop Leaf → State × Except Stop Place) r with
      | (s, .error e) => (s, .error e)
      | (s, .ok l) => (s, leafPlace who s.dev l.pte (l.pa va) va)).1 = r.1 := by
    obtain ⟨t, e | l⟩ := r <;> rfl
  unfold State.xlate
  split
  · exact .inl rfl
  · cases hc : who.core with
    | some core => exact .inr (.inl ⟨core, rfl, fst_match _⟩)
    | none => exact .inr (.inr ⟨rfl, fst_match _⟩)

/-- A translation changes only what `withMaps` names (R88 to R93). -/
theorem State.OnlyMaps.xlate (s : State) (bank : Nat) (who : Who) (cls : AccClass) (acc : Acc) (va : Word) :
    s.OnlyMaps (s.xlate bank who cls acc va).1 := by
  obtain h | ⟨core, -, h⟩ | ⟨-, h⟩ := s.xlate_fst bank who cls acc va
  · rw [h]
    exact .refl s
  · rw [h]
    exact .leafFor ..
  · rw [h]
    exact .walkFor ..

/-! ## A walk reads the same wherever the same words can be read -/

/-- A word that a read cannot give: poisoned, or with an uncorrectable error present (R440). -/
def State.spoilt (s : State) (w : Nat) : Bool :=
  s.poison.contains w || (s.latent.find? (·.word == w)).any (·.bit.isNone)

/-- A key that a read cannot reach: its word is spoilt, or lies in a retired range (R440, R443). -/
def State.unreadable (s : State) (a : Nat) : Bool := s.spoilt (wordOf a) || s.retired.any (·.holds a)

/-- Two states whose reads answer alike. -/
structure State.ReadsAlike (s t : State) : Prop where
  mem : t.mem = s.mem
  ctxtb : t.host.ctxtb = s.host.ctxtb
  spoilt : ∀ w, t.spoilt w = s.spoilt w
  retired : t.retired = s.retired

theorem State.ReadsAlike.refl (s : State) : s.ReadsAlike s := ⟨rfl, rfl, fun _ => rfl, rfl⟩

theorem State.ReadsAlike.symm (h : s.ReadsAlike t) : t.ReadsAlike s :=
  ⟨h.mem.symm, h.ctxtb.symm, fun w => (h.spoilt w).symm, h.retired.symm⟩

theorem State.ReadsAlike.trans (h : s.ReadsAlike t) (k : t.ReadsAlike u) : s.ReadsAlike u :=
  ⟨k.mem.trans h.mem, k.ctxtb.trans h.ctxtb, fun w => (k.spoilt w).trans (h.spoilt w), k.retired.trans h.retired⟩

/-- The word of a word is itself. -/
theorem wordOf_wordOf (a : Nat) : wordOf (wordOf a) = wordOf a := by
  unfold wordOf vaultBase
  split <;> split <;> omega

/-- The registers and counters of errors are not what a read asks. -/
theorem State.spoilt_congr (hp : t.poison = s.poison) (hl : t.latent = s.latent) (w : Nat) : t.spoilt w = s.spoilt w := by
  simp [State.spoilt, hp, hl]

/-- Meeting an error poisons the words that were spoilt already, and spoils no other (R436). -/
theorem State.spoilt_meet (s : State) (a w : Nat) : (s.meet a).spoilt w = s.spoilt w := by
  have hself : ∀ (s : State) (h : HostRegs) (n : Nat) (m : List Nat) (b : List BondCount),
      ({ s with host := h, seq := n, msix := m, bondCounts := b } : State).spoilt w = s.spoilt w := fun _ _ _ _ _ => rfl
  have hcount : ∀ (s : State) i, (s.count i).spoilt w = s.spoilt w := fun s i => hself s _ _ _ _
  have hlog : ∀ (s : State) v b, (s.arrayLog v b).spoilt w = s.spoilt w := by
    intro s v b
    unfold State.arrayLog
    split <;> exact hself s _ _ _ _
  unfold State.meet
  dsimp only
  split
  · rfl
  · rename_i l hl
    split
    · rename_i b hb
      split
      · exact (hself _ _ _ _ _).trans ((hcount _ _).trans (hlog ..))
      · exact (hcount _ _).trans (hlog ..)
    · rename_i hb
      have hcheck : ∀ (s : State) c i, (s.machineCheck c i).spoilt w = s.spoilt w := by
        intro s c i
        unfold State.machineCheck
        dsimp only
        split
        · exact (hcount _ _).trans (hself s _ _ _ _)
        · exact hself s _ _ _ _
      rw [hcheck, hcount, hlog]
      by_cases hw : w = wordOf a
      · subst hw
        simp [State.spoilt, hl, hb]
      · have hf : (s.latent.filter (·.word != wordOf a)).find? (·.word == w) = s.latent.find? (·.word == w) := by
          rw [List.find?_filter]
          congr 1
          funext x
          by_cases hx : x.word = w <;> simp [hx, hw]
        simp [State.spoilt, hf, hw]

/-- Meeting errors leaves what a walk asks as it was. -/
theorem State.ReadsAlike.meet (s : State) (a : Nat) : s.ReadsAlike (s.meet a) where
  mem := s.mem_meet a
  ctxtb := by
    unfold State.meet
    grind [State.count, State.arrayLog, State.countBond, State.machineCheck, State.stamp]
  spoilt := s.spoilt_meet a
  retired := by
    have h := congrArg State.retired (s.withErrors_meet s a)
    exact h

/-- A word that has met its error is spoilt no more than poisoned. -/
def State.Met (s : State) (w : Nat) : Prop := (s.latent.find? (·.word == w)).any (·.bit.isNone) = false

theorem State.Met.spoilt {w : Nat} (h : s.Met w) : s.spoilt w = s.poison.contains w := by
  rw [State.spoilt, show Option.any _ _ = false from h, Bool.or_false]

/-- The errors present after one is met: an uncorrectable one has become poison (R436). -/
theorem State.latent_meet (s : State) (a : Nat) :
    (s.meet a).latent = if (s.latent.find? (·.word == wordOf a)).any (·.bit.isNone) then s.latent.filter (·.word != wordOf a)
      else s.latent := by
  unfold State.meet
  grind [State.count, State.arrayLog, State.countBond, State.machineCheck, State.stamp]

theorem State.met_meet_self (s : State) (a : Nat) : (s.meet a).Met (wordOf a) := by
  unfold State.Met
  rw [State.latent_meet]
  split
  · rw [List.find?_eq_none.mpr (by simp)]
    rfl
  · simp_all

theorem State.Met.meet {w : Nat} (h : s.Met w) (a : Nat) : (s.meet a).Met w := by
  by_cases hw : wordOf a = w
  · exact hw ▸ s.met_meet_self a
  · unfold State.Met at h ⊢
    rw [State.latent_meet]
    split
    · have hf : (s.latent.filter (·.word != wordOf a)).find? (·.word == w) = s.latent.find? (·.word == w) := by
        rw [List.find?_filter]
        congr 1
        funext x
        by_cases hx : x.word = w <;> simp [hx, Ne.symm hw]
      rwa [hf]
    · exact h

theorem State.ReadsAlike.foldl_meet (l : List Nat) (s : State) : s.ReadsAlike (l.foldl State.meet s) := by
  induction l generalizing s with
  | nil => exact .refl s
  | cons a l ih => exact (State.ReadsAlike.meet s a).trans (ih _)

theorem State.Met.foldl_meet {w : Nat} (l : List Nat) (h : s.Met w) : (l.foldl State.meet s).Met w := by
  induction l generalizing s with
  | nil => exact h
  | cons a l ih => exact ih (h.meet a)

theorem State.met_foldl_meet {w : Nat} {l : List Nat} (s : State) (hw : wordOf w = w) (h : w ∈ l) : (l.foldl State.meet s).Met w := by
  induction l generalizing s with
  | nil => simp at h
  | cons a l ih =>
    rcases List.mem_cons.mp h with rfl | h
    · exact State.Met.foldl_meet l (by simpa only [hw] using s.met_meet_self w)
    · exact ih _ h

theorem State.ReadsAlike.meets (s : State) (keys : List Nat) : s.ReadsAlike (s.meets keys) := by
  unfold State.meets
  split
  · exact .refl s
  · exact .foldl_meet _ s

/-- Once a read has met the errors of its words, each of them is spoilt only where it is poisoned. -/
theorem State.met_meets (s : State) {keys : List Nat} {k : Nat} (h : k ∈ keys) : (s.meets keys).Met (wordOf k) := by
  unfold State.meets
  split
  · rename_i he
    simp [State.Met, List.isEmpty_iff.mp he]
  · exact State.met_foldl_meet s (wordOf_wordOf k) (List.mem_eraseDups.mpr (List.mem_map_of_mem h))

theorem State.ReadsAlike.unreadable (h : s.ReadsAlike t) (k : Nat) : t.unreadable k = s.unreadable k := by
  simp [State.unreadable, h.spoilt, h.retired]

/-- What a read answers depends on memory and on which words can be read (R440). -/
theorem State.read_snd (s : State) (keys : List Nat) :
    (s.read keys).2 = if keys.any s.unreadable then none else some (keys.map (Memory.get s.mem)) := by
  have hk : ∀ k ∈ keys, (s.meets keys).poisoned k = s.unreadable k := by
    intro k hk
    rw [← (State.ReadsAlike.meets s keys).unreadable k, State.unreadable, (s.met_meets hk).spoilt]
    rfl
  have ha : keys.any (s.meets keys).poisoned = keys.any s.unreadable := by
    rw [Bool.eq_iff_iff, List.any_eq_true, List.any_eq_true]
    exact exists_congr fun k => and_congr_right fun h => by rw [hk k h]
  simp only [State.read, ha, State.mem_meets]

theorem State.ReadsAlike.read (s : State) (keys : List Nat) : s.ReadsAlike (s.read keys).1 := .meets s keys

theorem State.ReadsAlike.read_snd (h : s.ReadsAlike t) (keys : List Nat) : (t.read keys).2 = (s.read keys).2 := by
  have hu : t.unreadable = s.unreadable := funext h.unreadable
  rw [State.read_snd, State.read_snd, hu, h.mem]

/-- One step of a walk: what it answers depends on what its read answers. -/
theorem State.walkFrom_succ_snd (va : Word) (fuel lvl tbl : Nat) (s : State) :
    let key := tbl + 8 * (va.toNat / 2 ^ Pte.shift lvl % 4096)
    (State.walkFrom va (fuel + 1) lvl tbl s).2 =
      if !inGlobal key then .error (.noPlace key)
      else match (s.read (keysFrom key 8)).2 with
        | none => .error .poison
        | some b =>
          let pte := BitVec.ofNat 64 (leNat b)
          if !Pte.v pte then .error (.trap .pageNp va)
          else if Pte.malformed pte lvl then .error (.trap .pageKind va)
          else if !Pte.leaf pte then (State.walkFrom va fuel (lvl + 1) (Pte.frame pte) (s.read (keysFrom key 8)).1).2
          else .ok ⟨key, pte, Pte.shift lvl⟩ := by
  intro key
  rw [State.walkFrom]
  grind

/-- Where reads answer alike, walks from a table do. -/
theorem State.ReadsAlike.walkFrom_snd (va : Word) (fuel lvl tbl : Nat) (h : s.ReadsAlike t) :
    (State.walkFrom va fuel lvl tbl t).2 = (State.walkFrom va fuel lvl tbl s).2 := by
  induction fuel generalizing lvl tbl s t with
  | zero => rfl
  | succ fuel ih =>
    have hnext : ∀ keys, (s.read keys).1.ReadsAlike (t.read keys).1 := fun keys =>
      ((State.ReadsAlike.read s keys).symm.trans h).trans (.read t keys)
    rw [State.walkFrom_succ_snd, State.walkFrom_succ_snd]
    simp only [h.read_snd, ih _ _ (hnext _)]

/-- Where reads answer alike, walks of a context do (R88). -/
theorem State.ReadsAlike.walk_snd (h : s.ReadsAlike t) (ctx : Nat) (va : Word) : (t.walk ctx va).2 = (s.walk ctx va).2 := by
  have hk : t.descKey ctx = s.descKey ctx := by rw [State.descKey, State.descKey, h.ctxtb]
  have hd : (t.descriptor ctx).2 = (s.descriptor ctx).2 := by
    have hr := h.read_snd (keysFrom (s.descKey ctx) 16)
    simp only [State.descriptor, hk]
    grind
  have hnext : (s.descriptor ctx).1.ReadsAlike (t.descriptor ctx).1 := by
    have e : ∀ u : State, (u.descriptor ctx).1 = (u.read (keysFrom (u.descKey ctx) 16)).1 := by grind [State.descriptor]
    rw [e, e]
    exact ((State.ReadsAlike.read s _).symm.trans h).trans (.read t _)
  have hw : ∀ d, (State.walkFrom va 3 0 (rootIn d) (t.descriptor ctx).1).2 = (State.walkFrom va 3 0 (rootIn d) (s.descriptor ctx).1).2 :=
    fun d => hnext.walkFrom_snd va 3 0 (rootIn d)
  unfold State.walk
  grind

/-- A leaf that a walk reaches holds what memory holds at its key. -/
theorem State.walkFrom_pte {fuel lvl tbl : Nat} {l : Leaf} (h : (State.walkFrom va fuel lvl tbl s).2 = .ok l) :
    l.pte = BitVec.ofNat 64 (s.num l.key 8) := by
  induction fuel generalizing lvl tbl s with
  | zero => simp [State.walkFrom] at h
  | succ fuel ih =>
    rw [State.walkFrom_succ_snd] at h
    rw [State.read_snd] at h
    grind [State.num, State.bytes, State.mem_read]

theorem State.walk_pte {ctx : Nat} {l : Leaf} (h : (s.walk ctx va).2 = .ok l) : l.pte = BitVec.ofNat 64 (s.num l.key 8) := by
  have hm := s.mem_descriptor ctx
  unfold State.walk at h
  split at h
  · cases h
  · rename_i t d hd
    rw [State.walkFrom_pte h, State.num, State.num, State.bytes, State.bytes, ← hm, hd]

/-! ## The one leaf that a translation writes -/

/-- From one state to the other the bits of `m` have been set in the 8 bytes at a key, and no other byte differs. -/
def State.Marked (s u : State) (key : Nat) (m : Word) : Prop :=
  s.MemoryOutside u (keysFrom key 8) ∧ BitVec.ofNat 64 (u.num key 8) = BitVec.ofNat 64 (s.num key 8) ||| m

/-- An entry of the bank or of the second level that maps an address for a core and context. -/
def State.Maps (s : State) (bank : Nat) (who : Who) (va : Word) (e : TlbEntry) : Prop :=
  e ∈ s.tlb ∧ who.core = some e.core ∧ (e.bank = bank ∨ e.bank = tlb2) ∧ e.ctx = who.ctx ∧ va.toNat / 2 ^ e.shift = e.vpn

/-- Memory as a walk for an access may leave it: as it was, or with A and D marked in the leaf of the walk (R90). -/
def State.MarksWalk (s u : State) (ctx : Nat) (acc : Acc) (va : Word) : Prop :=
  u.mem = s.mem
    ∨ ∃ l : Leaf, (s.walk ctx va).2 = .ok l ∧ s.Marked u l.key (if acc = .write ∨ acc = .rmw then 0x60 else 0x20)

/-- Memory as a translation of an address may leave it: as it was, or with A and D marked in the leaf of its walk, or
with D marked in the leaf of an entry that maps it (R90). -/
def State.MarksLeaf (s u : State) (bank : Nat) (who : Who) (acc : Acc) (va : Word) : Prop :=
  u.mem = s.mem ∨ ∃ key m, s.Marked u key m
    ∧ ((∃ l : Leaf, (s.walk who.ctx va).2 = .ok l ∧ l.key = key ∧ m = if acc = .write ∨ acc = .rmw then 0x60 else 0x20)
      ∨ ∃ e, s.Maps bank who va e ∧ e.leaf = key ∧ (acc = .write ∨ acc = .rmw) ∧ m = 0x40)

/-- Writing back a number marks the bits that it adds, and no byte elsewhere. -/
theorem State.marked_putBack {key : Nat} {m : Word} (hwf : Memory.wf s.mem = true) (ht : t.mem = s.mem)
    (hu : u.mem = (t.putBack key 8 (BitVec.ofNat 64 (s.num key 8) ||| m).toNat).mem) : s.Marked u key m := by
  have hmem : u.mem = (s.putNum key 8 (BitVec.ofNat 64 (s.num key 8) ||| m).toNat).mem := by
    rw [hu, State.putNum, ← ht]
    rfl
  constructor
  · intro a ha
    rw [hmem]
    refine Memory.get_putAll_other _ _ fun p hp hpa => ha ?_
    rw [← hpa]
    exact (List.of_mem_zip hp).1
  · have hn : u.num key 8 = (s.putNum key 8 (BitVec.ofNat 64 (s.num key 8) ||| m).toNat).num key 8 := by
      simp only [State.num, State.bytes, hmem]
    rw [hn, State.num_putNum _ _ _ hwf]
    apply BitVec.eq_of_toNat_eq
    rw [BitVec.toNat_ofNat]
    have := (BitVec.ofNat 64 (s.num key 8) ||| m).isLt
    omega

/-- A walk for an access marks the leaf that it reaches, or writes nothing (R90). -/
theorem State.walkFor_mem (hwf : Memory.wf s.mem = true) (who : Who) (cls : AccClass) (acc : Acc) (va : Word) :
    s.MarksWalk (s.walkFor who cls acc va).1 who.ctx acc va := by
  have hmem := s.mem_walk who.ctx va
  unfold State.walkFor
  split
  · rename_i t e hw
    rw [hw] at hmem
    exact .inl hmem
  · rename_i t l hw
    rw [hw] at hmem
    have hl : (s.walk who.ctx va).2 = .ok l := by rw [hw]
    split
    · exact .inl hmem
    · simp only [State.setAD]
      split
      · exact .inl hmem
      · refine .inr ⟨l, hl, State.marked_putBack hwf hmem ?_⟩
        rw [← State.walk_pte hl, Pte.touched]
        simp only [Bool.or_eq_true, beq_iff_eq]

/-- The use of an entry marks D in its leaf, or writes nothing (R90). -/
theorem State.useEntry_mem (hwf : Memory.wf s.mem = true) (e : TlbEntry) (acc : Acc) :
    (s.useEntry e acc).1.mem = s.mem
    ∨ ((acc = .write ∨ acc = .rmw) ∧ s.Marked (s.useEntry e acc).1 e.leaf 0x40) := by
  unfold State.useEntry
  split
  · rename_i hacc
    have hw : acc = .write ∨ acc = .rmw := by simp_all
    split
    · rename_i t hr
      exact .inl (congrArg (·.1.mem) hr ▸ State.mem_read s _)
    · rename_i t b hr
      obtain ⟨hmem, rfl⟩ := State.read_some hr
      dsimp only
      split
      · exact .inr ⟨hw, State.marked_putBack hwf hmem rfl⟩
      · exact .inl hmem
  · exact .inl rfl

/-- An entry that is out of date has been dropped, and reads answer as before. -/
theorem State.useEntry_none {e : TlbEntry} (h : (s.useEntry e acc).2 = .ok none) : s.ReadsAlike (s.useEntry e acc).1 := by
  have hr := State.ReadsAlike.read s (keysFrom e.leaf 8)
  unfold State.useEntry at h ⊢
  split at h
  · split at h
    · cases h
    · rename_i t b e'
      rw [e'] at hr
      dsimp only at h ⊢
      split at h
      · cases h
      · simp_all
        exact ⟨hr.mem, hr.ctxtb, hr.spoilt, hr.retired⟩
  · cases h

/-- What `tlbFind` gives maps the address. -/
theorem State.tlbFind_maps {core bank b : Nat} {e : TlbEntry} (h : s.tlbFind core b who.ctx va = some e)
    (hc : who.core = some core) (hb : b = bank ∨ b = tlb2) : s.Maps bank who va e := by
  have hm := List.find?_some h
  simp only [TlbEntry.maps, Bool.and_eq_true, beq_iff_eq] at hm
  obtain ⟨⟨⟨hcore, hbank⟩, hctx⟩, hvpn⟩ := hm
  exact ⟨List.mem_of_find?_eq_some h, by rw [hc, hcore], by rwa [hbank], hctx, hvpn⟩

/-- The TLBs are not memory. -/
theorem State.Marked.congr {key : Nat} {m : Word} (h : s.Marked u key m) (ht : t.mem = s.mem) (hv : v.mem = u.mem) : t.Marked v key m := by
  simpa only [State.Marked, State.MemoryOutside, State.num, State.bytes, hv, ht] using h

/-- Where reads answer alike, a walk marks the same leaf. -/
theorem State.MarksWalk.congr {ctx : Nat} (h : s.MarksWalk u ctx acc va) (ht : t.ReadsAlike s) (hv : v.mem = u.mem) :
    t.MarksWalk v ctx acc va := by
  refine h.imp (fun hm => hv.trans (hm.trans ht.mem)) ?_
  rintro ⟨l, hl, hm⟩
  exact ⟨l, (ht.walk_snd ctx va) ▸ hl, hm.congr ht.mem.symm hv⟩

theorem State.MarksWalk.marksLeaf (h : s.MarksWalk u who.ctx acc va) (bank : Nat) : s.MarksLeaf u bank who acc va :=
  h.imp_right fun ⟨l, hl, hm⟩ => ⟨l.key, _, hm, .inl ⟨l, hl, rfl, rfl⟩⟩

/-- The walk of an access that fills the TLBs marks as the walk does. -/
theorem State.walkFill_mem (hwf : Memory.wf s.mem = true) (core bank : Nat) (who : Who) (cls : AccClass) (acc : Acc) (va : Word) :
    s.MarksWalk (s.walkFill core bank who cls acc va).1 who.ctx acc va := by
  obtain ⟨l, n, h⟩ := s.walkFill_cases core bank who cls acc va
  rw [h]
  exact (State.walkFor_mem hwf who cls acc va).congr (.refl s) rfl

/-- The leaf for an access of a core: one leaf at most is marked (R90, R93). -/
theorem State.leafFor_mem (hwf : Memory.wf s.mem = true) {core : Nat} (hc : who.core = some core) (bank : Nat) (cls : AccClass) (acc : Acc)
    (va : Word) : s.MarksLeaf (s.leafFor core bank who cls acc va).1 bank who acc va := by
  obtain h | h | ⟨e, he, hu⟩ := s.leafFor_cases core bank who cls acc va
  · rw [h]
    exact (State.walkFill_mem hwf core bank who cls acc va).marksLeaf bank
  · exact .inl (congrArg State.mem h)
  · obtain ⟨hnone, h⟩ | ⟨l, n, h⟩ := hu
    · have halike := State.useEntry_none hnone
      rw [h]
      exact ((State.walkFill_mem (halike.mem.symm ▸ hwf) core bank who cls acc va).congr halike rfl).marksLeaf bank
    · have hmaps : s.Maps bank who va e := he.elim (State.tlbFind_maps · hc (.inl rfl)) (State.tlbFind_maps · hc (.inr rfl))
      rw [h]
      refine (State.useEntry_mem hwf e acc).imp_right fun ⟨hacc, hm⟩ => ?_
      exact ⟨e.leaf, 0x40, hm.congr rfl rfl, .inr ⟨e, hmaps, rfl, hacc, rfl⟩⟩

/-- A translation marks one leaf at most (R88, R90, R93). -/
theorem State.xlate_mem (hwf : Memory.wf s.mem = true) (bank : Nat) (who : Who) (cls : AccClass) (acc : Acc) (va : Word) :
    s.MarksLeaf (s.xlate bank who cls acc va).1 bank who acc va := by
  obtain h | ⟨core, hc, h⟩ | ⟨-, h⟩ := s.xlate_fst bank who cls acc va
  · exact .inl (congrArg State.mem h)
  · rw [h]
    exact State.leafFor_mem hwf hc bank cls acc va
  · rw [h]
    exact (State.walkFor_mem hwf who cls acc va).marksLeaf bank

/-- Settles O32: a translation changes what `withMaps` names, and of memory at most one leaf, by the inversion of its
walk and of the use of an entry. -/
theorem translationEffects : Obligations.TranslationEffects := by
  unfold Obligations.TranslationEffects
  intro s u bank who cls acc va r h
  obtain rfl : (s.xlate bank who cls acc va).1 = u := congrArg Prod.fst h
  have hmaps := State.OnlyMaps.xlate s bank who cls acc va
  refine ⟨hmaps.frame, hmaps.clean, fun hwf => ?_⟩
  refine (State.xlate_mem hwf bank who cls acc va).imp_right ?_
  rintro ⟨key, m, ⟨hout, hnum⟩, hleaf⟩
  refine ⟨key, m, hout, hnum, hleaf.imp_right ?_⟩
  rintro ⟨e, ⟨hmem, hcore, hbank, hctx, hvpn⟩, hkey, hacc, hm⟩
  exact ⟨e, hmem, hcore, hbank, hctx, hvpn, hkey, hacc, hm⟩

end Sys2Proof.Machine

namespace Sys2Proof.Machine
/-! # Atomics, accesses, span packets and old values that arrive -/

variable {s t u v : State}

/-! ## Atomics and accesses of other devices (R84, R124, R125) -/

theorem exec_homeAtomic (r : RemoteAtomic) (s : State) : exec (.homeAtomic r) s = .next (s.serveRemote (.atomic r)) := rfl

theorem exec_remoteDomainAccess (r : RemoteAccess) (s : State) :
    exec (.remoteDomainAccess r) s = .next (s.serveRemote (.access r)) := rfl

/-- The atomic on a cell free of poison: the old value is answered, and the new one written where it writes (R125, R151). -/
theorem State.atomicAt_ok {r : RemoteAtomic} {l : List Nat} {b : List Byte} (h : s.read l = (v, some b)) :
    (s.atomicAt r l).threads = v.threads ∧ (s.atomicAt r l).outbox = v.outbox ++ [.answer r.addr (some b)]
      ∧ (s.atomicAt r l).mem = if r.op = .ldacq ∨ (r.op = .cas ∧ leNat b ≠ r.expect.toNat % 2 ^ (8 * r.width)) then v.mem
          else Memory.putAll v.mem (l.zip (leBytes r.width
            (atomApply r.op (8 * r.width) (leNat b) (r.operand.toNat % 2 ^ (8 * r.width)) (r.expect.toNat % 2 ^ (8 * r.width))))) := by
  rw [State.atomicAt, h]
  simp only [Bool.or_eq_true, Bool.and_eq_true, beq_iff_eq, bne_iff_ne]
  split <;> exact ⟨rfl, rfl, rfl⟩

theorem State.atomicAt_poison {r : RemoteAtomic} {l : List Nat} (h : s.read l = (v, none)) :
    s.atomicAt r l = v.answered r.addr none := by
  rw [State.atomicAt, h]

section
variable {r : RemoteAtomic} {l ks : List Nat}

/-- An atomic on no legal cell is refused (R84). -/
theorem State.serveRemote_atomic_refused (h : remoteCell r = none) : s.serveRemote (.atomic r) = s := by
  simp [State.serveRemote, h]

theorem State.serveRemote_atomic_held (h : remoteCell r = some l) (hr : s.redirectAll true l = none) :
    s.serveRemote (.atomic r) = { s with heldRemote := s.heldRemote ++ [.atomic r] } := by
  simp [State.serveRemote, h, hr]

theorem State.serveRemote_atomic (h : remoteCell r = some l) (hr : s.redirectAll true l = some ks) :
    s.serveRemote (.atomic r) = s.atomicAt r ks := by
  simp [State.serveRemote, h, hr]

end

section
variable {r : RemoteAccess} {l ks : List Nat}

/-- An access outside GLOBAL and the visible vaults is refused (R84). -/
theorem State.serveRemote_access_refused (h : remoteKeys r.addr r.bytes = none) : s.serveRemote (.access r) = s := by
  simp [State.serveRemote, h]

theorem State.serveRemote_access_held (h : remoteKeys r.addr r.bytes = some l) (hr : s.redirectAll r.write l = none) :
    s.serveRemote (.access r) = { s with heldRemote := s.heldRemote ++ [.access r] } := by
  simp [State.serveRemote, h, hr]

theorem State.serveRemote_access (h : remoteKeys r.addr r.bytes = some l) (hr : s.redirectAll r.write l = some ks) :
    s.serveRemote (.access r)
      = if r.write then s.write (ks.zip (leBytes r.bytes r.data)) else (s.read ks).1.answered r.addr (s.read ks).2 := by
  simp [State.serveRemote, h, hr]

end

/-! ## Packets of cluster-span accesses (R113, R114, R117, R118) -/

/-- What a read of element groups answers: the bytes of memory at the keys of each element, or nothing where one is
poisoned (R120, R440). -/
theorem readAll_snd (g : Nat) (l : List (Nat × List Nat)) (s : State) :
    (readAll g l s).2 = if l.any (fun x => x.2.any (readAll g l s).1.poisoned) then none
      else some (l.map fun x => (x.1, x.2.map (Memory.get s.mem))) := by
  have h : (readAll g l s).1.mem = s.mem := mem_readAll g l s
  rw [← h]
  rfl

/-- A list of answers has one for each question. -/
theorem length_of_mapM {α β : Type} {f : α → Option β} {l : List α} {r : List β} (h : l.mapM f = some r) : r.length = l.length := by
  induction l generalizing r with
  | nil => cases h; rfl
  | cons a l ih =>
    rw [List.mapM_cons] at h
    obtain ⟨b, -, h⟩ := Option.bind_eq_some_iff.mp h
    obtain ⟨q, hq, h⟩ := Option.bind_eq_some_iff.mp h
    cases h
    simp [ih hq]

/-- The keys of a packet are those of its elements, one list for each. -/
theorem State.packetKeys_length {x : SpanPacket} {ks : List (List Nat)} (h : s.packetKeys x = some ks) : ks.length = x.elems.length :=
  length_of_mapM h

theorem SpanPacket.map_snd_keyed {x : SpanPacket} {ks : List (List Nat)} (h : ks.length = x.elems.length) :
    (x.keyed ks).map (·.2) = ks := by
  rw [SpanPacket.keyed, List.map_snd_zip (by simp [h])]

section
variable {n : Nat} {x : SpanPacket} {ks : List (List Nat)}

/-- A gather request that meets poison kills the context that asked (R117, R440). -/
theorem execClusterSpanPacket_poison (hx : s.packets.find? (fun x => x.id == n && !x.response && !s.behind x) = some x)
    (hk : s.packetKeys x = some ks) (hg : x.scatter = false)
    (hp : ∃ k ∈ ks, k.any (readAll (s.spanGroup x) (x.keyed ks) s).1.poisoned = true) :
    execClusterSpanPacket n s = .next ((readAll (s.spanGroup x) (x.keyed ks) s).1.kill
      ((readAll (s.spanGroup x) (x.keyed ks) s).1.thr x.thr).lc.job.ctx Cause.poison.code x.thr) := by
  have hnone : (readAll (s.spanGroup x) (x.keyed ks) s).2 = none := by
    obtain ⟨k, hk', hp⟩ := hp
    rw [← SpanPacket.map_snd_keyed (State.packetKeys_length hk)] at hk'
    obtain ⟨y, hy, rfl⟩ := List.mem_map.mp hk'
    rw [readAll_snd, if_pos (List.any_eq_true.mpr ⟨y, hy, hp⟩)]
  rw [execClusterSpanPacket, hx]
  simp only [hk, hg]
  generalize readAll (s.spanGroup x) (x.keyed ks) s = r at hnone ⊢
  obtain ⟨v, d⟩ := r
  cases hnone
  rfl

/-- A gather request free of poison is answered with the bytes of its elements (R117). -/
theorem execClusterSpanPacket_gather (hx : s.packets.find? (fun x => x.id == n && !x.response && !s.behind x) = some x)
    (hk : s.packetKeys x = some ks) (hg : x.scatter = false) {d : List (Nat × List Byte)}
    (hr : readAll (s.spanGroup x) (x.keyed ks) s = (v, some d)) :
    d.map (·.2) = ks.map (fun k => k.map (Memory.get s.mem))
      ∧ execClusterSpanPacket n s = .next { v with packets := v.packets.map fun y =>
          if y.id == n then { x with response := true, data := ks.map fun k => k.map (Memory.get s.mem) } else y } := by
  have hd : d.map (·.2) = ks.map (fun k => k.map (Memory.get s.mem)) := by
    have h := readAll_snd (s.spanGroup x) (x.keyed ks) s
    rw [hr] at h
    split at h
    · cases h
    · rw [Option.some.inj h]
      nth_rw 2 [← SpanPacket.map_snd_keyed (State.packetKeys_length hk)]
      simp
  refine ⟨hd, ?_⟩
  rw [execClusterSpanPacket, hx]
  simp only [hk, hg, hr, hd]
  rfl

/-- The stores of a scatter packet, element by element, write all its bytes in order (R118). -/
theorem State.mem_foldl_poke (core : Nat) (l : List (List Nat × List Byte)) (s : State) :
    (l.foldl (fun (s : State) p => (s.poke (p.1.zip p.2)).dropLines core p.1) s).mem
      = Memory.putAll s.mem (l.flatMap fun p => p.1.zip p.2) := by
  induction l generalizing s with
  | nil => rfl
  | cons p l ih =>
    rw [List.foldl_cons, ih, List.flatMap_cons, Memory.putAll, Memory.putAll, List.foldl_append, State.mem_dropLines]
    rfl

/-- A scatter packet writes its elements and is gone (R118). -/
theorem State.applyScatter_mem (x : SpanPacket) (ks : List (List Nat)) (s : State) :
    (s.applyScatter x ks).mem = Memory.putAll s.mem ((ks.zip x.data).flatMap fun p => p.1.zip p.2) := by
  rw [← State.mem_foldl_poke (x.thr / 4)]
  exact mem_foldl State.mem_overwritten _ _

theorem State.applyScatter_packets {y : SpanPacket} (h : y ∈ (s.applyScatter x ks).packets) : y.id ≠ x.id := by
  have hf := (List.mem_filter.mp h).2
  simpa using hf

/-- A packet with one of its core to its owner ahead of it is behind (R113, R114). -/
theorem State.behind_of_ahead {y : SpanPacket} (hy : y ∈ s.packets) (hr : y.response = false) (hc : y.thr / 4 = x.thr / 4)
    (ho : y.owner = x.owner) (hid : y.id < x.id) (hp : (s.thr x.thr).lc.job.prio ≤ (s.thr y.thr).lc.job.prio) :
    s.behind x = true := by
  refine List.any_eq_true.mpr ⟨y, hy, ?_⟩
  simp [State.sentAhead, hr, hc, ho, hid, hp]

end

/-- A response leaves the packets, and its elements join those that its thread has received (R117). -/
theorem execGatherResponse_found {n : Nat} {x : SpanPacket} (h : s.packets.find? (fun x => x.id == n && x.response) = some x) :
    execGatherResponse n s = .next (({ s with packets := s.packets.filter (·.id != n) } : State).updSpan x.thr
      fun o => { o with vals := o.vals ++ (x.elems.map (·.1)).zip x.data, left := o.left - 1 }) := by
  unfold execGatherResponse
  split
  · simp_all
  · rename_i y hy
    cases h.symm.trans hy
    rfl

/-- The first old value on its way goes to its element (R172). -/
theorem execVamoswpOldValue_cons {n : Nat} {o : OldVal} {l : List OldVal} (h : (s.thr n).lc.oldVals = o :: l) :
    execVamoswpOldValue n s
      = .next (s.setThr n { s.thr n with lc := { (s.thr n).lc.setVal o.reg o.sew o.elem o.val with oldVals := l } }) := by
  unfold execVamoswpOldValue
  dsimp only
  split
  · simp_all
  · rename_i hy
    cases h.symm.trans hy
    rfl

/-- Settles O47: each arriving access by its own rule, from the reads and writes of the state that it names. -/
theorem arrivingAccesses : Obligations.ArrivingAccesses := by
  unfold Obligations.ArrivingAccesses
  refine ⟨fun s r => ⟨fun h => ?_, fun l h => ⟨fun hr => ?_, fun ks v hr => ⟨fun hp => ?_, fun b hb => ?_⟩⟩⟩,
    fun s r => ⟨fun h => ?_, fun l h => ⟨fun hr => ?_, fun ks hr => ⟨fun hw => ?_, fun hw v b hv => ?_⟩⟩⟩,
    fun s n x ks hx hk => ⟨fun hg => ⟨fun hp => ?_, fun v d hr => ?_⟩, fun hsc => ?_⟩,
    fun s x y hx hy hxr hyr huniq hcore howner hid hprio => ?_, fun s n x hx => ?_, fun s n o l ho => ?_⟩
  · rw [exec_homeAtomic, State.serveRemote_atomic_refused h]
  · rw [exec_homeAtomic, State.serveRemote_atomic_held h hr]
  · rw [exec_homeAtomic, State.serveRemote_atomic h hr, State.atomicAt_poison hp]
    rfl
  · obtain ⟨hthreads, hout, hmem⟩ := State.atomicAt_ok (r := r) hb
    refine ⟨s.atomicAt r ks, by rw [exec_homeAtomic, State.serveRemote_atomic h hr], hthreads, hout, ?_⟩
    rw [hmem]
    split
    · rfl
    · rename_i hquiet
      dsimp only
      cases hop : r.op <;> simp_all [atomApply]
  · rw [exec_remoteDomainAccess, State.serveRemote_access_refused h]
  · rw [exec_remoteDomainAccess, State.serveRemote_access_held h hr]
  · rw [exec_remoteDomainAccess, State.serveRemote_access h hr, if_pos hw]
    exact ⟨_, rfl, State.threads_write .., State.mem_write ..⟩
  · rw [exec_remoteDomainAccess, State.serveRemote_access h hr, hw, hv]
    exact ⟨(congrArg (·.1.mem) hv).symm.trans (State.mem_read s ks), rfl⟩
  · exact ⟨_, execClusterSpanPacket_poison hx hk hg hp, mem_readAll .., (State.SameThreads.readAll ..).1⟩
  · obtain ⟨hd, hexec⟩ := execClusterSpanPacket_gather hx hk hg hr
    exact ⟨hd, (congrArg (·.1.mem) hr).symm.trans (mem_readAll ..), hexec⟩
  · refine ⟨s.applyScatter x ks, ?_, fun y hy => ?_, s.applyScatter_mem x ks⟩
    · show execClusterSpanPacket n s = _
      rw [execClusterSpanPacket, hx]
      simp only [hk, hsc]
      rfl
    · have hid : x.id = n := by
        have := List.find?_some hx
        simp_all
      exact hid ▸ State.applyScatter_packets hy
  · have hnone : s.packets.find? (fun z => z.id == x.id && !z.response && !s.behind z) = none := by
      refine List.find?_eq_none.mpr fun z hz => ?_
      by_cases hzx : z.id = x.id
      · simp [huniq z hz hzx, State.behind_of_ahead hy hyr hcore howner hid hprio]
      · simp [hzx]
    show execClusterSpanPacket x.id s = _
    rw [execClusterSpanPacket, hnone]
  · refine ⟨_, execGatherResponse_found hx, rfl, rfl, ?_⟩
    simp only [State.updSpan, beq_iff_eq]
  · refine ⟨_, execVamoswpOldValue_cons ho, ?_, rfl, fun m hm => State.thr_setThr_other _ _ hm⟩
    rw [State.thr_setThr_same]

end Sys2Proof.Machine

namespace Sys2Proof.Machine
/-! # The swap engine -/

variable {s t u v : State}

/-! ## Two ranges of memory that change places (R101) -/

section
variable {m : List Host.Cell} {a c f g n : Nat}

/-- A key that no cell has reads as 0. -/
theorem Memory.get_of_absent (h : ∀ p ∈ m, p.1 ≠ a) : Memory.get m a = 0 := by
  induction m with
  | nil => rfl
  | cons p m ih =>
    rw [Memory.get, if_neg (h p (by simp))]
    exact ih fun q hq => h q (by simp [hq])

/-- A cell of canonical memory is what its key reads as. -/
theorem Memory.get_of_mem (hm : Memory.wf m = true) {b : Byte} (h : (a, b) ∈ m) : Memory.get m a = b := by
  induction m with
  | nil => simp at h
  | cons p m ih =>
    obtain ⟨k, x⟩ := p
    obtain ⟨-, hbelow, hm⟩ := Memory.wf_cons.mp hm
    rcases List.mem_cons.mp h with h | h
    · cases h
      simp [Memory.get]
    · have hlt : k < a := hbelow _ h
      rw [Memory.get, if_neg (by omega)]
      exact ih hm h

/-- The keys of canonical memory are different. -/
theorem Memory.nodup_keys (hm : Memory.wf m = true) : (m.map (·.1)).Nodup := by
  induction m with
  | nil => simp
  | cons p m ih =>
    obtain ⟨-, hbelow, hm⟩ := Memory.wf_cons.mp hm
    refine List.nodup_cons.mpr ⟨fun h => ?_, ih hm⟩
    obtain ⟨q, hq, he⟩ := List.mem_map.mp h
    exact absurd he (Nat.ne_of_gt (hbelow q hq))

/-- Writes that give a key the byte which another key has in canonical memory, where that key is listed, and no byte
where it is not, copy what the other reads as to a key that read as 0. -/
theorem Memory.get_putAll_copied {m₀ : List Host.Cell} {l : List (Nat × Byte)} (h₀ : Memory.wf m₀ = true) (hl : (l.map (·.1)).Nodup)
    (ha : Memory.get m₀ a = 0) (hm : Memory.wf m = true) (h : ∀ b, (a, b) ∈ l ↔ (c, b) ∈ m) :
    Memory.get (Memory.putAll m₀ l) a = Memory.get m c := by
  by_cases hc : ∃ b, (c, b) ∈ m
  · obtain ⟨b, hb⟩ := hc
    rw [Memory.get_of_mem hm hb]
    exact Memory.get_putAll_mem l h₀ hl ((h b).mpr hb)
  · rw [Memory.get_putAll_other _ _ fun p hp hpa => hc ⟨p.2, (h p.2).mp (by rwa [← hpa])⟩, ha]
    exact (Memory.get_of_absent fun p hp hpc => hc ⟨p.2, by rwa [← hpc]⟩).symm

/-- The cells of a range, with their keys moved to another. -/
def Memory.moved (m : List Host.Cell) (f g n : Nat) : List Host.Cell :=
  (m.filter fun c => decide (f ≤ c.1) && decide (c.1 < f + n)).map fun c => (c.1 - f + g, c.2)

theorem Memory.mem_moved {k : Nat} {b : Byte} : (k, b) ∈ Memory.moved m f g n ↔ ∃ o, o < n ∧ k = g + o ∧ (f + o, b) ∈ m := by
  simp only [Memory.moved, List.mem_map, List.mem_filter, Bool.and_eq_true, decide_eq_true_eq, Prod.mk.injEq]
  constructor
  · rintro ⟨⟨k', b'⟩, ⟨hm, hlo, hhi⟩, hk, rfl⟩
    exact ⟨k' - f, by omega, by omega, by rwa [Nat.add_sub_cancel' hlo]⟩
  · rintro ⟨o, ho, rfl, hm⟩
    exact ⟨(f + o, b), ⟨hm, by omega, by omega⟩, by omega, rfl⟩

theorem Memory.nodup_moved (hm : Memory.wf m = true) : ((Memory.moved m f g n).map (·.1)).Nodup := by
  have h := Memory.nodup_keys (Memory.wf_filter (fun c => decide (f ≤ c.1) && decide (c.1 < f + n)) hm)
  rw [Memory.moved, List.map_map, List.nodup_map_iff_inj_on h.of_map]
  rintro ⟨k₁, b₁⟩ h₁ ⟨k₂, b₂⟩ h₂ he
  have hk : k₁ = k₂ := by
    simp only [List.mem_filter, Bool.and_eq_true, decide_eq_true_eq, Function.comp] at h₁ h₂ he
    omega
  subst hk
  rw [← Memory.get_of_mem hm (List.mem_filter.mp h₁).1, ← Memory.get_of_mem hm (List.mem_filter.mp h₂).1]

/-- Memory in which two ranges have changed places. -/
def Memory.exchanged (m : List Host.Cell) (f g n : Nat) : List Host.Cell :=
  Memory.putAll (m.filter fun c => !(decide (g ≤ c.1) && decide (c.1 < g + n) || decide (f ≤ c.1) && decide (c.1 < f + n)))
    (Memory.moved m f g n ++ Memory.moved m g f n)

/-- Ranges apart that change places: each byte of one is the byte of the other, and no other byte differs. -/
theorem Memory.get_exchanged (hm : Memory.wf m = true) (hd : f + n ≤ g ∨ g + n ≤ f) :
    (∀ o, o < n → Memory.get (Memory.exchanged m f g n) (f + o) = Memory.get m (g + o)
      ∧ Memory.get (Memory.exchanged m f g n) (g + o) = Memory.get m (f + o))
    ∧ ∀ a, a ∉ keysFrom f n ++ keysFrom g n → Memory.get (Memory.exchanged m f g n) a = Memory.get m a := by
  have hnodup : ((Memory.moved m f g n ++ Memory.moved m g f n).map (·.1)).Nodup := by
    rw [List.map_append, List.nodup_append]
    refine ⟨Memory.nodup_moved hm, Memory.nodup_moved hm, fun a ha b hb => ?_⟩
    obtain ⟨⟨k₁, b₁⟩, h₁, rfl⟩ := List.mem_map.mp ha
    obtain ⟨⟨k₂, b₂⟩, h₂, rfl⟩ := List.mem_map.mp hb
    obtain ⟨o₁, ho₁, rfl, -⟩ := Memory.mem_moved.mp h₁
    obtain ⟨o₂, ho₂, rfl, -⟩ := Memory.mem_moved.mp h₂
    dsimp only
    omega
  have hcopy (a c : Nat) (hin : (g ≤ a ∧ a < g + n) ∨ (f ≤ a ∧ a < f + n))
      (hac : ∀ b, (a, b) ∈ Memory.moved m f g n ++ Memory.moved m g f n ↔ (c, b) ∈ m) :
      Memory.get (Memory.exchanged m f g n) a = Memory.get m c := by
    refine Memory.get_putAll_copied (Memory.wf_filter _ hm) hnodup (Memory.get_of_absent fun p hp hpa => ?_) hm hac
    have := (List.mem_filter.mp hp).2
    simp only [Bool.not_eq_true', Bool.or_eq_false_iff, Bool.and_eq_false_iff, decide_eq_false_iff_not] at this
    omega
  refine ⟨fun o ho => ⟨hcopy _ _ (by omega) fun b => ?_, hcopy _ _ (by omega) fun b => ?_⟩, fun a ha => ?_⟩
  · rw [List.mem_append, Memory.mem_moved, Memory.mem_moved]
    constructor
    · rintro (⟨o', ho', he, -⟩ | ⟨o', -, he, h⟩)
      · omega
      · rwa [show o = o' by omega]
    · exact fun h => .inr ⟨o, ho, rfl, h⟩
  · rw [List.mem_append, Memory.mem_moved, Memory.mem_moved]
    constructor
    · rintro (⟨o', -, he, h⟩ | ⟨o', ho', he, -⟩)
      · rwa [show o = o' by omega]
      · omega
    · exact fun h => .inl ⟨o, ho, rfl, h⟩
  · rw [List.mem_append, mem_keysFrom, mem_keysFrom] at ha
    rw [Memory.exchanged, Memory.get_putAll_other]
    · refine Memory.get_filter m (fun k => !(decide (g ≤ k) && decide (k < g + n) || decide (f ≤ k) && decide (k < f + n))) ?_
      simp only [Bool.not_eq_true', Bool.or_eq_false_iff, Bool.and_eq_false_iff, decide_eq_false_iff_not]
      omega
    · rintro ⟨k, b⟩ hp rfl
      rw [List.mem_append, Memory.mem_moved, Memory.mem_moved] at hp
      obtain ⟨o, ho, he, -⟩ | ⟨o, ho, he, -⟩ := hp <;> dsimp only at ha <;> omega

end

/-- A transfer of two ranges to each other's places exchanges their bytes, whatever errors its reads meet (R101). -/
theorem State.mem_transfer_exchange (s : State) (f g n : Nat) :
    (s.transfer n [(f, g), (g, f)]).mem = Memory.exchanged s.mem f g n := by
  have hmem : ([(f, g), (g, f)].foldl (fun (s : State) m =>
      (List.range (n / wordBytes m.1)).foldl (fun s i => s.meet (m.1 + wordBytes m.1 * i)) s) s).mem = s.mem :=
    mem_foldl (fun s m => mem_foldl (fun s i => s.mem_meet _) _ s) _ s
  rw [State.transfer]
  simp only [hmem, List.any_cons, List.any_nil, Bool.or_false, List.flatMap_cons, List.flatMap_nil, List.append_nil]
  rfl

/-- What every step of a loop keeps, the loop keeps. -/
theorem foldl_keeps {α β : Type} {g : State → β} {f : State → α → State} (h : ∀ s a, g (f s a) = g s) (l : List α) (s : State) :
    g (l.foldl f s) = g s := by
  induction l generalizing s with
  | nil => rfl
  | cons a l ih => rw [List.foldl_cons, ih, h]

/-- A landing holds no access of another device (R101). -/
theorem State.heldRemote_landBlocks (s : State) (f g : Nat) : (s.landBlocks f g).heldRemote = s.heldRemote :=
  foldl_keeps (g := State.heldRemote) (fun s m => foldl_keeps (fun s i => by
    have h := congrArg State.heldRemote (s.withErrors_meet s (m.1 + wordBytes m.1 * i))
    exact h) _ s) _ s

theorem State.mem_landBlocks (s : State) (f g : Nat) : (s.landBlocks f g).mem = Memory.exchanged s.mem f g 4096 :=
  s.mem_transfer_exchange f g 4096

/-! ## The steps of the engine (R101, R102) -/

/-- A replaced swap is the only one of its number. -/
theorem State.swaps_setSwap {w x : Swap} (h : x ∈ (s.setSwap w).swaps) (hid : x.id = w.id) : x = w := by
  obtain ⟨y, -, hy⟩ := List.mem_map.mp h
  split at hy
  · exact hy.symm
  · simp_all

theorem State.serveHeld_nil (h : s.heldRemote = []) : s.serveHeld = s := by
  rw [State.serveHeld, h, List.foldl_nil, ← h]

section
variable {w : Swap} {j : Nat}

/-- The first sub-block that has not landed begins to move (R101). -/
theorem execSwapSubblockMove_waiting (hw : s.swaps.find? (·.id == w.id) = some w) (hj : w.blocks.findIdx? (· != .landed) = some j)
    (hb : w.blocks[j]? ≠ some .moving) :
    execSwapSubblockMove w.id s = .next (s.setSwap { w with blocks := w.blocks.set j .moving }) := by
  rw [execSwapSubblockMove, hw]
  simp only [hj, if_neg hb]

/-- A sub-block that moves lands, and what was held of other devices is served (R101). -/
theorem execSwapSubblockMove_moving (hw : s.swaps.find? (·.id == w.id) = some w) (hj : w.blocks.findIdx? (· != .landed) = some j)
    (hb : w.blocks[j]? = some .moving) :
    execSwapSubblockMove w.id s
      = .next ((s.landBlocks (w.frameA + 4096 * j) (w.frameB + 4096 * j)).setSwap { w with blocks := w.blocks.set j .landed }).serveHeld := by
  rw [execSwapSubblockMove, hw]
  simp only [hj, if_pos hb]

end

/-- An entry rewritten with another frame and kind (R102). -/
def State.rewriteEntry (s : State) (k : Nat) (kind : MemKind) (f : Nat) : State :=
  let s := s.meets (keysFrom k 8)
  s.putBack k 8 (Pte.withFrame (BitVec.ofNat 64 (s.num k 8)) kind f).toNat

/-- In memory, a rewritten entry is a number written at its key. -/
theorem State.mem_rewriteEntry (s : State) (k : Nat) (kind : MemKind) (f : Nat) :
    (s.rewriteEntry k kind f).mem = (s.putNum k 8 (Pte.withFrame (BitVec.ofNat 64 (s.num k 8)) kind f).toNat).mem := by
  have hm := s.mem_meets (keysFrom k 8)
  have hn : (s.meets (keysFrom k 8)).num k 8 = s.num k 8 := by simp only [State.num, State.bytes, hm]
  rw [State.rewriteEntry, hn, State.putNum, ← hm]
  rfl

/-- The state in which a swap has completed (R102). -/
def State.swapCompleted (s : State) (w : Swap) : State :=
  let mine (e : TlbEntry) : Bool := e.leaf == w.entryA || e.leaf == w.entryB
  let t := (s.rewriteEntry w.entryA w.kindB w.frameB).rewriteEntry w.entryB w.kindA w.frameA
  let t := (t.dropTlbs mine).dropCursors mine
  { t with swaps := t.swaps.filter (·.id != w.id) }

theorem State.mem_swapCompleted (s : State) (w : Swap) :
    (s.swapCompleted w).mem = ((s.rewriteEntry w.entryA w.kindB w.frameB).rewriteEntry w.entryB w.kindA w.frameA).mem := rfl

/-- A swap whose sub-blocks have landed completes once no packet under way reaches its frames (R102). -/
theorem execSwapComplete_landed {w : Swap} (hw : s.swaps.find? (·.id == w.id) = some w) (hb : ∀ b ∈ w.blocks, b = .landed)
    (hA : s.packetIn w.frameA = false) (hB : s.packetIn w.frameB = false) :
    execSwapComplete w.id s = .next (s.swapCompleted w) := by
  have hany : w.blocks.any (· != .landed) = false := List.any_eq_false.mpr fun b h => by simp [hb b h]
  rw [execSwapComplete, hw]
  simp only [hany, hA, hB]
  rfl

/-- An entry rewritten, written with the numbers of R86 and R102. -/
theorem withFrame_eq (pte : Word) (kind : MemKind) (f : Nat) :
    Pte.withFrame pte kind f = (pte &&& 0x7C0000000000027F)
      ||| BitVec.ofNat 64 (128 * match kind with | .global => 0 | .vault => 1 | .domain => 2 | .host => 3) ||| BitVec.ofNat 64 f := by
  have hkind : kind.code.setWidth 64 <<< 7
      = BitVec.ofNat 64 (128 * match kind with | .global => 0 | .vault => 1 | .domain => 2 | .host => 3) := by
    cases kind <;> decide
  rw [Pte.withFrame, hkind, BitVec.and_comm]

/-- The number at keys that a write does not reach. -/
theorem State.num_putNum_other {a b n m x : Nat} (h : a + n ≤ b ∨ b + m ≤ a) : (s.putNum a n x).num b m = s.num b m := by
  rw [State.num, State.num, State.bytes, State.bytes]
  refine congrArg leNat (List.map_congr_left fun k hk => Memory.get_putAll_other _ _ fun p hp hpk => ?_)
  have hp := mem_keysFrom.mp (List.of_mem_zip hp).1
  have hk := mem_keysFrom.mp hk
  omega

/-- A word written as 8 bytes reads as itself. -/
theorem State.ofNat_num_putNum (h : Memory.wf s.mem = true) (k : Nat) (x : Word) :
    BitVec.ofNat 64 ((s.putNum k 8 x.toNat).num k 8) = x := by
  rw [State.num_putNum _ _ _ h]
  apply BitVec.eq_of_toNat_eq
  rw [BitVec.toNat_ofNat]
  have := x.isLt
  omega

/-- A number depends on memory alone. -/
theorem State.num_congr (h : t.mem = s.mem) (k n : Nat) : t.num k n = s.num k n := by
  simp only [State.num, State.bytes, h]

/-- A write of a number leaves the keys outside it. -/
theorem State.memoryOutside_putNum (s : State) (k n x : Nat) : s.MemoryOutside (s.putNum k n x) (keysFrom k n) := fun _ ha =>
  Memory.get_putAll_other _ _ fun _ hp hpa => ha (hpa ▸ (List.of_mem_zip hp).1)

theorem State.memoryOutside_rewriteEntry (s : State) (k : Nat) (kind : MemKind) (f : Nat) :
    s.MemoryOutside (s.rewriteEntry k kind f) (keysFrom k 8) := fun a ha => by
  rw [State.mem_rewriteEntry]
  exact State.memoryOutside_putNum s k 8 _ a ha

/-- A rewritten entry reads as `Pte.withFrame` gives it. -/
theorem State.num_rewriteEntry_self (h : Memory.wf s.mem = true) (k : Nat) (kind : MemKind) (f : Nat) :
    BitVec.ofNat 64 ((s.rewriteEntry k kind f).num k 8) = Pte.withFrame (BitVec.ofNat 64 (s.num k 8)) kind f := by
  rw [State.num_congr (s.mem_rewriteEntry k kind f)]
  exact State.ofNat_num_putNum h k _

theorem State.num_rewriteEntry_other {k b : Nat} (kind : MemKind) (f : Nat) (h : k + 8 ≤ b ∨ b + 8 ≤ k) :
    (s.rewriteEntry k kind f).num b 8 = s.num b 8 := by
  rw [State.num_congr (s.mem_rewriteEntry k kind f)]
  exact State.num_putNum_other h

theorem State.wf_rewriteEntry (h : Memory.wf s.mem = true) (k : Nat) (kind : MemKind) (f : Nat) :
    Memory.wf (s.rewriteEntry k kind f).mem = true := by
  rw [State.mem_rewriteEntry]
  exact State.wf_putNum _ _ _ h

/-- Settles O46: a landing exchanges two ranges of memory (`Memory.get_exchanged`), a completion rewrites two entries. -/
theorem swapEngineSteps : Obligations.SwapEngineSteps := by
  unfold Obligations.SwapEngineSteps
  intro code entry s w hw
  refine ⟨fun j hj => ⟨fun hb => execSwapSubblockMove_waiting hw hj hb, fun hb hheld hwf hapart hj8 => ?_⟩, fun hb hA hB => ?_⟩
  · have hdisj : w.frameA + 4096 * j + 4096 ≤ w.frameB + 4096 * j ∨ w.frameB + 4096 * j + 4096 ≤ w.frameA + 4096 * j := by omega
    obtain ⟨hin, hout⟩ := Memory.get_exchanged hwf hdisj
    refine ⟨_, (execSwapSubblockMove_moving hw hj hb).trans (congrArg _ (State.serveHeld_nil ?_)), fun o ho => ?_, fun a ha => ?_,
      fun x hx hid => ?_⟩
    · exact (State.heldRemote_landBlocks s _ _).trans hheld
    · simpa only [State.mem_setSwap, State.mem_landBlocks] using hin o ho
    · simpa only [State.mem_setSwap, State.mem_landBlocks] using hout a ha
    · rw [State.swaps_setSwap hx hid]
  · refine ⟨_, execSwapComplete_landed hw hb hA hB, fun x hx => ?_, fun e he => ?_, fun a ha => ?_, fun hwf hapart => ?_⟩
    · simpa using (List.mem_filter.mp hx).2
    · simpa using (List.mem_filter.mp he).2
    · rw [List.mem_append, not_or] at ha
      obtain ⟨haA, haB⟩ := ha
      rw [State.mem_swapCompleted]
      exact (State.memoryOutside_rewriteEntry _ _ _ _ a haB).trans (State.memoryOutside_rewriteEntry s _ _ _ a haA)
    · have hmem := s.mem_swapCompleted w
      have hA' : BitVec.ofNat 64 ((s.swapCompleted w).num w.entryA 8)
          = Pte.withFrame (BitVec.ofNat 64 (s.num w.entryA 8)) w.kindB w.frameB := by
        rw [State.num_congr hmem, State.num_rewriteEntry_other _ _ hapart.symm]
        exact State.num_rewriteEntry_self hwf _ _ _
      have hB' : BitVec.ofNat 64 ((s.swapCompleted w).num w.entryB 8)
          = Pte.withFrame (BitVec.ofNat 64 (s.num w.entryB 8)) w.kindA w.frameA := by
        rw [State.num_congr hmem, State.num_rewriteEntry_self (State.wf_rewriteEntry hwf _ _ _), State.num_rewriteEntry_other _ _ hapart]
      rw [hA', hB', withFrame_eq, withFrame_eq]
      exact ⟨rfl, rfl⟩

end Sys2Proof.Machine

namespace Sys2Proof.Machine
/-! # TLBINV and SWAPPG -/

variable {s t u v : State} {f : SF}

/-! ## TLBINV (R98, R99) -/

/-- The entries that the operands of TLBINV name (R98). -/
theorem invalidated_iff (va sel : Word) (e : TlbEntry) :
    invalidated va sel e = true ↔ sel.getLsbD 13 = true ∨ (e.ctx = sel.toNat % 4096
      ∧ (sel.getLsbD 12 = true ∨ va.toNat % 2 ^ 51 / 2 ^ e.shift = e.vpn)) := by
  have hctx : (sel.extractLsb' 0 12).toNat = sel.toNat % 4096 := by simp [BitVec.extractLsb'_toNat]
  simp only [invalidated, Bool.or_eq_true, Bool.and_eq_true, beq_iff_eq, hctx]

theorem State.mem_tlb_dropTlbs {p : TlbEntry → Bool} {e : TlbEntry} : e ∈ (s.dropTlbs p).tlb ↔ e ∈ s.tlb ∧ ¬ p e = true := by
  simp [State.dropTlbs]

/-- A cursor keeps no entry that is dropped (R99). -/
theorem Cmd.dropXlat_clean (p : TlbEntry → Bool) (x : Cmd) : (x.dropXlat p).xlat.any p = false := by
  unfold Cmd.dropXlat
  split
  · rfl
  · simp_all

theorem State.dropCursors_clean {p : TlbEntry → Bool} {q : Nat × Port} {x : Cmd} (hq : q ∈ (s.dropCursors p).ports)
    (hx : x ∈ q.2.cmds) : x.xlat.any p = false := by
  obtain ⟨q', -, rfl⟩ := List.mem_map.mp hq
  obtain ⟨y, -, rfl⟩ := List.mem_map.mp hx
  exact y.dropXlat_clean p

/-- At U level an instruction of PRIV raises PRIV with its word (R77). -/
theorem exec_tlbinv_user (h : s.lc.level = .u) :
    exec (.tlbinv f) s = .next (s.deliver ⟨.priv, (packS 1 f.b f.a f.d 0x73).setWidth 64, 0, s.lc.pc, s.lc.vstart⟩) := by
  show execTlbinv f s = _
  rw [execTlbinv, h]
  rfl

theorem exec_swappg_user (h : s.lc.level = .u) :
    exec (.swappg f) s = .next (s.deliver ⟨.priv, (packS 0 f.b f.a f.d 0x73).setWidth 64, 0, s.lc.pc, s.lc.vstart⟩) := by
  show execSwappg f s = _
  rw [execSwappg, h]
  rfl

/-- At S level TLBINV drops the entries that it names and waits (R98). -/
theorem exec_tlbinv_super (h : s.lc.level = .s) (hfree : s.Free [f.a, f.b]) :
    exec (.tlbinv f) s = .next (((s.seen [f.a, f.b]).dropTlbs (invalidated (s.lc.rd f.a) (s.lc.rd f.b))).waiting
      (.tlbinv (s.lc.rd f.a) (s.lc.rd f.b))) := by
  show execTlbinv f s = _
  rw [execTlbinv, h, if_neg (by decide), scalar_free hfree]
  simp only [State.rd_seen]

/-- With no packet under way, TLBINV retires: streams drop the translations, and the thread goes on (R99). -/
theorem exec_tlbinvRetire {n : Nat} {va sel : Word} (h : s.invalidating = some (n, va, sel)) (hs : s.spans = []) :
    exec .tlbinvRetire s = .next (((s.dropTlbs (invalidated va sel)).dropCursors (invalidated va sel)).setThr n
      { s.thr n with lc := { (s.thr n).lc with pc := (s.thr n).lc.pc + 4, waitFor := .none } }) := by
  show execTlbinvRetire s = _
  rw [execTlbinvRetire, h]
  simp only [State.spansOf, hs]
  rfl

/-! ## SWAPPG (R100) -/

/-- The walk that an operand of SWAPPG asks for, as the statement writes it. -/
theorem State.swapLeaf_eq (s : State) (x : Word) : s.swapLeaf x = s.walk (x.toNat % 4096) (x &&& 0x7FFFFFFFF8000) := by
  have hctx : (x.extractLsb' 0 12).toNat = x.toNat % 4096 := by simp [BitVec.extractLsb'_toNat]
  rw [State.swapLeaf, hctx]
  rfl

/-- At S level SWAPPG walks twice; poison stops it, else it gives a status or begins a swap. -/
theorem exec_swappg_super {p q : State × Except Stop Leaf} (h : s.lc.level = .s) (hfree : s.Free [f.d, f.a, f.b])
    (hp : (s.seen [f.d, f.a, f.b]).walk ((s.lc.rd f.a).toNat % 4096) (s.lc.rd f.a &&& 0x7FFFFFFFF8000) = p)
    (hq : p.1.walk ((s.lc.rd f.b).toNat % 4096) (s.lc.rd f.b &&& 0x7FFFFFFFF8000) = q) :
    exec (.swappg f) s =
      if p.2 = .error .poison ∨ q.2 = .error .poison then .next (q.1.kill q.1.lc.job.ctx Cause.poison.code q.1.cur)
      else
        match q.1.swapStatus (s.lc.rd f.a) (s.lc.rd f.b) p.2 q.2 with
        | .error x => .next (q.1.put f.d x)
        | .ok (l, m) => .next ((q.1.beginSwap l m).put f.d 0) := by
  subst hp
  subst hq
  show execSwappg f s = _
  rw [execSwappg, h, if_neg (by decide), scalar_free hfree]
  simp only [State.rd_seen, State.swapLeaf_eq]
  rfl

/-- An operand has a reserved bit set, in numbers (R100). -/
theorem swapReserved_iff (x : Word) : swapReserved x = true ↔ x.toNat / 2 ^ 51 ≠ 0 ∨ x.toNat / 2 ^ 12 % 8 ≠ 0 := by
  have hhi : x.extractLsb' 51 13 = 0 ↔ x.toNat / 2 ^ 51 = 0 := by
    rw [← BitVec.toNat_inj, BitVec.extractLsb'_toNat, Nat.shiftRight_eq_div_pow]
    have := x.isLt
    rw [show (0 : BitVec 13).toNat = 0 from rfl]
    omega
  have hlo : x.extractLsb' 12 3 = 0 ↔ x.toNat / 2 ^ 12 % 8 = 0 := by
    rw [← BitVec.toNat_inj, BitVec.extractLsb'_toNat, Nat.shiftRight_eq_div_pow]
    simp
  simp only [swapReserved, Bool.or_eq_true, bne_iff_ne, ne_eq, hhi, hlo]

/-- A leaf that no swap takes (R100). -/
theorem Leaf.unswappable_iff (l : Leaf) : l.unswappable = true ↔ l.shift ≠ 15 ∨ Pte.striped l.pte = true
    ∨ ¬ ((Pte.kind l.pte = .global ∧ inGlobal (Pte.frame l.pte) = true) ∨ (Pte.kind l.pte = .vault ∧ inVault (Pte.frame l.pte) = true)) := by
  simp only [Leaf.unswappable, Bool.or_eq_true, bne_iff_ne, Bool.not_eq_true', ← Bool.not_eq_true, Bool.and_eq_true, beq_iff_eq]
  tauto

/-- The frame that a leaf gives, as the statement writes it. -/
def State.pageFrame (s : State) (x : Word) (l : Leaf) : Except Stop Nat :=
  (leafPlace s.who s.dev l.pte (l.pa (x &&& 0x7FFFFFFFF8000)) (x &&& 0x7FFFFFFFF8000)).map (·.base)

/-- Two operands reach one frame: one place, or where neither leaf gives a place one kind, device and address (R100). -/
theorem State.swapFrame_eq_iff (s : State) (a b : Word) (l m : Leaf) :
    s.swapFrame a l = s.swapFrame b m ↔ (∃ n, s.pageFrame a l = .ok n ∧ s.pageFrame b m = .ok n)
      ∨ ((∀ n, s.pageFrame a l ≠ .ok n) ∧ (∀ n, s.pageFrame b m ≠ .ok n) ∧ Pte.kind l.pte = Pte.kind m.pte
        ∧ Pte.devid l.pte = Pte.devid m.pte ∧ l.pa (a &&& 0x7FFFFFFFF8000) = m.pa (b &&& 0x7FFFFFFFF8000)) := by
  simp only [State.swapFrame, State.pageFrame, swapVa]
  rcases leafPlace s.who s.dev l.pte (l.pa (a &&& 0x7FFFFFFFF8000)) (a &&& 0x7FFFFFFFF8000) with e | p <;>
    rcases leafPlace s.who s.dev m.pte (m.pa (b &&& 0x7FFFFFFFF8000)) (b &&& 0x7FFFFFFFF8000) with e' | p' <;>
    simp [Except.map, eq_comm]

section
variable {a b : Word} {l m : Leaf}

theorem State.swapStatus_fault {x y : Except Stop Leaf} (h : (∃ e, x = .error e) ∨ ∃ e, y = .error e) :
    s.swapStatus a b x y = .error 2 := by
  unfold State.swapStatus
  split
  · rcases h with ⟨_, h⟩ | ⟨_, h⟩ <;> cases h
  · rfl

/-- The status that two leaves give, the highest code first (R100). -/
theorem State.swapStatus_ok (s : State) (a b : Word) (l m : Leaf) :
    s.swapStatus a b (.ok l) (.ok m) =
      if l.key = m.key ∨ s.swapFrame a l = s.swapFrame b m then .error 3
      else if swapReserved a = true ∨ swapReserved b = true ∨ l.unswappable = true ∨ m.unswappable = true then .error 2
      else if Pte.swlk l.pte = true ∨ Pte.swlk m.pte = true ∨ 4 ≤ s.swaps.length then .error 1
      else .ok (l, m) := by
  simp only [State.swapStatus, Bool.or_eq_true, decide_eq_true_eq, or_assoc]

end

/-- Every entry of a table lies at a multiple of 8. -/
theorem State.walkFrom_key {va : Word} {fuel lvl tbl : Nat} {l : Leaf} (ht : tbl % 8 = 0)
    (h : (State.walkFrom va fuel lvl tbl s).2 = .ok l) : l.key % 8 = 0 := by
  induction fuel generalizing lvl tbl s with
  | zero => simp [State.walkFrom] at h
  | succ fuel ih =>
    rw [State.walkFrom_succ_snd] at h
    have hnext : ∀ pte, Pte.frame pte % 8 = 0 := fun pte => by unfold Pte.frame; omega
    have hkey : (tbl + 8 * (va.toNat / 2 ^ Pte.shift lvl % 4096)) % 8 = 0 := by omega
    grind

theorem State.walk_key {ctx : Nat} {va : Word} {l : Leaf} (h : (s.walk ctx va).2 = .ok l) : l.key % 8 = 0 := by
  unfold State.walk at h
  split at h
  · cases h
  · refine State.walkFrom_key ?_ h
    unfold rootIn
    omega

theorem State.mem_putBack (s : State) (a n x : Nat) :
    (s.putBack a n x).mem = Memory.putAll s.mem ((keysFrom a n).zip (leBytes n x)) := rfl

theorem State.mem_putNum (s : State) (a n x : Nat) :
    (s.putNum a n x).mem = Memory.putAll s.mem ((keysFrom a n).zip (leBytes n x)) := rfl

/-- A swap begins: SWLK is written in both entries, and the swap is in flight (R100). -/
theorem State.mem_beginSwap (s : State) (l m : Leaf) :
    (s.beginSwap l m).mem = ((s.putNum l.key 8 (l.pte ||| 0x400).toNat).putNum m.key 8 (m.pte ||| 0x400).toNat).mem := by
  simp only [State.beginSwap, swlk, State.mem_putBack, State.mem_putNum]

theorem State.swaps_beginSwap (s : State) (l m : Leaf) : ∃ id, (s.beginSwap l m).swaps
    = s.swaps ++ [⟨id, l.key, m.key, Pte.frame l.pte, Pte.frame m.pte, Pte.kind l.pte, Pte.kind m.pte, List.replicate 8 .waiting⟩] :=
  ⟨_, rfl⟩

/-- A swap that begins leaves the threads alone. -/
theorem State.lc_beginSwap (s : State) (l m : Leaf) : (s.beginSwap l m).lc = s.lc := by
  have hthreads : (s.beginSwap l m).threads = s.threads := by
    unfold State.beginSwap
    rfl
  have hcur : (s.beginSwap l m).cur = s.cur := by
    unfold State.beginSwap
    rfl
  rw [State.lc, State.lc, State.thr, State.thr, hthreads, hcur]

/-- Where the entries do not overlap, both hold SWLK once the swap has begun, and no other byte of memory differs. -/
theorem State.beginSwap_entries (hwf : Memory.wf s.mem = true) {l m : Leaf} (h : l.key + 8 ≤ m.key ∨ m.key + 8 ≤ l.key) :
    BitVec.ofNat 64 ((s.beginSwap l m).num l.key 8) = l.pte ||| 0x400
      ∧ BitVec.ofNat 64 ((s.beginSwap l m).num m.key 8) = m.pte ||| 0x400
      ∧ s.MemoryOutside (s.beginSwap l m) (keysFrom l.key 8 ++ keysFrom m.key 8) := by
  have hmem := s.mem_beginSwap l m
  refine ⟨?_, ?_, fun a ha => ?_⟩
  · rw [State.num_congr hmem, State.num_putNum_other h.symm]
    exact State.ofNat_num_putNum hwf _ _
  · rw [State.num_congr hmem]
    exact State.ofNat_num_putNum (State.wf_putNum _ _ _ hwf) _ _
  · rw [List.mem_append, not_or] at ha
    obtain ⟨hl, hm⟩ := ha
    rw [hmem]
    exact (State.memoryOutside_putNum _ _ _ _ a hm).trans (State.memoryOutside_putNum s _ _ _ a hl)

theorem State.g_seen {gs : List Reg} : (s.seen gs).lc.g = s.lc.g := by
  obtain ⟨l, hl⟩ := State.lc_seen (s := s) (gs := gs)
  rw [hl]

theorem State.lc_waiting (s : State) (w : WaitFor) : (s.waiting w).lc = { s.lc with waitFor := w } := State.lc_setLc s _

/-- A result put in a register goes there alone, and the thread goes on. -/
theorem State.lc_put (s : State) (d : Reg) (x : Word) : (s.put d x).lc = (s.lc.wr d x).advance := State.lc_setLc s _

/-- A walk leaves the threads alone. -/
theorem State.lc_walk (s : State) (ctx : Nat) (va : Word) : (s.walk ctx va).1.lc = s.lc := by
  have h : s.walk ctx va = ((s.walk ctx va).1, (s.walk ctx va).2) := rfl
  obtain ⟨hthreads, hcur⟩ := State.SameThreads.walk h
  rw [State.lc, State.lc, State.thr, State.thr, hthreads, hcur]

theorem State.swaps_walk (s : State) (ctx : Nat) (va : Word) : (s.walk ctx va).1.swaps = s.swaps := by
  have h := congrArg State.swaps (State.OnlyMaps.walk s ctx va).frame
  exact h

/-- Settles O45: TLBINV by what it drops, SWAPPG by the status of what its two walks found. -/
theorem tlbAndSwapRequests : Obligations.TlbAndSwapRequests := by
  unfold Obligations.TlbAndSwapRequests
  intro f s
  refine ⟨fun h => ⟨exec_tlbinv_user h, exec_swappg_user h⟩, fun h hfree => ?_, fun n va sel h hs => ?_, fun h hfree hwf => ?_⟩
  · refine ⟨_, exec_tlbinv_super h hfree, fun e => ?_, ?_, ?_, ?_, ?_⟩
    · rw [State.tlb_waiting, State.mem_tlb_dropTlbs, invalidated_iff]
      have htlb : (s.seen [f.a, f.b]).tlb = s.tlb := by
        have k := congrArg State.tlb (State.seen_frame (s := s) (gs := [f.a, f.b]))
        exact k
      rw [htlb]
    · rw [State.lc_waiting]
      exact State.pc_seen
    · rw [State.lc_waiting]
    · exact State.mem_seen
    · rw [State.lc_waiting]
      exact State.g_seen
  · refine ⟨_, exec_tlbinvRetire h hs, congrArg HThread.lc (State.thr_setThr_same ..), rfl, fun e he => ?_, fun q hq x hx => ?_⟩
    · simpa using (State.mem_tlb_dropTlbs.mp he).2
    · exact State.dropCursors_clean hq hx
  · intro a b page p q u status frame absent reserved fixed
    have hexec := exec_swappg_super (p := p) (q := q) h hfree rfl rfl
    have hmem : u.mem = s.mem := (State.mem_walk ..).trans ((State.mem_walk ..).trans State.mem_seen)
    have hlc : u.lc = (s.seen [f.d, f.a, f.b]).lc := (State.lc_walk ..).trans (State.lc_walk ..)
    have hswaps : u.swaps = s.swaps := by
      have k := congrArg State.swaps (State.seen_frame (s := s) (gs := [f.d, f.a, f.b]))
      exact ((State.swaps_walk ..).trans (State.swaps_walk ..)).trans k
    refine ⟨fun hp => hexec.trans (if_pos hp), fun hp hq he => ?_, fun l m hl hm => ?_⟩
    · rw [if_neg (not_or.mpr ⟨hp, hq⟩), State.swapStatus_fault he] at hexec
      exact hexec
    · have hkl : l.key % 8 = 0 := State.walk_key hl
      have hkm : m.key % 8 = 0 := State.walk_key hm
      have hnp : ¬ (p.2 = .error .poison ∨ q.2 = .error .poison) := by simp [hl, hm]
      rw [if_neg hnp, hl, hm, State.swapStatus_ok] at hexec
      intro same bad busy
      have hsame : (l.key = m.key ∨ u.swapFrame a l = u.swapFrame b m) ↔ same := by
        rw [State.swapFrame_eq_iff]
        rfl
      have hbad : (swapReserved a = true ∨ swapReserved b = true ∨ l.unswappable = true ∨ m.unswappable = true) ↔ bad := by
        rw [swapReserved_iff, swapReserved_iff, Leaf.unswappable_iff, Leaf.unswappable_iff]
      have hbusy : (Pte.swlk l.pte = true ∨ Pte.swlk m.pte = true ∨ 4 ≤ u.swaps.length) ↔ busy := by rw [hswaps]
      refine ⟨fun hs => ?_, fun hs hb => ?_, fun hs hb hbu => ?_, fun hs hb hbu => ?_⟩
      · rw [if_pos (hsame.mpr hs)] at hexec
        exact hexec
      · rw [if_neg (mt hsame.mp hs), if_pos (hbad.mpr hb)] at hexec
        exact hexec
      · rw [if_neg (mt hsame.mp hs), if_neg (mt hbad.mp hb), if_pos (hbusy.mpr hbu)] at hexec
        exact hexec
      · rw [if_neg (mt hsame.mp hs), if_neg (mt hbad.mp hb), if_neg (mt hbusy.mp hbu)] at hexec
        change exec (.swappg f) s = .next ((u.beginSwap l m).put f.d 0) at hexec
        have hne : l.key ≠ m.key := fun e => hs (.inl e)
        obtain ⟨hnl, hnm, hout⟩ := State.beginSwap_entries (s := u) (hmem.symm ▸ hwf) (l := l) (m := m) (by omega)
        obtain ⟨id, hid⟩ := u.swaps_beginSwap l m
        have hlc' : ((u.beginSwap l m).put f.d 0).lc = (u.lc.wr f.d 0).advance := by rw [State.lc_put, State.lc_beginSwap]
        generalize u.beginSwap l m = t at hexec hnl hnm hout hid hlc'
        have hmput : (t.put f.d 0).mem = t.mem := State.mem_put ..
        refine ⟨_, hexec, fun hd => ?_, fun r hr => ?_, ?_, ?_, ?_, fun a ha => ?_, id, ?_⟩
        · rw [hlc', LCore.rd_advance, LCore.rd_wr_same _ _ _ hd]
        · rw [hlc', LCore.rd_advance, LCore.rd_wr_other _ _ hr]
        · rw [hlc', LCore.pc_advance, LCore.pc_wr, hlc, State.pc_seen]
        · rw [State.num_congr hmput, hnl]
        · rw [State.num_congr hmput, hnm]
        · rw [hmput, hout a ha, hmem]
        · rw [← hswaps]
          exact hid

end Sys2Proof.Machine

namespace Sys2Proof.Machine
/-! # SAVECTX in a state whose threads are out of order

`FMap.set` keeps a map in the order of its keys and looks for the place of a key by that order; `FMap.get?` finds a key
wherever it stands. In a map out of order a change of a thread may then stand beside the thread as it was, and
SAVECTX, which counts the logical cores of its context after the bytes of a token have been seen, counts one twice. A map
that `FMap.set` builds from the empty one is in order, but the statement is about every state. -/

/-- Thread 3 runs at S with the token of g1, that names context 0, not yet read; thread 5, idle, stands before it. The pool
has one whole block. -/
def outOfOrder : State :=
  { State.reset with
    cur := 3
    threads := [(5, .idle), (3, ⟨0, true, none, false, none, false, { LCore.start .nothing with level := .s, unseen := [(1, 0, [])] }⟩)]
    contexts := [0]
    host := { HostRegs.reset with svpn := 1537 } }

/-- SAVECTX of the context that g1 names, with d g2. -/
def saveOwn : SF := ⟨0, 1, 2⟩

theorem outOfOrder_free : outOfOrder.Free [2, 1] := by
  unfold State.Free
  decide +kernel

/-- One logical core and one block: there is room for its image. -/
theorem outOfOrder_room : outOfOrder.threadsIn 0 = [outOfOrder.cur] ∧ (outOfOrder.wholeBlocks.filter outOfOrder.imageFree).length = 1 := by
  decide +kernel

/-- Once the token has been seen thread 3 stands in the map twice, and SAVECTX finds too few blocks. -/
theorem outOfOrder_seen : (outOfOrder.seen [2, 1]).threadsIn 0 = [3, 3] ∧ (outOfOrder.seen [2, 1]).saveStatus 0 = 2 := by
  decide +kernel

/-- At S level SAVECTX that finds a status other than 0 gives it to d and changes nothing else (R434). -/
theorem exec_savectx_refused {s : State} {f : SF} (h : s.lc.level = .s) (hfree : s.Free [f.d, f.a])
    (hst : (s.seen [f.d, f.a]).saveStatus (s.lc.rd f.a) ≠ 0) :
    exec (.savectx f) s = .next ((s.seen [f.d, f.a]).put f.d ((s.seen [f.d, f.a]).saveStatus (s.lc.rd f.a))) := by
  show execSavectx f s = _
  rw [execSavectx, h, if_neg (by decide), scalar_free hfree]
  simp only [State.rd_seen]
  exact if_pos hst

/-- SAVECTX of the own context of the only logical core, with room for its image, gives 2: the thread does not stop. -/
theorem exec_saveOwn_outOfOrder : exec (.savectx saveOwn) outOfOrder = .next ((outOfOrder.seen [2, 1]).put 2 2) := by
  have hrd : outOfOrder.lc.rd 1 = 0 := by decide +kernel
  have hst := outOfOrder_seen.2
  have h := exec_savectx_refused (f := saveOwn) (by decide +kernel : outOfOrder.lc.level = .s) outOfOrder_free
  simp only [saveOwn, hrd, hst] at h
  exact h (by decide)

/-- Refutes O48: its clause for the own context of the only logical core is about every state, and fails where the map of
threads is out of order. -/
theorem not_contextOperations : ¬ Obligations.ContextOperations := by
  unfold Obligations.ContextOperations
  rintro ⟨-, hsave, -⟩
  have hrd : outOfOrder.lc.rd 1 = 0 := by decide +kernel
  have hone := outOfOrder_room.1
  obtain ⟨-, -, h⟩ := hsave saveOwn outOfOrder (by decide +kernel) outOfOrder_free
  simp only [saveOwn, hrd] at h
  obtain ⟨-, hown⟩ := h (by decide +kernel) (by decide +kernel) (by decide +kernel)
  obtain ⟨t, ht, hstopped, -⟩ := hown hone (by decide +kernel) (by decide +kernel)
  have hexec := exec_saveOwn_outOfOrder
  simp only [saveOwn] at hexec
  cases ht.symm.trans hexec
  exact absurd hstopped (by decide +kernel)

end Sys2Proof.Machine

namespace Sys2Proof.Machine
/-! # Packets at the head of a queue start -/

variable {s t u v : State} {slot : Nat} {p : BitVec 512}

@[simp] theorem State.queue_setQueue_same (s : State) (slot : Nat) (q : Queue) : (s.setQueue slot q).queue slot = q := by
  simp [State.queue, State.setQueue]

theorem State.queue_congr (h : t.queues = s.queues) : t.queue slot = s.queue slot := by rw [State.queue, State.queue, h]

/-- A queue whose head has started: the head has left the FIFO, which takes one held write (R400, R401). -/
def Queue.headLeft (q : Queue) : Queue := { q with fifo := q.fifo.drop 1 ++ q.held.take 1, held := q.held.drop 1 }

theorem State.startPacket_eq (s : State) (slot : Nat) : s.startPacket slot = s.stamp.setQueue slot (s.queue slot).headLeft := rfl

@[simp] theorem State.queue_startPacket (s : State) (slot : Nat) : (s.startPacket slot).queue slot = (s.queue slot).headLeft := by
  rw [State.startPacket_eq, State.queue_setQueue_same]

@[simp] theorem State.eventNo_startPacket (s : State) (slot : Nat) : (s.startPacket slot).eventNo = s.seq := rfl

/-- A head of the type that a step is for does what the step does. -/
theorem onHead_type {k : BitVec 512 → State} {ty : Nat} (h : s.headPacket slot = some p) (hty : Packet.ptype p = ty) :
    onHead slot ty s k = .next (k p) := by
  simp only [onHead, h, if_pos hty]

/-! ## Heads that wait on counters (R401) -/

section
variable (hv : State.countersReach slot (s.queue slot).ctx (Packet.counters p) s = (v, true))
include hv

/-- A WAITC whose counters are reached starts. -/
theorem State.tryWaiting_waitc (hty : Packet.ptype p = 2) : s.tryWaiting slot p = v.startPacket slot := by
  simp [State.tryWaiting, hv, hty]

theorem State.tryWaiting_launch (hty : Packet.ptype p = 1) : s.tryWaiting slot p = v.startLaunch slot p := by
  simp [State.tryWaiting, hv, hty]

end

/-- A head with a counter that is not reached does not start. -/
theorem State.tryWaiting_short (hv : State.countersReach slot (s.queue slot).ctx (Packet.counters p) s = (v, false)) :
    s.tryWaiting slot p = v := by
  simp [State.tryWaiting, hv]

/-- A kernel's launch of at least one point has a folio (R227). -/
theorem Packet.folios_pos {q : Queue} {seq : Nat} {k : Kernel} (hk : 0 < k.folen) (hp : 0 < (Packet.toLaunch p q slot seq k).points) :
    (Packet.toLaunch p q slot seq k).folios ≠ 0 := by
  have he : (Packet.toLaunch p q slot seq k).folios = ((Packet.toLaunch p q slot seq k).points + k.folen - 1) / k.folen := rfl
  rw [he]
  exact Nat.ne_of_gt (Nat.div_pos (by omega) hk)

/-- A LAUNCH with a folio starts: its launch is under way (R227, R401). -/
theorem State.startLaunch_folios {k : Kernel} (hk : s.kernel? (Packet.kidx p) (s.queue slot).ctx = some k)
    (hf : (Packet.toLaunch p (s.queue slot) slot s.seq k).folios ≠ 0) :
    s.startLaunch slot p
      = { s.startPacket slot with launches := s.launches ++ [Packet.toLaunch p (s.queue slot) slot s.seq k] } := by
  have hk' : (s.startPacket slot).kernel? (Packet.kidx p) (s.queue slot).ctx = some k := hk
  simp only [State.startLaunch, hk', State.eventNo_startPacket]
  exact if_neg hf

/-! ## Heads that write (R401) -/

/-- A counter's keys are asked of the translation of its address alone. -/
theorem State.OnlyMaps.counterKeys (s : State) (ctx : Nat) (acc : Acc) (va : Word) (n : Nat) :
    s.OnlyMaps (s.counterKeys ctx acc va n).1 := by
  have h := State.OnlyMaps.xlate s tlb2 ⟨none, ctx, .s⟩ .scalarAtomic acc va
  unfold State.counterKeys
  split
  · exact .refl s
  · split
    · exact .refl s
    · split
      · rename_i e
        rwa [e] at h
      · rename_i e
        rwa [e] at h

theorem State.OnlyMaps.queue (h : s.OnlyMaps t) (slot : Nat) : t.queue slot = s.queue slot := by
  have k := congrArg State.queues h.frame
  exact State.queue_congr k

theorem State.counterKeys_queue {ctx n : Nat} {acc : Acc} {va : Word} {r : Except Stop (List Nat)}
    (h : s.counterKeys ctx acc va n = (u, r)) : u.queue slot = s.queue slot := by
  have k := (State.OnlyMaps.counterKeys s ctx acc va n).queue slot
  rwa [h] at k

section
variable {ctx : Nat} {va x : Word} {ks js : List Nat}

/-- An addition that the swap engine holds waits in its list (R101). -/
theorem State.counterAdd_held (hk : s.counterKeys ctx .rmw va 8 = (u, .ok ks)) (hr : u.redirectAll true ks = none) :
    s.counterAdd slot ctx va x = { u with heldRemote := u.heldRemote ++ [.atomic ⟨.add, 8, ks.headD 0, x, 0⟩] } := by
  simp only [State.counterAdd, hk, hr]

/-- An addition to a counter free of poison (R401). -/
theorem State.counterAdd_done {b : List Byte} (hk : s.counterKeys ctx .rmw va 8 = (u, .ok ks)) (hr : u.redirectAll true ks = some js)
    (hb : u.read js = (v, some b)) : s.counterAdd slot ctx va x = v.writeBack (js.zip (leBytes 8 (leNat b + x.toNat))) := by
  simp only [State.counterAdd, hk, hr, hb]

theorem State.mark_held (hk : s.counterKeys ctx .rmw va 16 = (u, .ok ks)) (hr : u.redirectAll true ks = none) :
    s.mark slot ctx va x = { u with heldRemote := u.heldRemote
      ++ [.access ⟨true, ks.headD 0, 16, leNat (leBytes 8 s.eventNo ++ leBytes 8 x.toNat)⟩] } := by
  simp only [State.mark, hk, hr]

theorem State.mark_done (hk : s.counterKeys ctx .rmw va 16 = (u, .ok ks)) (hr : u.redirectAll true ks = some js) :
    s.mark slot ctx va x = u.write (js.zip (leBytes 8 s.eventNo ++ leBytes 8 x.toNat)) := by
  simp only [State.mark, hk, hr]

end

theorem State.slotRuns_false (h : ∀ l ∈ s.launches, l.slot ≠ slot) : s.slotRuns slot = false :=
  List.any_eq_false.mpr fun l hl => by simp [h l hl]

/-- COUNTER_REREAD looks again at a head that waits on counters. -/
theorem exec_counterReread (h : s.headPacket slot = some p) (hw : Packet.nw p ≠ 0) :
    exec (.counterReread slot) s = .next (s.tryWaiting slot p) := by
  show execCounterReread slot s = _
  simp only [execCounterReread, h, if_neg hw]

/-- Settles O43: each type of head by its own step, through what it reads and what leaves its queue. -/
theorem packetStarts : Obligations.PacketStarts := by
  unfold Obligations.PacketStarts
  intro s slot p hp ctx left launched passed waits started
  have hlaunched (i : Instr) (hty : Packet.ptype p = 1) (hi : exec i s = .next (s.tryWaiting slot p)) : launched i := by
    intro v k hv hk hfolen l hpoints
    have hf : l.folios ≠ 0 := Packet.folios_pos hfolen hpoints
    refine ⟨_, hi.trans (congrArg _ ((State.tryWaiting_launch hv hty).trans (State.startLaunch_folios hk hf))), rfl, ?_, rfl,
      rfl, rfl, rfl, rfl, rfl⟩
    exact State.queue_startPacket v slot
  have hpassed (i : Instr) (hty : Packet.ptype p = 2) (hi : exec i s = .next (s.tryWaiting slot p)) : passed i := fun v hv =>
    hi.trans (congrArg _ (State.tryWaiting_waitc hv hty))
  have hwaits (i : Instr) (hi : exec i s = .next (s.tryWaiting slot p)) : waits i := fun v hv =>
    hi.trans (congrArg _ (State.tryWaiting_short hv))
  refine ⟨fun hty => ?_, fun hty => ?_, fun hty u ks hk => ⟨fun hr => ?_, fun v js b hr hb => ?_⟩,
    fun hl => ⟨fun hty => ?_, fun hty => ?_⟩, fun hty u ks hk => ⟨fun hr => ?_, fun js hr => ?_⟩⟩
  · have hi : exec (.launchPacket slot) s = .next (s.tryWaiting slot p) := onHead_type hp hty
    exact ⟨hlaunched _ hty hi, hwaits _ hi, fun hw => ⟨hlaunched _ hty (exec_counterReread hp hw), hwaits _ (exec_counterReread hp hw)⟩⟩
  · have hi : exec (.waitcPacket slot) s = .next (s.tryWaiting slot p) := onHead_type hp hty
    exact ⟨hpassed _ hty hi, hwaits _ hi, fun hw => ⟨hpassed _ hty (exec_counterReread hp hw), hwaits _ (exec_counterReread hp hw)⟩⟩
  · exact (onHead_type hp hty).trans (congrArg _ (State.counterAdd_held hk hr))
  · refine ⟨_, (onHead_type hp hty).trans (congrArg _ (State.counterAdd_done hk hr hb)), rfl, ?_⟩
    have hv : v.queue slot = u.queue slot := by
      have h := (State.OnlyMaps.read u js).queue slot
      rwa [hb] at h
    exact hv.trans ((State.counterKeys_queue hk).trans (State.queue_startPacket s slot))
  · refine (onHead_type hp hty).trans (congrArg _ ?_)
    rw [State.slotRuns_false hl, if_neg (by decide)]
    dsimp only
    rw [State.queue_startPacket]
    rfl
  · refine (onHead_type hp hty).trans (congrArg _ ?_)
    rw [State.slotRuns_false hl]
    rfl
  · exact (onHead_type hp hty).trans (congrArg _ (State.mark_held hk hr))
  · refine ⟨_, (onHead_type hp hty).trans (congrArg _ (State.mark_done hk hr)), State.mem_write .., ?_⟩
    exact (State.queue_congr (State.queues_write ..)).trans ((State.counterKeys_queue hk).trans (State.queue_startPacket s slot))

end Sys2Proof.Machine

namespace Sys2Proof.Machine
/-! # Seats: where the engine finds a member -/

variable {s t u v : State} {w : Seat} {gid : Nat}

/-- The seat is there: a thread, a saved image, or a ghost of the list. -/
def State.HasSeat (s : State) : Seat → Prop
  | .thread _ => True
  | .image i => i < s.saved.length
  | .ghost i => i < s.ghosts.length

/-- What is in a seat depends on the threads, the saved logical cores and the ghosts. -/
structure State.SameSeats (s t : State) : Prop where
  threads : t.threads = s.threads
  saved : t.saved = s.saved
  ghosts : t.ghosts = s.ghosts

theorem State.SameSeats.refl (s : State) : s.SameSeats s := ⟨rfl, rfl, rfl⟩

theorem State.SameSeats.trans (h : s.SameSeats t) (k : t.SameSeats u) : s.SameSeats u :=
  ⟨k.threads.trans h.threads, k.saved.trans h.saved, k.ghosts.trans h.ghosts⟩

theorem State.SameSeats.thr (h : s.SameSeats t) (n : Nat) : t.thr n = s.thr n := by rw [State.thr, State.thr, h.threads]

theorem State.SameSeats.seated (h : s.SameSeats t) (w : Seat) : t.seated w = s.seated w := by
  cases w with
  | thread n => simp only [State.seated, h.thr]
  | image i => simp only [State.seated, h.saved]
  | ghost i => simp only [State.seated, h.ghosts]

theorem State.SameSeats.xchAt (h : s.SameSeats t) (w : Seat) (gid : Nat) : t.xchAt w gid = s.xchAt w gid := by
  rw [State.xchAt, State.xchAt, h.seated]

theorem State.SameSeats.hasSeat (h : s.SameSeats t) (hw : s.HasSeat w) : t.HasSeat w := by
  cases w with
  | thread n => trivial
  | image i => simpa only [State.HasSeat, h.saved] using hw
  | ghost i => simpa only [State.HasSeat, h.ghosts] using hw

theorem State.SameSeats.seat (h : s.SameSeats t) (p : LCore → Bool) : t.seat p = s.seat p := by
  have hthr : t.thr = s.thr := funext h.thr
  unfold State.seat
  rw [hthr, h.saved]

theorem State.SameSeats.exchangeSeat (h : s.SameSeats t) (gid : Nat) : t.exchangeSeat gid = s.exchangeSeat gid := by
  unfold State.exchangeSeat
  rw [h.seat, h.ghosts]

theorem State.SameSeats.memberSeat (h : s.SameSeats t) (hd : t.dev = s.dev) (gid : Nat) (g : Group) :
    t.memberSeat gid g = s.memberSeat gid g := by
  unfold State.memberSeat
  rw [h.exchangeSeat, h.seat, hd]

theorem State.SameSeats.seatCore (h : s.SameSeats t) (w : Seat) : t.seatCore w = s.seatCore w := by
  cases w <;> simp only [State.seatCore, h.saved]

/-- The logical core put into a seat is there. -/
theorem State.seated_reseat (hw : s.HasSeat w) (c : LCore) : (s.reseat w c).seated w = c := by
  cases w with
  | thread n => exact congrArg HThread.lc (State.thr_setThr_same ..)
  | image i =>
    have hi : i < s.saved.length := hw
    simp [State.reseat, State.seated, hi]
  | ghost i =>
    have hi : i < s.ghosts.length := hw
    simp [State.reseat, State.seated, hi]

theorem State.reseat_reseat (s : State) (w : Seat) (c d : LCore) : (s.reseat w c).reseat w d = s.reseat w d := by
  cases w with
  | thread n => simp only [State.reseat, State.setLcOf, State.setThr_setThr, State.thr_setThr_same]
  | image i =>
    simp only [State.reseat, List.modify_modify_eq]
    rfl
  | ghost i => simp only [State.reseat, List.set_set]

theorem State.hasSeat_reseat {w' : Seat} (hw : s.HasSeat w') (w : Seat) (c : LCore) : (s.reseat w c).HasSeat w' := by
  cases w <;> cases w' <;> simp_all [State.HasSeat, State.reseat, State.setLcOf, State.setThr]

@[simp] theorem LCore.xchIn_setXch (c : LCore) (gid : Nat) (x : XchMember) : (c.setXch gid x).xchIn gid = x := by
  simp [LCore.xchIn, LCore.setXch]

@[simp] theorem LCore.setXch_setXch (c : LCore) (gid : Nat) (x y : XchMember) : (c.setXch gid x).setXch gid y = c.setXch gid y := by
  simp [LCore.setXch]

/-- The exchange state put into a seat is there. -/
theorem State.xchAt_setXchAt (hw : s.HasSeat w) (gid : Nat) (x : XchMember) : (s.setXchAt w gid x).xchAt w gid = x := by
  rw [State.xchAt, State.setXchAt, State.seated_reseat hw, LCore.xchIn_setXch]

theorem State.seated_setXchAt (hw : s.HasSeat w) (gid : Nat) (x : XchMember) :
    (s.setXchAt w gid x).seated w = (s.seated w).setXch gid x := State.seated_reseat hw _

theorem State.setXchAt_setXchAt (hw : s.HasSeat w) (gid : Nat) (x y : XchMember) :
    (s.setXchAt w gid x).setXchAt w gid y = s.setXchAt w gid y := by
  rw [State.setXchAt, State.seated_setXchAt hw, LCore.setXch_setXch, State.setXchAt, State.reseat_reseat, State.setXchAt]

/-- A change in a seat changes nothing but the threads, the saved logical cores and the ghosts. -/
theorem State.reseat_frame (s : State) (w : Seat) (c : LCore) :
    { s.reseat w c with threads := s.threads, saved := s.saved, ghosts := s.ghosts } = s := by
  cases w <;> rfl

theorem State.setXchAt_frame (s : State) (w : Seat) (gid : Nat) (x : XchMember) :
    { s.setXchAt w gid x with threads := s.threads, saved := s.saved, ghosts := s.ghosts } = s := s.reseat_frame w _

theorem State.hasSeat_of_seat {p : LCore → Bool} (h : s.seat p = some w) : s.HasSeat w := by
  unfold State.seat at h
  split at h
  · cases h
    trivial
  · obtain ⟨i, hi, rfl⟩ := Option.map_eq_some_iff.mp h
    exact (List.findIdx?_eq_some_iff_getElem.mp hi).1

/-- The engine finds a member where it is (R368, R388). -/
theorem State.hasSeat_exchangeSeat (h : s.exchangeSeat gid = some w) : s.HasSeat w := by
  unfold State.exchangeSeat at h
  split at h
  · rename_i hs
    cases h
    exact State.hasSeat_of_seat hs
  · obtain ⟨i, hi, rfl⟩ := Option.map_eq_some_iff.mp h
    exact (List.findIdx?_eq_some_iff_getElem.mp hi).1

theorem State.hasSeat_memberSeat {g : Group} (h : s.memberSeat gid g = some w) : s.HasSeat w := by
  unfold State.memberSeat at h
  split at h
  · rename_i hs
    cases h
    exact State.hasSeat_exchangeSeat hs
  · exact State.hasSeat_of_seat h

end Sys2Proof.Machine

namespace Sys2Proof.Machine
/-! # What the engine's accesses to memory may change -/

variable {s t u v : State} {w : Seat} {gid : Nat} {who : Who} {va : Word}

/-! ## Translations and reads -/

theorem State.OnlyMaps.of_xlate {bank : Nat} {cls : AccClass} {acc : Acc} {r : Except Stop Place}
    (h : s.xlate bank who cls acc va = (t, r)) : s.OnlyMaps t := by
  have k := State.OnlyMaps.xlate s bank who cls acc va
  rwa [h] at k

theorem State.OnlyMaps.of_read {keys : List Nat} {r : Option (List Byte)} (h : s.read keys = (t, r)) : s.OnlyMaps t := by
  have k := State.OnlyMaps.read s keys
  rwa [h] at k

theorem State.OnlyMaps.of_xlateBytes {bank fuel n : Nat} {cls : AccClass} {acc : Acc} {r : Except Stop (List ByteAt)}
    (h : State.xlateBytes bank who cls acc fuel s va n = (t, r)) : s.OnlyMaps t := by
  induction fuel generalizing s va n r with
  | zero =>
    cases h
    exact .refl _
  | succ fuel ih =>
    unfold State.xlateBytes at h
    dsimp only at h
    split at h
    · cases h
      exact .refl _
    · split at h
      · rename_i hx
        cases h
        exact .of_xlate hx
      · rename_i hx
        refine (State.OnlyMaps.of_xlate hx).trans ?_
        split at h
        · cases h
          exact .refl _
        · split at h
          · rename_i hr
            cases h
            exact ih hr
          · rename_i hr
            cases h
            exact ih hr

theorem State.OnlyMaps.of_areaBlocks {base : Word} {l : List Nat} {r : Except Stop (List (Nat × Bool))}
    (h : State.areaBlocks who base l s = (t, r)) : s.OnlyMaps t := by
  induction l generalizing s r with
  | nil =>
    cases h
    exact .refl _
  | cons i l ih =>
    unfold State.areaBlocks at h
    split at h
    · rename_i hx
      cases h
      exact .of_xlate hx
    · rename_i hx
      refine (State.OnlyMaps.of_xlate hx).trans ?_
      split at h
      · cases h
        exact .refl _
      · split at h
        · rename_i hr
          cases h
          exact ih hr
        · rename_i hr
          cases h
          exact ih hr

theorem State.OnlyMaps.of_areaNum {area : List (Nat × Bool)} {off : Nat} {r : Option Word} (h : s.areaNum area off = (t, r)) :
    s.OnlyMaps t := by
  unfold State.areaNum at h
  split at h <;> rename_i hr <;> cases h <;> exact .of_read hr

theorem State.OnlyMaps.of_areaHead {area : List (Nat × Bool)} {r : Option (Word × Word × Word)} (h : s.areaHead area = (t, r)) :
    s.OnlyMaps t := by
  unfold State.areaHead at h
  split at h
  · rename_i h₁
    cases h
    exact .of_areaNum h₁
  · rename_i h₁
    refine (State.OnlyMaps.of_areaNum h₁).trans ?_
    split at h
    · rename_i h₂
      cases h
      exact .of_areaNum h₂
    · rename_i h₂
      refine (State.OnlyMaps.of_areaNum h₂).trans ?_
      split at h <;> rename_i h₃ <;> cases h <;> exact .of_areaNum h₃

theorem State.OnlyMaps.of_readUpTo {fuel n : Nat} {r : List Byte × Option Halt} (h : State.readUpTo who fuel s va n = (t, r)) :
    s.OnlyMaps t := by
  induction fuel generalizing s va n r with
  | zero =>
    cases h
    exact .refl _
  | succ fuel ih =>
    unfold State.readUpTo at h
    dsimp only at h
    split at h
    · cases h
      exact .refl _
    · split at h
      · rename_i hx
        cases h
        exact .of_xlateBytes hx
      · rename_i hx
        refine (State.OnlyMaps.of_xlateBytes hx).trans ?_
        split at h
        · rename_i hr
          cases h
          exact .of_read hr
        · rename_i hr
          cases h
          exact (State.OnlyMaps.of_read hr).trans (ih rfl)

/-! ## Stores -/

/-- A state with what another has of memory, the TLBs, the errors of the arrays and the barriers found unreachable: what
the engine's accesses reach. -/
def State.withStores (s o : State) : State :=
  { s with mem := o.mem, tlb := o.tlb, fresh := o.fresh, poison := o.poison, latent := o.latent, host := o.host, seq := o.seq,
           msix := o.msix, bondCounts := o.bondCounts, unreach := o.unreach }

/-- From one state to the other only what accesses to memory reach has changed; where no error was present none has been
met. -/
structure State.OnlyStores (s u : State) : Prop where
  frame : u.withStores s = s
  clean : s.latent = [] → u.latent = [] ∧ u.seq = s.seq

theorem State.OnlyStores.refl (s : State) : s.OnlyStores s := ⟨rfl, fun h => ⟨h, rfl⟩⟩

theorem State.OnlyStores.trans (h : s.OnlyStores t) (k : t.OnlyStores u) : s.OnlyStores u where
  frame := by
    have e : u.withStores s = (u.withStores t).withStores s := rfl
    rw [e, k.frame, h.frame]
  clean hs := by
    obtain ⟨ht, hseq⟩ := h.clean hs
    obtain ⟨hu, hseq'⟩ := k.clean ht
    exact ⟨hu, hseq'.trans hseq⟩

theorem State.OnlyMaps.stores (h : s.OnlyMaps t) : s.OnlyStores t where
  frame := by
    have k := congrArg (State.withStores · s) h.frame
    exact k
  clean hs := by
    have k := h.clean hs
    have hl := congrArg State.latent k
    have hq := congrArg State.seq k
    exact ⟨Eq.trans hl hs, hq⟩

theorem State.OnlyStores.sameSeats (h : s.OnlyStores t) : s.SameSeats t where
  threads := by
    have k := congrArg State.threads h.frame
    exact k
  saved := by
    have k := congrArg State.saved h.frame
    exact k
  ghosts := by
    have k := congrArg State.ghosts h.frame
    exact k

theorem State.OnlyMaps.sameSeats (h : s.OnlyMaps t) : s.SameSeats t := h.stores.sameSeats

/-- With no error present a word is written back as it is. -/
theorem State.rewrite_clean (h : s.latent = []) (a : Nat) : s.rewrite a = s := by
  have hm : s.meet a = s := by simp [State.meet, h]
  rw [State.rewrite, hm, h, List.filter_nil, ← h]

/-- With no error present a store meets none. -/
theorem State.merged_clean (h : s.latent = []) (keys whole : List Nat) :
    (s.merged keys whole).latent = [] ∧ (s.merged keys whole).seq = s.seq := by
  have fold (l : List Nat) (u : State) (hu : u.latent = []) : l.foldl State.rewrite u = u := by
    induction l with
    | nil => rfl
    | cons a l ih => rw [List.foldl_cons, State.rewrite_clean hu, ih]
  unfold State.merged
  split
  · exact ⟨h, rfl⟩
  · dsimp only
    rw [fold _ _ (by simp [h])]
    exact ⟨by simp [h], rfl⟩

theorem State.OnlyStores.write (s : State) (l : List (Nat × Byte)) : s.OnlyStores (s.write l) where
  frame := by
    have k := congrArg (State.withStores · s) (State.withErrors_write s l)
    exact k
  clean h := State.merged_clean (s := s.poke l) h _ _

theorem State.OnlyStores.putArea (s : State) (area : List (Nat × Bool)) (off n x : Nat) : s.OnlyStores (s.putArea' area off n x) := by
  unfold State.putArea'
  split
  · exact .refl s
  · exact .write ..

/-- A loop whose every step only stores only stores. -/
theorem State.OnlyStores.foldl {α : Type} {f : State → α → State} (h : ∀ (s : State) a, s.OnlyStores (f s a)) (l : List α) (s : State) :
    s.OnlyStores (l.foldl f s) := by
  induction l generalizing s with
  | nil => exact .refl s
  | cons a l ih => exact (h s a).trans (ih _)

theorem State.OnlyStores.writeArea (s : State) (x : XchMember) (rank : Nat) (m : GrantsMsg) : s.OnlyStores (s.writeArea x rank m) := by
  have put (s : State) (off n v : Nat) := State.OnlyStores.putArea s x.area off n v
  unfold State.writeArea
  dsimp only
  refine State.OnlyStores.trans (State.OnlyStores.trans ?_ (.foldl (fun s g => ?_) _ _)) (put ..)
  · refine State.OnlyStores.trans ?_ (.foldl (fun s y => (put ..).trans (put ..)) _ _)
    exact ((((put ..).trans (put ..)).trans (put ..)).trans (put ..)).trans (put ..)
  · exact (((((put ..).trans (put ..)).trans (put ..)).trans (put ..)).trans (put ..)).trans (put ..)

theorem State.OnlyStores.of_landBytes {rbuf : Word} {fuel at_ : Nat} {b : List Byte} {r : List Nat × Option Halt}
    (h : s.landBytes who rbuf fuel at_ b = (t, r)) : s.OnlyStores t := by
  induction fuel generalizing s at_ b r with
  | zero =>
    cases h
    exact .refl _
  | succ fuel ih =>
    unfold State.landBytes at h
    dsimp only at h
    split at h
    · cases h
      exact .refl _
    · split at h
      · rename_i hx
        cases h
        exact (State.OnlyMaps.of_xlateBytes hx).stores
      · rename_i hx
        cases h
        exact (State.OnlyMaps.of_xlateBytes hx).stores.trans ((State.OnlyStores.write ..).trans (ih rfl))

end Sys2Proof.Machine

namespace Sys2Proof.Machine
/-! # What a killed context leaves of the calendars -/

variable {s t u v : State} {w : Seat} {gid : Nat}

/-- The Imposers and the bytes that came early are as they were, and nothing that is on its way to other devices is
lost. -/
structure State.KeepsCalendars (s t : State) : Prop where
  imposers : t.imposers = s.imposers
  early : t.early = s.early
  outbox : s.outbox ⊆ t.outbox

theorem State.KeepsCalendars.refl (s : State) : s.KeepsCalendars s := ⟨rfl, rfl, List.Subset.refl _⟩

theorem State.KeepsCalendars.trans (h : s.KeepsCalendars t) (k : t.KeepsCalendars u) : s.KeepsCalendars u :=
  ⟨k.imposers.trans h.imposers, k.early.trans h.early, List.Subset.trans h.outbox k.outbox⟩

theorem State.KeepsCalendars.of_eq (hi : t.imposers = s.imposers) (he : t.early = s.early) (ho : t.outbox = s.outbox) :
    s.KeepsCalendars t := ⟨hi, he, ho ▸ List.Subset.refl _⟩

/-- What is sent joins what is on its way. -/
theorem State.KeepsCalendars.sent (hi : t.imposers = s.imposers) (he : t.early = s.early) {l : List OutMsg}
    (ho : t.outbox = s.outbox ++ l) : s.KeepsCalendars t := ⟨hi, he, ho ▸ List.subset_append_left ..⟩

theorem State.OnlyStores.keepsCalendars (h : s.OnlyStores t) : s.KeepsCalendars t := by
  have hi := congrArg State.imposers h.frame
  have he := congrArg State.early h.frame
  have ho := congrArg State.outbox h.frame
  exact .of_eq hi he ho

/-- What every step of a loop keeps, the loop keeps. -/
theorem State.KeepsCalendars.foldl {α : Type} {f : State → α → State} (h : ∀ (s : State) a, s.KeepsCalendars (f s a)) (l : List α)
    (s : State) : s.KeepsCalendars (l.foldl f s) := by
  induction l generalizing s with
  | nil => exact .refl s
  | cons a l ih => exact (h s a).trans (ih _)

theorem State.KeepsCalendars.putBack (s : State) (a n x : Nat) : s.KeepsCalendars (s.putBack a n x) := .of_eq rfl rfl rfl

theorem State.KeepsCalendars.barForget (s : State) (b : Nat) : s.KeepsCalendars (s.barForget b) := .of_eq rfl rfl rfl

theorem State.KeepsCalendars.barComplete (s : State) (b : Nat) : s.KeepsCalendars (s.barComplete b) := by
  unfold State.barComplete
  split
  · exact (((State.KeepsCalendars.putBack ..).trans (.putBack ..)).trans (.putBack ..)).trans (.barForget ..)
  · exact .refl s

theorem State.KeepsCalendars.barUnreach (s : State) (b : Nat) : s.KeepsCalendars (s.barUnreach b) := by
  unfold State.barUnreach
  split
  · exact .of_eq rfl rfl rfl
  · exact .barForget ..

theorem State.KeepsCalendars.barLeave (s : State) (m : Membership) : s.KeepsCalendars (s.barLeave m) := by
  grind [State.barLeave, State.KeepsCalendars.trans, State.KeepsCalendars.putBack, State.KeepsCalendars.barComplete,
    State.KeepsCalendars.barUnreach]

/-- One membership left, if its object can be read (R435). -/
def State.barLeaveNext (a : State × Bool) (m : Membership) : State × Bool :=
  match a.1.read (keysFrom m.home 64) with
  | (s, none) => (s, true)
  | (s, some _) => (s.barLeave m, a.2)

theorem State.barLeaveAll_eq (s : State) (c : LCore) : s.barLeaveAll c = c.barriers.foldl State.barLeaveNext (s, false) := rfl

theorem State.KeepsCalendars.barLeaveAll (s : State) (c : LCore) : s.KeepsCalendars (s.barLeaveAll c).1 := by
  have step (a : State × Bool) (m : Membership) : a.1.KeepsCalendars (State.barLeaveNext a m).1 := by
    unfold State.barLeaveNext
    split
    · rename_i h
      exact (State.OnlyMaps.of_read h).stores.keepsCalendars
    · rename_i t b h
      dsimp only
      exact (State.OnlyMaps.of_read h).stores.keepsCalendars.trans (State.KeepsCalendars.barLeave t m)
  have fold (l : List Membership) (a : State × Bool) : a.1.KeepsCalendars (l.foldl State.barLeaveNext a).1 := by
    induction l generalizing a with
    | nil => exact .refl _
    | cons m l ih => exact (step a m).trans (ih _)
  rw [State.barLeaveAll_eq]
  exact fold c.barriers (s, false)

theorem State.KeepsCalendars.unblockPushes (s : State) (c : LCore) : s.KeepsCalendars (s.unblockPushes c) := .sent rfl rfl rfl

theorem State.KeepsCalendars.giveBack (s : State) (n : Nat) (l : List LeaveKind) : s.KeepsCalendars (s.giveBack n l) := .of_eq rfl rfl rfl

theorem State.KeepsCalendars.freeHeld (s : State) (c : LCore) (n : Option Nat) : s.KeepsCalendars (s.freeHeld c n) := by
  have hleave := (State.KeepsCalendars.barLeaveAll s c).trans
    (.foldl (fun s (p : Nat × XchMember) => .giveBack s (Config.threads + p.1) [.xgo]) (c.xchs.filter (·.2.active)) _)
  have hpush := hleave.trans (.unblockPushes _ c)
  unfold State.freeHeld
  dsimp only
  cases n with
  | none => exact hpush.trans (.sent rfl rfl rfl)
  | some n => exact hpush.trans (.sent rfl rfl rfl)

theorem State.KeepsCalendars.vacate (s : State) (n : Nat) : s.KeepsCalendars (s.vacate n) := .of_eq rfl rfl rfl

theorem State.KeepsCalendars.endLaunch (s : State) (seq : Nat) : s.KeepsCalendars (s.endLaunch seq) := .of_eq rfl rfl rfl

/-- A kill leaves the Imposers and what came early, and what is on its way stays on it (R435). -/
theorem State.KeepsCalendars.kill (s : State) (ctx : Nat) (cause : BitVec 8) (thr : Nat) : s.KeepsCalendars (s.kill ctx cause thr) := by
  have hgone (l : List OutMsg) : s.KeepsCalendars { s with outbox := s.outbox ++ l } := .sent rfl rfl rfl
  have hthreads (l : List Nat) (s : State) :
      s.KeepsCalendars (l.foldl (fun (s : State) n => (s.freeHeld (s.thr n).lc (some n)).vacate n) s) :=
    .foldl (fun s n => (State.KeepsCalendars.freeHeld s (s.thr n).lc (some n)).trans (.vacate _ n)) l s
  have hsaved (l : List SavedLc) (s : State) : s.KeepsCalendars (l.foldl (fun (s : State) i => s.freeHeld i.lc none) s) :=
    .foldl (fun s i => .freeHeld s i.lc none) l s
  have hlaunches (l : List Launch) (s : State) : s.KeepsCalendars (l.foldl (fun (s : State) l => s.endLaunch l.seq) s) :=
    .foldl (fun s l => .endLaunch s l.seq) l s
  unfold State.kill
  dsimp only
  have hfreed (l : List OutMsg) (ns : List Nat) (is : List SavedLc) := ((hgone l).trans (hthreads ns _)).trans (hsaved is _)
  have hcleared (saved : List SavedLc) (contexts : List Nat) (queues : FMap Queue) (u : State) :
      u.KeepsCalendars { u with saved := saved, contexts := contexts, queues := queues } := .of_eq rfl rfl rfl
  have hended (host : HostRegs) (msix : List Nat) (u : State) : u.KeepsCalendars { u with host := host, msix := msix } := .of_eq rfl rfl rfl
  exact (((hfreed _ _ _).trans (hcleared _ _ _ _)).trans (hlaunches _ _)).trans (hended _ _ _)

end Sys2Proof.Machine

namespace Sys2Proof.Machine
/-! # The Imposer, its standby and the rows that reach them -/

variable {s t u v : State} {w : Seat} {gid : Nat} {g : Group} {m : DemandMsg} {x y : Imposition}

@[simp] theorem State.imposer?_setImposer (s : State) (y : Imposition) : (s.setImposer y).imposer? y.gid = some y := by
  simp [State.imposer?, State.setImposer]

theorem State.imposer?_setImposer_of_gid (s : State) (h : y.gid = gid) : (s.setImposer y).imposer? gid = some y :=
  h ▸ s.imposer?_setImposer y

theorem State.gid_of_imposer? (h : s.imposer? gid = some x) : x.gid = gid := by
  simpa using List.find?_some h

theorem Imposition.leads_iff (x : Imposition) : x.leads = true ↔ x.place = 0 ∨ x.lead = true := by
  simp [Imposition.leads]

/-! ## A fixed calendar (R385, R386) -/

/-- A map without the keys that fail a test. -/
theorem FMap.get?_filter {α : Type} (m : FMap α) (p : Nat → Bool) (n : Nat) :
    FMap.get? (m.filter fun e => p e.1) n = if p n then FMap.get? m n else none := by
  induction m with
  | nil => simp [FMap.get?]
  | cons e m ih =>
    obtain ⟨k, a⟩ := e
    by_cases hk : p k
    · by_cases hkn : k = n
      · subst hkn
        simp [List.filter, hk, FMap.get?]
      · simp [List.filter, hk, FMap.get?, hkn, ih]
    · by_cases hkn : k = n
      · subst hkn
        simp [List.filter, hk, ih]
      · simp [List.filter, hk, FMap.get?, hkn, ih]

theorem FMap.get?_map {α β : Type} (m : FMap α) (f : α → β) (n : Nat) :
    FMap.get? (m.map fun e => (e.1, f e.2)) n = (FMap.get? m n).map f := by
  induction m with
  | nil => rfl
  | cons e m ih =>
    by_cases hk : e.1 = n
    · simp [FMap.get?, hk]
    · simp [FMap.get?, hk, ih]

theorem State.mem_liveRanks {r : Nat} : r ∈ s.liveRanks g ↔ r < g.n ∧ s.isDead g r = false := by
  simp [State.liveRanks, State.isDead]

/-- A row of a calendar as it is fixed: nothing is asked of dead members (R386). -/
def State.aliveRow (s : State) (g : Group) (l : List Nat) : List Nat := l.zipIdx.map fun d => if s.isDead g d.2 then 0 else d.1

/-- The rows of a fixed calendar: those of live members, without demand to dead ones (R386). -/
theorem State.fixNow_rows (s : State) (g : Group) (x : Imposition) {r : Nat} (hr : r < g.n) :
    FMap.get? (s.fixNow g x).rows r = if r ∈ s.liveRanks g then (FMap.get? x.rows r).map fun l =>
      l.zipIdx.map fun d => if s.isDead g d.2 then 0 else d.1 else none := by
  have h : FMap.get? (s.fixNow g x).rows r = (FMap.get? (x.rows.filter fun e => !s.isDead g e.1) r).map (s.aliveRow g) :=
    FMap.get?_map _ (s.aliveRow g) r
  rw [h, FMap.get?_filter x.rows (fun k => !s.isDead g k)]
  simp only [State.mem_liveRanks, hr, true_and]
  cases s.isDead g r with
  | false => rfl
  | true => rfl

/-! ## DEMAND_ROW (R384, R385) -/

/-- A member notes that a row of its was discarded: DROP for an added one, NOROW for the first (R384, R385). -/
theorem State.discardRow_own (hr : g.rankOf s.dev = some m.rank) (hw : s.memberSeat m.gid g = some w) :
    s.discardRow g m
      = s.setXchAt w m.gid { s.xchAt w m.gid with flags := (s.xchAt w m.gid).flags ||| if m.add then 8 else 64 } := by
  rw [State.discardRow, if_pos hr, hw]
  cases m.add <;> rfl

/-- The row of a member of another device goes back to it. -/
theorem State.discardRow_other (hr : g.rankOf s.dev ≠ some m.rank) :
    s.discardRow g m = { s with outbox := s.outbox ++ [.row { m with back := true }] } := by
  rw [State.discardRow, if_neg hr]

/-- A row that comes back is noted by its member. -/
theorem execDemandRow_back (hg : s.group? m.gid = some g) (hb : m.back = true) :
    execDemandRow m s = .next (if g.rankOf s.dev = some m.rank then s.discardRow g m else s) := by
  rw [execDemandRow, hg]
  simp only [hb, if_true]

/-- The row missed the fix of its calendar, or is to be added to none (R384, R385). -/
def State.MissedRow (s : State) (m : DemandMsg) : Prop :=
  (s.imposer? m.gid = none ∧ m.add = true) ∨ ∃ x, s.imposer? m.gid = some x
    ∧ (m.gen < x.firstGen ∨ (m.add = true ∧ (x.fixedAt.isSome = true ∨ FMap.get? x.rows m.rank = none)))

theorem State.missedRow_iff (s : State) (m : DemandMsg) :
    (match s.imposer? m.gid with
      | none => m.add
      | some x => x.missedBy m) = true ↔ s.MissedRow m := by
  unfold State.MissedRow
  cases s.imposer? m.gid with
  | none => simp
  | some x => simp [Imposition.missedBy]

section
variable (hg : s.group? m.gid = some g) (hb : m.back = false) (hn : m.rank < g.n)
include hg hb hn

theorem execDemandRow_missed (hm : s.MissedRow m) : execDemandRow m s = .next (s.discardRow g m) := by
  rw [execDemandRow, hg]
  simp only [hb, Bool.false_eq_true, if_false, if_neg (Nat.not_le.mpr hn)]
  exact if_pos ((s.missedRow_iff m).mpr hm)

end

/-- An Imposition with a row recorded, and what the rebuilt calendar tells of it (R384, R385, R396). -/
def Imposition.record (x : Imposition) (m : DemandMsg) (now : Nat) : Imposition :=
  let row := if m.add then addRows ((FMap.get? x.rows m.rank).getD []) m.row else m.row
  let x : Imposition := if x.rows.isEmpty then { x with firstAt := now, cdl := m.cdl } else x
  let x : Imposition := { x with rows := FMap.set x.rows m.rank (row.map (· % 2 ^ 64)) }
  if m.sent.isEmpty then x else
    { x with sent := FMap.set x.sent m.rank m.sent, layout := FMap.set x.layout m.rank m.row, firstGen := m.gen }

theorem execDemandRow_recorded (hg : s.group? m.gid = some g) (hb : m.back = false) (hn : m.rank < g.n) (hm : ¬ s.MissedRow m) :
    execDemandRow m s = .next (s.setImposer (
      if s.allPosted g ((s.imposition g m).record m s.dtime) && ((s.imposition g m).record m s.dtime).leads then
        s.fixNow g ((s.imposition g m).record m s.dtime) else (s.imposition g m).record m s.dtime)) := by
  rw [execDemandRow, hg]
  simp only [hb, Bool.false_eq_true, if_false, if_neg (Nat.not_le.mpr hn)]
  exact if_neg (mt (s.missedRow_iff m).mp hm)

/-- What a record leaves of an Imposition, and the row that it sets. -/
theorem Imposition.record_fields (x : Imposition) (m : DemandMsg) (now : Nat) :
    (x.record m now).gid = x.gid ∧ (x.record m now).gen = x.gen ∧ (x.record m now).fixedAt = x.fixedAt
      ∧ (x.record m now).place = x.place ∧ (x.record m now).lead = x.lead
      ∧ (x.record m now).rows = FMap.set x.rows m.rank
          ((if m.add then addRows ((FMap.get? x.rows m.rank).getD []) m.row else m.row).map (· % 2 ^ 64))
      ∧ (x.rows = [] → (x.record m now).firstAt = now ∧ (x.record m now).cdl = m.cdl) := by
  unfold Imposition.record
  by_cases hr : x.rows = [] <;> by_cases hs : m.sent = [] <;> simp [hr, hs]

theorem FMap.set_ne_nil {α : Type} (m : FMap α) (n : Nat) (a : α) : FMap.set m n a ≠ [] := by
  unfold FMap.set
  split
  · simp
  · split
    · simp
    · split <;> simp

theorem State.allPosted_iff (s : State) (g : Group) (h : x.rows ≠ []) :
    s.allPosted g x = true ↔ ∀ r ∈ s.liveRanks g, (FMap.get? x.rows r).isSome = true := by
  simp [State.allPosted, h]

/-- The Imposition in which a row is recorded has its group's number, and is not fixed (R385, R397). -/
theorem State.imposition_fields (s : State) (g : Group) (m : DemandMsg) :
    (s.imposition g m).gid = m.gid ∧ (s.imposition g m).fixedAt = none := by
  unfold State.imposition
  dsimp only
  generalize (if s.imposerAt g 0 = true then 0 else 1) = place
  split
  · exact ⟨rfl, rfl⟩
  · rename_i x hx
    split
    · exact ⟨rfl, rfl⟩
    · have hgid := State.gid_of_imposer? hx
      exact ⟨hgid, by simp_all⟩

/-- A recorded row: the Imposition of the group then holds it, and its calendar is fixed when it was the last (R385). -/
theorem execDemandRow_records (hg : s.group? m.gid = some g) (hb : m.back = false) (hn : m.rank < g.n) (hm : ¬ s.MissedRow m) :
    let x := s.imposition g m
    let rows := FMap.set x.rows m.rank
      ((if m.add then addRows ((FMap.get? x.rows m.rank).getD []) m.row else m.row).map (· % 2 ^ 64))
    let all : Prop := (∀ r ∈ s.liveRanks g, (FMap.get? rows r).isSome = true) ∧ (x.place = 0 ∨ x.lead = true)
    ∃ (t : State) (y : Imposition), execDemandRow m s = .next t ∧ t.imposer? m.gid = some y ∧ t.mem = s.mem ∧ t.threads = s.threads
      ∧ (¬ all → y.rows = rows ∧ y.fixedAt = none ∧ y.gen = x.gen ∧ (x.rows = [] → y.firstAt = s.dtime ∧ y.cdl = m.cdl))
      ∧ (all → y.fixedAt = some s.dtime ∧ y.gen = (x.gen + 1) % 2 ^ 32 ∧ y.t0 = 1000 * ((s.dtime + 999) / 1000) + 5000
          ∧ y.written = false ∧ ∀ r, r < g.n → FMap.get? y.rows r = if r ∈ s.liveRanks g then (FMap.get? rows r).map fun l =>
              l.zipIdx.map fun d => if s.isDead g d.2 then 0 else d.1 else none) := by
  intro x rows all
  obtain ⟨hgid, hgen, hfixed, hplace, hlead, hrows, hfirst⟩ := x.record_fields m s.dtime
  obtain ⟨hxgid, hxfixed⟩ := s.imposition_fields g m
  have hexec := execDemandRow_recorded hg hb hn hm
  have hne : (x.record m s.dtime).rows ≠ [] := by
    rw [hrows]
    exact FMap.set_ne_nil _ _ _
  have hall : (s.allPosted g (x.record m s.dtime) && (x.record m s.dtime).leads) = true ↔ all := by
    rw [Bool.and_eq_true, s.allPosted_iff g hne, Imposition.leads_iff, hrows, hplace, hlead]
  by_cases ha : all
  · rw [if_pos (hall.mpr ha)] at hexec
    refine ⟨_, _, hexec, s.imposer?_setImposer_of_gid (hgid.trans hxgid), rfl, rfl, fun h => absurd ha h,
      fun _ => ⟨rfl, ?_, rfl, rfl, fun r hr => ?_⟩⟩
    · rw [← hgen]
      rfl
    · rw [s.fixNow_rows g _ hr, hrows]
  · rw [if_neg (mt hall.mp ha)] at hexec
    exact ⟨_, _, hexec, s.imposer?_setImposer_of_gid (hgid.trans hxgid), rfl, rfl,
      fun _ => ⟨hrows, hfixed.trans hxfixed, hgen, hfirst⟩, fun h => absurd h ha⟩

/-- An Imposition that its standby has taken over, with what its pairs have sent (R396). -/
def Imposition.takenOver (x : Imposition) (g : Group) (now : Nat) : Imposition :=
  { x with lead := true, missed := 0, sent := x.sentBy g.xrate g.n now, rebuilt := true }

/-! ## The deadline, heartbeats and the standby (R385, R396) -/

section
variable (hg : s.group? gid = some g) (hx : s.imposer? gid = some x)
include hx

theorem execImposerHeartbeat_leads (hl : x.leads = true) (heard : Bool) :
    execImposerHeartbeat gid heard s = .next { s with outbox := s.outbox ++ [.heartbeat gid] } := by
  simp only [execImposerHeartbeat, hx, hl, if_true]

theorem execImposerHeartbeat_standby (hl : ¬ x.leads = true) (heard : Bool) :
    execImposerHeartbeat gid heard s = .next (s.setImposer { x with missed := if heard then 0 else x.missed + 1 }) := by
  simp only [execImposerHeartbeat, hx, if_neg hl]

include hg

theorem execStandbyTakeover_not (h : x.missed < 3 ∨ x.leads = true) : execStandbyTakeover gid s = .next s := by
  simp only [execStandbyTakeover, hg, hx, if_pos h]

/-- A standby that has missed three heartbeats takes over (R396). -/
theorem execStandbyTakeover_leads (hm : 3 ≤ x.missed) (hl : ¬ x.leads = true) :
    execStandbyTakeover gid s = .next { s.setImposer (s.fixNow g (x.takenOver g s.dtime)) with
      outbox := s.outbox ++ (if x.layout.isEmpty then x.rows else x.layout).map fun r => OutMsg.row ⟨gid, r.1, false, r.2, x.cdl, x.gen, false,
        if x.layout.isEmpty then [] else (FMap.get? (x.takenOver g s.dtime).sent r.1).getD []⟩ } := by
  have hno : ¬ (x.missed < 3 ∨ x.leads = true) := not_or.mpr ⟨by omega, hl⟩
  rw [execStandbyTakeover, hg, hx]
  exact if_neg hno

/-- It fixes the calendar anew, and tells the next standby of the rows (R396). -/
theorem execStandbyTakeover_takes (hm : 3 ≤ x.missed) (hl : ¬ x.leads = true) :
    ∃ (t : State) (y : Imposition), execStandbyTakeover gid s = .next t
      ∧ t.imposer? gid = some y ∧ y.lead = true ∧ y.rebuilt = true ∧ y.fixedAt = some s.dtime ∧ y.gen = (x.gen + 1) % 2 ^ 32
      ∧ y.written = false ∧ y.missed = 0 ∧ t.mem = s.mem
      ∧ (x.layout = [] → t.outbox = s.outbox ++ x.rows.map fun r => .row ⟨gid, r.1, false, r.2, x.cdl, x.gen, false, []⟩)
      ∧ (x.layout ≠ [] → y.layout = x.layout
        ∧ t.outbox = s.outbox ++ x.layout.map fun r => .row ⟨gid, r.1, false, r.2, x.cdl, x.gen, false, (FMap.get? y.sent r.1).getD []⟩) := by
  have hgid := State.gid_of_imposer? hx
  refine ⟨_, s.fixNow g (x.takenOver g s.dtime), execStandbyTakeover_leads hg hx hm hl,
    s.imposer?_setImposer_of_gid (y := s.fixNow g (x.takenOver g s.dtime)) hgid, rfl, rfl, rfl, rfl, rfl, rfl, rfl, fun h => ?_, fun h => ⟨?_, ?_⟩⟩
  · rw [h]
    rfl
  · have hl : (s.fixNow g (x.takenOver g s.dtime)).layout
        = if x.layout.isEmpty then ((x.takenOver g s.dtime).alive (s.isDead g)).rows else x.layout := rfl
    simp [hl, h]
  · have hne : ¬ x.layout.isEmpty = true := by simpa using h
    simp only [if_neg hne]
    rfl

end

end Sys2Proof.Machine

namespace Sys2Proof.Machine
/-! # A member takes its area, and accepts its grants -/

variable {s t u v : State} {w : Seat} {gid : Nat} {g : Group} {x : Imposition}

/-! ## The area of a member without a row (R382, R385) -/

theorem State.KeepsCalendars.reseat (s : State) (w : Seat) (c : LCore) : s.KeepsCalendars (s.reseat w c) := by
  have h := s.reseat_frame w c
  have hi := congrArg State.imposers h
  have he := congrArg State.early h
  have ho := congrArg State.outbox h
  exact .of_eq hi he ho

theorem State.KeepsCalendars.setXchAt (s : State) (w : Seat) (gid : Nat) (x : XchMember) : s.KeepsCalendars (s.setXchAt w gid x) :=
  .reseat ..

/-- The area of a member's exchange, taken late: the accesses of the engine, perhaps a kill. -/
theorem State.KeepsCalendars.lateArea (s : State) (w : Seat) (gid : Nat) (g : Group) : s.KeepsCalendars (s.lateArea w gid g).1 := by
  unfold State.lateArea
  dsimp only
  split
  · rename_i h
    exact (State.OnlyMaps.of_areaBlocks h).stores.keepsCalendars
  · rename_i h
    exact (State.OnlyMaps.of_areaBlocks h).stores.keepsCalendars.trans (.kill ..)
  · rename_i h
    exact (State.OnlyMaps.of_areaBlocks h).stores.keepsCalendars
  · rename_i h
    refine (State.OnlyMaps.of_areaBlocks h).stores.keepsCalendars.trans ?_
    split
    · rename_i k
      exact (State.OnlyMaps.of_areaHead k).stores.keepsCalendars.trans (.kill ..)
    · rename_i k
      exact (State.OnlyMaps.of_areaHead k).stores.keepsCalendars

theorem State.KeepsCalendars.takeArea (s : State) (gid : Nat) (g : Group) : s.KeepsCalendars (s.takeArea gid g) := by
  unfold State.takeArea
  split
  · exact .refl s
  · rename_i w hw
    have h := State.KeepsCalendars.lateArea s w gid g
    dsimp only
    split
    · exact .refl s
    · split
      · rename_i e
        rwa [e] at h
      · rename_i e
        rw [e] at h
        exact h.trans (.setXchAt ..)

/-- A member with an exchange under way keeps its area. -/
theorem State.takeArea_busy (h : ∀ w, s.memberSeat gid g = some w → (s.xchAt w gid).active = true ∧ (s.xchAt w gid).complete = false) :
    s.takeArea gid g = s := by
  unfold State.takeArea
  split
  · rfl
  · rename_i w hw
    obtain ⟨ha, hc⟩ := h w hw
    simp [ha, hc]

/-- The exchange of a member whose area is taken late, with its area and header (R382). -/
def State.lateXch (s : State) (w : Seat) (gid : Nat) (g : Group) (area : List (Nat × Bool)) (sb rb rl : Word) : XchMember :=
  { (s.xchAt w gid).anew gid with
    dposted := (s.xchAt w gid).dposted, core := s.seatCore w, flags := (s.xchAt w gid).flags ||| s.firstFlags g,
    area := area, sbuf := sb, rbuf := rb, rlen := rl }

/-- A member without an exchange under way has its area taken, where it translates and is free of poison (R382, R440). -/
theorem State.takeArea_taken {area : List (Nat × Bool)} {z : State} {sb rb rl : Word} (hw : s.memberSeat gid g = some w)
    (hi : (s.xchAt w gid).active = false ∨ (s.xchAt w gid).complete = true)
    (hu : State.areaBlocks ⟨some (s.seatCore w), (s.seated w).job.ctx, (s.seated w).level⟩ (s.seated w).xbase (List.range 6) s = (u, .ok area))
    (hz : u.areaHead area = (z, some (sb, rb, rl))) :
    s.takeArea gid g = z.setXchAt w gid (s.lateXch w gid g area sb rb rl) := by
  have hbusy : ¬ ((s.xchAt w gid).active && !(s.xchAt w gid).complete) = true := by
    rcases hi with h | h <;> simp [h]
  have hlate : s.lateArea w gid g = (z, some (s.lateXch w gid g area sb rb rl)) := by
    unfold State.lateArea
    simp only [hu, hz]
    rfl
  unfold State.takeArea
  simp only [hw, if_neg hbusy, hlate]

/-- Whether a member's device leads or not, its engine is the same; so are its seats once an Imposition is set. -/
theorem State.sameSeats_setImposer (s : State) (y : Imposition) : s.SameSeats (s.setImposer y) := ⟨rfl, rfl, rfl⟩

/-! ## CALENDAR_DEADLINE (R385) -/

/-- The deadline of a calendar has come: CDL ns after its first row it is not fixed (R385). -/
def Imposition.Due (x : Imposition) (now : Nat) : Prop := x.fixedAt = none ∧ x.rows ≠ [] ∧ x.cdl ≠ 0 ∧ x.firstAt + x.cdl ≤ now

section
variable (hg : s.group? gid = some g) (hx : s.imposer? gid = some x)
include hg hx

theorem execCalendarDeadline_early (hl : x.leads = true) (hd : ¬ x.Due s.dtime) : execCalendarDeadline gid s = .next s := by
  have hd' : ¬ (x.fixedAt.isNone ∧ x.rows ≠ [] ∧ x.cdl ≠ 0 ∧ x.firstAt + x.cdl ≤ s.dtime) := by
    rwa [Option.isNone_iff_eq_none]
  rw [execCalendarDeadline, hg, hx]
  dsimp only
  rw [hl, if_neg (by decide), if_neg hd']

theorem execCalendarDeadline_due (hl : x.leads = true) (hd : x.Due s.dtime) :
    execCalendarDeadline gid s = .next ((s.setImposer (s.fixNow g x)).takeArea gid g) := by
  have hd' : x.fixedAt.isNone ∧ x.rows ≠ [] ∧ x.cdl ≠ 0 ∧ x.firstAt + x.cdl ≤ s.dtime := by
    rwa [Option.isNone_iff_eq_none]
  rw [execCalendarDeadline, hg, hx]
  dsimp only
  rw [hl, if_neg (by decide), if_pos hd']

theorem execCalendarDeadline_standby (hl : ¬ x.leads = true) : execCalendarDeadline gid s = .next (s.takeArea gid g) := by
  have hl' : (!x.leads) = true := by simpa using hl
  simp only [execCalendarDeadline, hg, hx, if_pos hl']

end

end Sys2Proof.Machine

namespace Sys2Proof.Machine
/-! # Joining an exchange, and accepting a calendar -/

variable {s t u v : State} {w : Seat} {gid : Nat} {g : Group} {x y : XchMember} {rank : Nat} {m : GrantsMsg}

/-! ## Joining (R388, R389) -/

/-- The exchange of an engine that joins: the sends of sheets already past go to the loose tail (R389). -/
def XchMember.join (x : XchMember) (now : Nat) : XchMember :=
  let past := x.missed now
  let y : XchMember := { x with
    joined := true, started := x.started ++ past.map (·.1), dests := addTail x.dests (past.map (·.2)) }
  if past.isEmpty then y else y.flag 1

/-- The engine of an armed member with grants and leave may join, when what VSTP had pushed before is in memory (R189, R388). -/
def State.mayJoin (s : State) (gid : Nat) (x : XchMember) : Bool :=
  x.armed && x.granted && !x.joined && !x.disarmed && x.after.isEmpty && s.hasLeave (xgoLeave gid)

theorem State.joinExchange_eq (s : State) (w : Seat) (gid : Nat) :
    s.joinExchange w gid
      = if s.mayJoin gid (s.xchAt w gid) then s.setXchAt w gid ((s.xchAt w gid).join s.dtime) else s := rfl

/-- Joining changes what has started, the loose tail, and the flags. -/
theorem XchMember.join_fields (x : XchMember) (now : Nat) :
    x.join now = { x with joined := true, started := (x.join now).started, dests := (x.join now).dests, flags := (x.join now).flags } := by
  unfold XchMember.join
  dsimp only
  split <;> rfl

/-- The ready flits of a member are not asked as it joins. -/
theorem XchMember.join_ready (x : XchMember) (r : List (Nat × Option Nat)) (now : Nat) :
    ({ x with ready := r } : XchMember).join now = { x.join now with ready := r } := by
  have hm : ({ x with ready := r } : XchMember).missed now = x.missed now := rfl
  by_cases h : (x.missed now).isEmpty <;> simp [XchMember.join, hm, h, XchMember.flag]

/-- The exchange of a member once it has joined, if it may. -/
theorem State.xchAt_joinExchange (hw : s.HasSeat w) (gid : Nat) : (s.joinExchange w gid).xchAt w gid
    = if s.mayJoin gid (s.xchAt w gid) then (s.xchAt w gid).join s.dtime else s.xchAt w gid := by
  rw [State.joinExchange_eq]
  split
  · exact State.xchAt_setXchAt hw gid _
  · rfl

theorem State.joinExchange_frame (s : State) (w : Seat) (gid : Nat) :
    { s.joinExchange w gid with threads := s.threads, saved := s.saved, ghosts := s.ghosts } = s := by
  rw [State.joinExchange_eq]
  split
  · exact s.setXchAt_frame w gid _
  · rfl

theorem State.hasSeat_joinExchange (hw : s.HasSeat w) (gid : Nat) : (s.joinExchange w gid).HasSeat w := by
  rw [State.joinExchange_eq]
  split
  · exact State.hasSeat_reseat hw _ _
  · exact hw

/-- Whether it joins or not, a member's exchange keeps what is not its own sends. -/
theorem State.xchAt_joinExchange_fields (hw : s.HasSeat w) (gid : Nat) : ∃ j st d f, (s.joinExchange w gid).xchAt w gid
    = { s.xchAt w gid with joined := j, started := st, dests := d, flags := f } := by
  rw [State.xchAt_joinExchange hw]
  split
  · exact ⟨_, _, _, _, (s.xchAt w gid).join_fields s.dtime⟩
  · exact ⟨_, _, _, _, rfl⟩

/-- A logical core that joins keeps all but its exchange. -/
theorem State.seated_joinExchange (hw : s.HasSeat w) (gid : Nat) :
    (s.joinExchange w gid).seated w = s.seated w
      ∨ (s.joinExchange w gid).seated w = (s.seated w).setXch gid ((s.xchAt w gid).join s.dtime) := by
  rw [State.joinExchange_eq]
  split
  · exact .inr (State.seated_setXchAt hw gid _)
  · exact .inl rfl

theorem State.KeepsCalendars.joinExchange (s : State) (w : Seat) (gid : Nat) : s.KeepsCalendars (s.joinExchange w gid) := by
  rw [State.joinExchange_eq]
  split
  · exact .setXchAt ..
  · exact .refl s

/-- What is on its way to other devices does not matter to a join. -/
theorem State.joinExchange_outbox (s : State) (w : Seat) (gid : Nat) (l : List OutMsg) :
    ({ s with outbox := l } : State).joinExchange w gid = { s.joinExchange w gid with outbox := l } := by
  have hx : ({ s with outbox := l } : State).xchAt w gid = s.xchAt w gid := by cases w <;> rfl
  rw [State.joinExchange_eq, State.joinExchange_eq, hx]
  have hj : ({ s with outbox := l } : State).mayJoin gid (s.xchAt w gid) = s.mayJoin gid (s.xchAt w gid) := rfl
  rw [hj]
  split
  · cases w <;> rfl
  · rfl

/-- A ready flit that has come does not matter to a join either. -/
theorem State.joinExchange_ready (hw : s.HasSeat w) (gid : Nat) (r : List (Nat × Option Nat)) :
    (s.setXchAt w gid { s.xchAt w gid with ready := r }).joinExchange w gid
      = (s.joinExchange w gid).setXchAt w gid { (s.joinExchange w gid).xchAt w gid with ready := r } := by
  have hdt : (s.setXchAt w gid { s.xchAt w gid with ready := r }).dtime = s.dtime := by
    have h := congrArg State.dtime (s.setXchAt_frame w gid { s.xchAt w gid with ready := r })
    exact h
  have hgov : (s.setXchAt w gid { s.xchAt w gid with ready := r }).gov = s.gov := by
    have h := congrArg State.gov (s.setXchAt_frame w gid { s.xchAt w gid with ready := r })
    exact h
  have hmay : (s.setXchAt w gid { s.xchAt w gid with ready := r }).mayJoin gid { s.xchAt w gid with ready := r }
      = s.mayJoin gid (s.xchAt w gid) := by
    simp only [State.mayJoin, State.hasLeave, hgov]
  rw [State.joinExchange_eq, State.xchAt_setXchAt hw, hmay, hdt, State.xchAt_joinExchange hw, State.joinExchange_eq s]
  split
  · rw [State.setXchAt_setXchAt hw, State.setXchAt_setXchAt hw]
    rw [XchMember.join_ready]
  · rfl

/-! ## A calendar is accepted (R385, R387, R396) -/

theorem length_addTail (d : List XDest) (l : List (Nat × TailPart)) : (addTail d l).length = d.length := by
  unfold addTail
  induction l generalizing d with
  | nil => rfl
  | cons p l ih => rw [List.foldl_cons, ih, List.length_modify]

/-- An exchange holds a calendar: its grants and times, and a source and a destination for each member; ready flits of it
have come (R385 to R387). -/
structure XchMember.HasCalendar (y : XchMember) (n : Nat) (m : GrantsMsg) (ready : List (Nat × Option Nat)) : Prop where
  granted : y.granted = true
  grants : y.grants = m.grants
  t0 : y.t0 = m.t0
  tend : y.tend = m.tend
  gen : y.gen = m.gen
  sources : y.sources.length = n
  dests : y.dests.length = n
  ready : y.ready = ready

section
variable {n : Nat} {ready : List (Nat × Option Nat)}

/-- The status of an exchange and what is asked of its engine are no part of its calendar. -/
theorem XchMember.HasCalendar.flag (h : x.HasCalendar n m ready) (i : Nat) : (x.flag i).HasCalendar n m ready :=
  ⟨h.granted, h.grants, h.t0, h.tend, h.gen, h.sources, h.dests, h.ready⟩

theorem XchMember.HasCalendar.disarm (h : x.HasCalendar n m ready) :
    ({ x with disarmed := true, fail6 := true } : XchMember).HasCalendar n m ready :=
  ⟨h.granted, h.grants, h.t0, h.tend, h.gen, h.sources, h.dests, h.ready⟩

theorem XchMember.HasCalendar.ite {c : Prop} [Decidable c] (hx : x.HasCalendar n m ready) (hy : y.HasCalendar n m ready) :
    (if c then x else y).HasCalendar n m ready := by
  split
  · exact hx
  · exact hy

theorem XchMember.HasCalendar.join (h : x.HasCalendar n m ready) (now : Nat) : (x.join now).HasCalendar n m ready := by
  have hd : (x.join now).dests.length = x.dests.length := by
    unfold XchMember.join
    dsimp only
    split <;> exact length_addTail ..
  have e := x.join_fields now
  rw [e]
  exact ⟨h.granted, h.grants, h.t0, h.tend, h.gen, h.sources, hd.trans h.dests, h.ready⟩

end

/-- With its grants an exchange holds their calendar, and the ready flits of it that came early (R390). -/
theorem XchMember.hasCalendar_withGrants (x : XchMember) (n now : Nat) (dead : Nat → Bool) (m : GrantsMsg) :
    (x.withGrants n now dead m).HasCalendar n m ((x.readyNext.filter (·.gen == m.gen)).map fun r => (r.dst, r.sheet)) := by
  unfold XchMember.withGrants
  extract_lets sources inSheets late kept dests y y₁ y₂ y₃
  have h : y.HasCalendar n m ((x.readyNext.filter (·.gen == m.gen)).map fun r => (r.dst, r.sheet)) :=
    ⟨rfl, rfl, rfl, rfl, rfl, by simp [y, sources], by simp [y, length_addTail, dests], rfl⟩
  have h₁ := XchMember.HasCalendar.ite (c := m.posted || !x.posted) h (h.flag 6)
  have h₂ := XchMember.HasCalendar.ite (c := m.rebuilt) (h₁.flag 5) h₁
  have h₃ := XchMember.HasCalendar.ite (c := sources.any (·.dead)) (h₂.flag 7) h₂
  exact h₃.disarm.ite h₃

/-! ## The state in which a calendar is accepted -/

/-- Leave given back is the governor's (R409). -/
theorem State.xchSettle_frame (s : State) (x : XchMember) : { s.xchSettle x with gov := s.gov } = s := by
  unfold State.xchSettle
  split <;> rfl

theorem State.sameSeats_xchSettle (s : State) (x : XchMember) : s.SameSeats (s.xchSettle x) := by
  have h := s.xchSettle_frame x
  have ht := congrArg State.threads h
  have hs := congrArg State.saved h
  have hg := congrArg State.ghosts h
  exact ⟨ht, hs, hg⟩

theorem State.KeepsCalendars.xchSettle (s : State) (x : XchMember) : s.KeepsCalendars (s.xchSettle x) := by
  have h := s.xchSettle_frame x
  have hi := congrArg State.imposers h
  have he := congrArg State.early h
  have ho := congrArg State.outbox h
  exact .of_eq hi he ho

/-- The logical core of a seat with a generation accepted, as XGEN holds it (R387). -/
def State.withXgen (s : State) (w : Seat) (gen : Nat) : State := s.reseat w { s.seated w with xgen := BitVec.ofNat 32 gen }

/-- XGEN of a member: in its seat, and in memory where its image lies (R387, R429). -/
theorem State.OnlyStores.putXgen (s : State) (w : Seat) (gen : Nat) : (s.withXgen w gen).OnlyStores (s.putXgen w gen) := by
  unfold State.putXgen
  dsimp only
  split
  · split
    · exact .write ..
    · exact .refl _
  · exact .refl _

theorem State.KeepsCalendars.putXgen (s : State) (w : Seat) (gen : Nat) : s.KeepsCalendars (s.putXgen w gen) :=
  (State.KeepsCalendars.reseat s w _).trans (State.OnlyStores.putXgen s w gen).keepsCalendars

/-- The state in which a member holds a calendar, before its engine joins: its area is written, then XGEN (R381, R387). -/
def State.calendarHeld (s : State) (w : Seat) (gid rank : Nat) (y : XchMember) (m : GrantsMsg) : State :=
  (((s.stamp.writeArea y rank m).setXchAt w gid y).putXgen w m.gen).noteGen gid m.gen

/-- The state in which a member has accepted a calendar: it holds it, and its engine joins if it may (R385 to R387). -/
def State.accepted (s : State) (w : Seat) (gid rank : Nat) (y : XchMember) (m : GrantsMsg) : State :=
  let v := (s.calendarHeld w gid rank y m).joinExchange w gid
  v.xchSettle (v.xchAt w gid)

theorem State.KeepsCalendars.calendarHeld (s : State) (w : Seat) (gid rank : Nat) (y : XchMember) (m : GrantsMsg) :
    s.KeepsCalendars (s.calendarHeld w gid rank y m) := by
  have hstamp : s.KeepsCalendars s.stamp := .of_eq rfl rfl rfl
  have hnote (u : State) : u.KeepsCalendars (u.noteGen gid m.gen) := .of_eq rfl rfl rfl
  exact (((hstamp.trans (State.OnlyStores.writeArea ..).keepsCalendars).trans (.setXchAt ..)).trans (.putXgen ..)).trans (hnote _)

theorem State.KeepsCalendars.accepted (s : State) (w : Seat) (gid rank : Nat) (y : XchMember) (m : GrantsMsg) :
    s.KeepsCalendars (s.accepted w gid rank y m) :=
  ((State.KeepsCalendars.calendarHeld s w gid rank y m).trans (.joinExchange ..)).trans (.xchSettle ..)

/-- What a member that accepts a calendar has: its seat, with XGEN and its exchange; the generation is noted (R387). -/
theorem State.calendarHeld_seat (hw : s.HasSeat w) (gid rank : Nat) (y : XchMember) (m : GrantsMsg) :
    (s.calendarHeld w gid rank y m).HasSeat w
      ∧ (s.calendarHeld w gid rank y m).seated w = { (s.seated w).setXch gid y with xgen := BitVec.ofNat 32 m.gen }
      ∧ FMap.get? (s.calendarHeld w gid rank y m).xgens gid = some m.gen
      ∧ (s.latent = [] → (s.calendarHeld w gid rank y m).seq = s.seq + 1) := by
  have hstores := State.OnlyStores.writeArea s.stamp y rank m
  have hseats : s.SameSeats (s.stamp.writeArea y rank m) := (⟨rfl, rfl, rfl⟩ : s.SameSeats s.stamp).trans hstores.sameSeats
  generalize hu : s.stamp.writeArea y rank m = u at hstores hseats
  have hwu : u.HasSeat w := hseats.hasSeat hw
  have hwv : (u.setXchAt w gid y).HasSeat w := State.hasSeat_reseat hwu _ _
  have hgen := State.OnlyStores.putXgen (u.setXchAt w gid y) w m.gen
  have hx : (s.calendarHeld w gid rank y m) = ((u.setXchAt w gid y).putXgen w m.gen).noteGen gid m.gen := by
    rw [State.calendarHeld, hu]
  have hsame : ((u.setXchAt w gid y).withXgen w m.gen).SameSeats (s.calendarHeld w gid rank y m) := by
    rw [hx]
    exact hgen.sameSeats.trans ⟨rfl, rfl, rfl⟩
  refine ⟨hsame.hasSeat (State.hasSeat_reseat hwv _ _), ?_, ?_, fun hl => ?_⟩
  · rw [hsame.seated, State.withXgen, State.seated_reseat hwv, State.seated_setXchAt hwu, hseats.seated]
  · rw [hx, State.noteGen, FMap.get?_set_same]
  · obtain ⟨hul, hus⟩ := hstores.clean hl
    have hframe : ((u.setXchAt w gid y).withXgen w m.gen).latent = u.latent ∧ ((u.setXchAt w gid y).withXgen w m.gen).seq = u.seq := by
      have h₁ := (u.setXchAt w gid y).reseat_frame w { (u.setXchAt w gid y).seated w with xgen := BitVec.ofNat 32 m.gen }
      have h₂ := u.setXchAt_frame w gid y
      have hl₁ := congrArg State.latent h₁
      have hs₁ := congrArg State.seq h₁
      have hl₂ := congrArg State.latent h₂
      have hs₂ := congrArg State.seq h₂
      exact ⟨Eq.trans hl₁ hl₂, Eq.trans hs₁ hs₂⟩
    rw [hx]
    exact ((hgen.clean (hframe.1.trans hul)).2.trans hframe.2).trans hus

/-- What a member that has accepted a calendar has (R385 to R387). -/
theorem State.accepted_seat (hw : s.HasSeat w) (gid rank : Nat) {n : Nat} {ready : List (Nat × Option Nat)}
    (hy : y.HasCalendar n m ready) (hm : m.gen < 2 ^ 32) :
    (s.latent = [] → (s.accepted w gid rank y m).seq = s.seq + 1) ∧ ((s.accepted w gid rank y m).seated w).xgen.toNat = m.gen
      ∧ FMap.get? (s.accepted w gid rank y m).xgens gid = some m.gen
      ∧ ((s.accepted w gid rank y m).xchAt w gid).HasCalendar n m ready := by
  obtain ⟨hseat, hseated, hgens, hseq⟩ := State.calendarHeld_seat hw gid rank y m
  generalize hv : s.calendarHeld w gid rank y m = v at hseat hseated hgens hseq
  have ht : s.accepted w gid rank y m = (v.joinExchange w gid).xchSettle ((v.joinExchange w gid).xchAt w gid) := by
    rw [State.accepted, hv]
  have hjoin := v.joinExchange_frame w gid
  have hsettle := (v.joinExchange w gid).xchSettle_frame ((v.joinExchange w gid).xchAt w gid)
  have hsame := (v.joinExchange w gid).sameSeats_xchSettle ((v.joinExchange w gid).xchAt w gid)
  have hx : v.xchAt w gid = y := by
    rw [State.xchAt, hseated]
    exact LCore.xchIn_setXch (s.seated w) gid y
  rw [ht]
  refine ⟨fun hl => ?_, ?_, ?_, ?_⟩
  · have h₁ := congrArg State.seq hjoin
    have h₂ := congrArg State.seq hsettle
    exact (Eq.trans h₂ h₁).trans (hseq hl)
  · rw [hsame.seated]
    have hgen : (BitVec.ofNat 32 m.gen).toNat = m.gen := by
      rw [BitVec.toNat_ofNat]
      exact Nat.mod_eq_of_lt hm
    rcases State.seated_joinExchange hseat gid with h | h <;> rw [h, hseated] <;> exact hgen
  · have h₁ := congrArg State.xgens hjoin
    have h₂ := congrArg State.xgens hsettle
    exact (congrArg (FMap.get? · gid) (Eq.trans h₂ h₁)).trans hgens
  · rw [hsame.xchAt, State.xchAt_joinExchange hseat, hx]
    split
    · exact hy.join _
    · exact hy

end Sys2Proof.Machine

namespace Sys2Proof.Machine
/-! # GRANT_WRITE -/

variable {s t u v : State} {w : Seat} {gid : Nat} {g : Group} {x : Imposition} {rank : Nat} {m : GrantsMsg}

section
variable (hw : s.memberSeat gid g = some w) (hr : g.rankOf s.dev = some rank)
include hw hr

/-- A calendar of no higher generation is not accepted (R387, R396). -/
theorem State.acceptGrants_old (h : m.gen ≤ s.genOf gid (s.xchAt w gid)) : s.acceptGrants gid g m = s := by
  unfold State.acceptGrants
  rw [hw, hr]
  exact if_pos h

theorem State.acceptGrants_new (h : s.genOf gid (s.xchAt w gid) < m.gen) (ha : (s.xchAt w gid).active = true)
    (hc : (s.xchAt w gid).complete = false) :
    s.acceptGrants gid g m = s.accepted w gid rank ((s.xchAt w gid).withGrants g.n s.dtime (s.isDead g) m) m := by
  unfold State.acceptGrants
  rw [hw, hr]
  refine (if_neg (Nat.not_le.mpr h)).trans ?_
  dsimp only
  rw [ha, hc]
  rfl

end

theorem State.KeepsCalendars.acceptGrants (s : State) (gid : Nat) (g : Group) (m : GrantsMsg) : s.KeepsCalendars (s.acceptGrants gid g m) := by
  unfold State.acceptGrants
  split
  · rename_i w rank hw hr
    split
    · exact .refl s
    · dsimp only
      have hlate : s.KeepsCalendars (if (s.xchAt w gid).active && !(s.xchAt w gid).complete then (s, some (s.xchAt w gid))
          else s.lateArea w gid g).1 := by
        split
        · exact .refl s
        · exact .lateArea ..
      split
      · rename_i u hu
        rwa [hu] at hlate
      · rename_i u x hu
        rw [hu] at hlate
        exact hlate.trans (.accepted u w gid rank (x.withGrants g.n u.dtime (u.isDead g) m) m)
  · exact .of_eq rfl rfl rfl
  · exact .refl s

/-- No bytes of a group came early: what came early for other groups stays. -/
theorem State.landEarly_none (h : ∀ e ∈ t.early, e.gid ≠ gid) :
    landEarly (t.early.filter (·.gid == gid)) { t with early := t.early.filter (·.gid != gid) } = .next t := by
  have hnone : t.early.filter (·.gid == gid) = [] := List.filter_eq_nil_iff.mpr fun e hm => by simpa using h e hm
  have hall : t.early.filter (·.gid != gid) = t.early := List.filter_eq_self.mpr fun e hm => by simpa using h e hm
  generalize t.early.filter (·.gid == gid) = none, t.early.filter (·.gid != gid) = all at hnone hall
  subst hnone hall
  rfl

/-- A member with no bytes that came early accepts a calendar, and that is all (R390). -/
theorem State.takeGrants_noEarly (h : ∀ e ∈ s.early, e.gid ≠ gid) : s.takeGrants gid g m = .next (s.acceptGrants gid g m) := by
  have hkeep := State.KeepsCalendars.acceptGrants s gid g m
  have hearly (e : ExchangeMsg) (he : e ∈ (s.acceptGrants gid g m).early) : e.gid ≠ gid := by
    rw [hkeep.early] at he
    exact h e he
  exact State.landEarly_none hearly

/-- What another Imposer fixed reaches this device's member (R385, R387). -/
theorem execGrantWrite_told (hg : s.group? gid = some g) (hx : s.imposer? gid = none) :
    execGrantWrite gid (some m) s = s.takeGrants gid g m := by
  rw [execGrantWrite, hg, hx]

/-- The messages by which a fixed calendar goes to the members on other devices (R387). -/
def Imposition.grantMsgs (x : Imposition) (gid : Nat) (g : Group) (dev : Nat) : List OutMsg :=
  ((List.range g.n).filter fun r => g.rankOf dev != some r).map fun r => OutMsg.grants gid r (x.grantsFor g.xrate g.n r)

/-- The state in which the calendar of a group has been written to its members on other devices. -/
def State.grantsSent (s : State) (gid : Nat) (g : Group) (x : Imposition) : State :=
  { s.setImposer { x with written := true } with outbox := s.outbox ++ x.grantMsgs gid g s.dev }

section
variable (hg : s.group? gid = some g) (hx : s.imposer? gid = some x) (hf : x.fixedAt.isSome = true) (hw : x.written = false)
  (hl : x.leads = true)
include hg hx hf hw hl

/-- A fixed calendar is written once: to the members of other devices, and to this device's own (R387). -/
theorem execGrantWrite_fixed : execGrantWrite gid none s
    = (s.grantsSent gid g x).takeGrants gid g (x.grantsFor g.xrate g.n ((g.rankOf s.dev).getD 0)) := by
  have hno : ¬ (x.fixedAt.isNone ∨ x.written ∨ !x.leads) := by
    simp [hw, hl, Option.isSome_iff_ne_none.mp hf]
  rw [execGrantWrite, hg, hx]
  exact if_neg hno

/-- Then it counts as written, and is on its way to every other member. -/
theorem execGrantWrite_writes (he : ∀ e ∈ s.early, e.gid ≠ gid) : ∃ (t : State) (y : Imposition), execGrantWrite gid none s = .next t
    ∧ t.imposer? gid = some y ∧ y.written = true
    ∧ ∀ r, r < g.n → g.rankOf s.dev ≠ some r → .grants gid r (x.grantsFor g.xrate g.n r) ∈ t.outbox := by
  have hgid := State.gid_of_imposer? hx
  have hkeep := State.KeepsCalendars.acceptGrants (s.grantsSent gid g x) gid g (x.grantsFor g.xrate g.n ((g.rankOf s.dev).getD 0))
  refine ⟨_, { x with written := true }, (execGrantWrite_fixed hg hx hf hw hl).trans (State.takeGrants_noEarly he), ?_, rfl,
    fun r hr hne => hkeep.outbox ?_⟩
  · rw [State.imposer?, hkeep.imposers]
    exact s.imposer?_setImposer_of_gid (y := { x with written := true }) hgid
  · refine List.mem_append_right _ (List.mem_map.mpr ⟨r, List.mem_filter.mpr ⟨List.mem_range.mpr hr, ?_⟩, rfl⟩)
    simpa using hne

end

end Sys2Proof.Machine

namespace Sys2Proof.Machine
/-! # The engine of a member sends -/

variable {s t u v : State} {w : Seat} {gid rank : Nat} {x : XchMember} {ready : List (Nat × Option Nat)}

/-- A member that the engine serves: its group is sound, it is where the engine finds it, and it has a rank (R368, R388). -/
theorem State.exchanging_some (h : s.exchanging gid = some (w, rank)) :
    ∃ g, s.group? gid = some g ∧ s.exchangeSeat gid = some w ∧ g.rankOf s.dev = some rank := by
  unfold State.exchanging at h
  split at h
  · cases h
  · rename_i g hg
    split at h
    · rename_i w' r hw hr
      cases h
      exact ⟨g, hg, hw, hr⟩
    · cases h

theorem State.hasSeat_exchanging (h : s.exchanging gid = some (w, rank)) : s.HasSeat w := by
  obtain ⟨g, hg, hw, hr⟩ := State.exchanging_some h
  exact State.hasSeat_exchangeSeat hw

/-! ## One send (R389) -/

/-- The send of n bytes of one pair by the exchange x of a state s, in a state v: where the source's data can be read, the
answer r has it on its way, and the exchange left is y. -/
def State.Sends (s v : State) (w : Seat) (gid rank : Nat) (x : XchMember) (r : Host.Outcome State Fault Refusal) (dst n off : Nat)
    (short : Bool) (y : XchMember) : Prop :=
  ∀ u b, State.readUpTo (xchWho (s.seated w) x) (n / 0x8000 + 2) v (x.sbuf + BitVec.ofNat 64 ((x.dest dst).soff + off)) n = (u, b, none) →
    ∃ (t : State) (m : ExchangeMsg), r = .next t ∧ t.outbox = u.outbox ++ [.bytes m] ∧ m.gid = gid ∧ m.dst = dst ∧ m.src = rank
      ∧ m.off = off ∧ m.bytes = b ∧ m.short = (short || decide (b.length < n)) ∧ t.xchAt w gid = y ∧ t.mem = u.mem
      ∧ (m.last = true ↔ (∀ (k : Nat) h, y.grants[k]? = some h → h.dst = dst → k ∈ y.started) ∧ (y.dest dst).tail = [])

/-- The state v holds the exchange x of the state s, but for the ready flits that have come. -/
structure State.Engine (s v : State) (w : Seat) (gid : Nat) (x : XchMember) (ready : List (Nat × Option Nat)) : Prop where
  seat : v.HasSeat w
  job : (v.seated w).job = (s.seated w).job
  xch : v.xchAt w gid = { x with ready := ready }
  dtime : v.dtime = s.dtime
  dtOffset : v.dtOffset = s.dtOffset

/-- Whether a pair has more to send: sheets not started, or parts of its loose tail (R389). -/
def XchMember.more (y : XchMember) (dst : Nat) : Bool :=
  y.grants.zipIdx.any (fun g => g.1.dst == dst && !y.started.contains g.2) || !(y.dest dst).tail.isEmpty

theorem XchMember.more_eq_false (y : XchMember) (dst : Nat) :
    y.more dst = false ↔ (∀ (k : Nat) h, y.grants[k]? = some h → h.dst = dst → k ∈ y.started) ∧ (y.dest dst).tail = [] := by
  have hany : (y.grants.zipIdx.any (fun g => g.1.dst == dst && !y.started.contains g.2)) = false
      ↔ ∀ (k : Nat) h, y.grants[k]? = some h → h.dst = dst → k ∈ y.started := by
    rw [List.any_eq_false]
    constructor
    · intro h k g hk hd
      have := h (g, k) (List.mem_zipIdx_iff_getElem?.mpr hk)
      simpa [hd] using this
    · intro h g hm
      have := h g.2 g.1 (List.mem_zipIdx_iff_getElem?.mp hm)
      simpa using this
  rw [XchMember.more, Bool.or_eq_false_iff, hany]
  simp

/-- A send whose data can be read: the bytes are on their way, and the exchange is as the send leaves it (R389). -/
theorem State.sendPair_read {dst n off : Nat} {short : Bool} {upd : XchMember → XchMember} {b : List Byte}
    (h : State.readUpTo (xchWho (v.seated w) (v.xchAt w gid)) (n / 0x8000 + 2) v
      ((v.xchAt w gid).sbuf + BitVec.ofNat 64 (((v.xchAt w gid).dest dst).soff + off)) n = (u, b, none)) :
    v.sendPair w gid rank dst n off short upd
      = .next ((({ u with outbox := u.outbox ++ [.bytes ⟨gid, dst, rank, off, b, short || decide (b.length < n),
          !(upd (v.xchAt w gid)).more dst⟩] } : State).setXchAt w gid (upd (v.xchAt w gid))).xchSettle (upd (v.xchAt w gid))) := by
  unfold State.xchAt at h
  unfold State.sendPair
  dsimp only
  rw [h]
  rfl

theorem State.Engine.sends (he : s.Engine v w gid x ready) {dst n off : Nat} {short : Bool} (upd : XchMember → XchMember) {y : XchMember}
    (hy : upd { x with ready := ready } = y) :
    s.Sends v w gid rank x (v.sendPair w gid rank dst n off short upd) dst n off short y := by
  intro u b hread
  have hwho : xchWho (v.seated w) (v.xchAt w gid) = xchWho (s.seated w) x := by
    rw [he.xch, xchWho, xchWho, he.job]
  have hpair := State.sendPair_read (gid := gid) (rank := rank) (off := off) (short := short) (upd := upd) (v := v) (w := w) (u := u) (b := b)
    (dst := dst) (n := n) (by rw [hwho, he.xch]; exact hread)
  have hupd : upd (v.xchAt w gid) = y := by rw [he.xch, hy]
  rw [hupd] at hpair
  generalize hm : (⟨gid, dst, rank, off, b, short || decide (b.length < n), !y.more dst⟩ : ExchangeMsg) = m at hpair
  generalize hs : ({ u with outbox := u.outbox ++ [.bytes m] } : State) = sent at hpair
  have hseats : v.SameSeats sent := by
    rw [← hs]
    exact (State.OnlyMaps.of_readUpTo hread).sameSeats.trans ⟨rfl, rfl, rfl⟩
  have hset := sent.setXchAt_frame w gid y
  have hsettle := (sent.setXchAt w gid y).xchSettle_frame y
  have hout := congrArg State.outbox hsettle
  have hout' := congrArg State.outbox hset
  have hmem := congrArg State.mem hsettle
  have hmem' := congrArg State.mem hset
  have hsent : sent.outbox = u.outbox ++ [.bytes m] ∧ sent.mem = u.mem := by
    rw [← hs]
    exact ⟨rfl, rfl⟩
  refine ⟨_, m, hpair, (Eq.trans hout hout').trans hsent.1, by rw [← hm], by rw [← hm], by rw [← hm], by rw [← hm], by rw [← hm], by rw [← hm], ?_,
    (Eq.trans hmem hmem').trans hsent.2, ?_⟩
  · rw [(State.sameSeats_xchSettle ..).xchAt]
    exact State.xchAt_setXchAt (hseats.hasSeat he.seat) gid y
  · rw [← y.more_eq_false, ← hm]
    simp

/-! ## A sheet and a part of the loose tail (R389, R390) -/

/-- What the start of sheet k answers, where the exchange is x but for its ready flits. -/
def State.SendsSheet (s v : State) (w : Seat) (gid rank : Nat) (x z : XchMember) (k : Nat) (r : Host.Outcome State Fault Refusal) : Prop :=
  ∀ h, x.grants[k]? = some h →
    ((h.dst = 0xFFFF ∨ k ∈ x.started ∨ s.dtime < h.tstart) → r = .next v)
    ∧ (h.dst ≠ 0xFFFF → k ∉ x.started → h.tstart ≤ s.dtime →
      let y : XchMember := { z with started := x.started ++ [k] }
      let off := h.soff - (x.dest h.dst).soff
      let late : Prop := x.joined = false ∨ (125 < s.dtOffset.natAbs ∧ (h.dst, some k) ∉ z.ready)
      (x.disarmed = true → s.Sends v w gid rank x r h.dst 0 off true y)
      ∧ (x.disarmed = false → late → r = .next v)
      ∧ (x.disarmed = false → ¬ late → (∀ p, x.trims.find? (·.1 == k) = some p → s.Sends v w gid rank x r h.dst p.2 off true y)
        ∧ (x.trims.find? (·.1 == k) = none → s.Sends v w gid rank x r h.dst h.sbytes off false y)))

/-- What the start of the loose tail answers, where the exchange is x but for its ready flits. -/
def State.SendsTail (s v : State) (w : Seat) (gid rank : Nat) (x z : XchMember) (r : Host.Outcome State Fault Refusal) : Prop :=
  ((∀ d ∈ x.dests, d.tail = []) → r = .next v)
  ∧ ∀ j p l, x.dests.findIdx? (!·.tail.isEmpty) = some j → (x.dest j).tail = p :: l → x.tend ≤ s.dtime →
    let y : XchMember := { z with dests := x.dests.modify j fun d => { d with tail := l } }
    (x.disarmed = true → s.Sends v w gid rank x r j 0 p.off true y)
    ∧ (x.disarmed = false → (x.joined = false ∨ (j, none) ∉ z.ready) → r = .next v)
    ∧ (x.disarmed = false → x.joined = true → (j, none) ∈ z.ready → s.Sends v w gid rank x r j p.n p.off p.short y)

/-- A sheet's send by an engine that has joined as it may: its conditions, and the bytes. -/
theorem State.sendSheet_eq (he : s.Engine (v.joinExchange w gid) w gid x ready) {k : Nat} {h : Grant} (hk : x.grants[k]? = some h) :
    v.sendSheet w gid rank k
      = if h.dst = 0xFFFF ∨ x.started.contains k ∨ s.dtime < h.tstart then .next (v.joinExchange w gid)
        else
          let upd (x : XchMember) : XchMember := { x with started := x.started ++ [k] }
          let off := h.soff - (x.dest h.dst).soff
          if x.disarmed then (v.joinExchange w gid).sendPair w gid rank h.dst 0 off true upd
          else if !x.joined ∨ (s.skewed ∧ !ready.contains (h.dst, some k)) then .next (v.joinExchange w gid)
          else match x.trims.find? (·.1 == k) with
            | some p => (v.joinExchange w gid).sendPair w gid rank h.dst p.2 off true upd
            | none => (v.joinExchange w gid).sendPair w gid rank h.dst h.sbytes off false upd := by
  unfold State.sendSheet
  dsimp only
  generalize v.joinExchange w gid = now at he
  have hskew : now.skewed = s.skewed := by rw [State.skewed, State.skewed, he.dtOffset]
  rw [he.xch, hskew, he.dtime]
  dsimp only
  rw [hk]
  rfl

theorem State.Engine.sendsSheet (he : s.Engine (v.joinExchange w gid) w gid x ready) (k : Nat) :
    s.SendsSheet (v.joinExchange w gid) w gid rank x { x with ready := ready } k (v.sendSheet w gid rank k) := by
  intro h hk
  rw [State.sendSheet_eq he hk]
  constructor
  · intro hno
    exact if_pos (by simpa using hno)
  · intro hdst hstart htime y off late
    have hgo : ¬ (h.dst = 0xFFFF ∨ x.started.contains k = true ∨ s.dtime < h.tstart) := by
      simp only [List.contains_iff_mem]
      exact not_or.mpr ⟨hdst, not_or.mpr ⟨hstart, Nat.not_lt.mpr htime⟩⟩
    have hlate : ((!x.joined) = true ∨ (s.skewed = true ∧ (!ready.contains (h.dst, some k)) = true)) ↔ late := by
      simp [late, State.skewed]
    rw [if_neg hgo]
    dsimp only
    refine ⟨fun hd => ?_, fun hd hl => ?_, fun hd hl => ⟨fun p hp => ?_, fun hp => ?_⟩⟩
    · rw [if_pos hd]
      exact he.sends _ rfl
    · rw [hd, if_neg (by decide), if_pos (hlate.mpr hl)]
    · rw [hd, if_neg (by decide), if_neg (mt hlate.mp hl), hp]
      exact he.sends _ rfl
    · rw [hd, if_neg (by decide), if_neg (mt hlate.mp hl), hp]
      exact he.sends _ rfl

/-- The first part of a destination's loose tail, taken (R389). -/
theorem XchMember.dests_tail_drop {j : Nat} {p : TailPart} {l : List TailPart} (h : (x.dest j).tail = p :: l) :
    x.dests.modify j (fun d => { d with tail := d.tail.drop 1 }) = x.dests.modify j fun d => { d with tail := l } := by
  refine List.ext_getElem? fun i => ?_
  rw [List.getElem?_modify, List.getElem?_modify]
  by_cases hi : j = i
  · subst hi
    rw [XchMember.dest] at h
    cases hd : x.dests[j]? with
    | none => rfl
    | some d =>
      rw [hd] at h
      have ht : d.tail = p :: l := h
      simp [ht]
  · simp [hi]

/-- A send of the loose tail by an engine that has joined as it may: its conditions, and the bytes. -/
theorem State.sendTail_eq (he : s.Engine (v.joinExchange w gid) w gid x ready) {j : Nat} {p : TailPart} {l : List TailPart}
    (hj : x.dests.findIdx? (!·.tail.isEmpty) = some j) (hp : (x.dest j).tail = p :: l) :
    v.sendTail w gid rank
      = let upd (x : XchMember) : XchMember := { x with dests := x.dests.modify j fun d => { d with tail := d.tail.drop 1 } }
        if s.dtime < x.tend then .next (v.joinExchange w gid)
        else if x.disarmed then (v.joinExchange w gid).sendPair w gid rank j 0 p.off true upd
        else if !x.joined ∨ !ready.contains (j, none) then .next (v.joinExchange w gid)
        else (v.joinExchange w gid).sendPair w gid rank j p.n p.off p.short upd := by
  unfold State.sendTail
  dsimp only
  generalize v.joinExchange w gid = now at he
  have hdest : ({ x with ready := ready } : XchMember).dest j = x.dest j := rfl
  rw [he.xch, he.dtime]
  dsimp only
  rw [hj]
  dsimp only
  rw [hdest, hp]

/-- Before TEND nothing of the loose tail is sent (R389). -/
theorem State.Engine.sendTail_early (he : s.Engine (v.joinExchange w gid) w gid x ready) (ht : s.dtime < x.tend) :
    v.sendTail w gid rank = .next (v.joinExchange w gid) := by
  unfold State.sendTail
  dsimp only
  generalize v.joinExchange w gid = now at he
  rw [he.xch, he.dtime]
  dsimp only
  split
  · rfl
  · split
    · rfl
    · exact if_pos ht

theorem State.Engine.sendsTail (he : s.Engine (v.joinExchange w gid) w gid x ready) :
    s.SendsTail (v.joinExchange w gid) w gid rank x { x with ready := ready } (v.sendTail w gid rank) := by
  constructor
  · intro hno
    have hnone : x.dests.findIdx? (!·.tail.isEmpty) = none := by
      rw [List.findIdx?_eq_none_iff]
      intro d hd
      simp [hno d hd]
    unfold State.sendTail
    dsimp only
    generalize v.joinExchange w gid = now at he
    rw [he.xch]
    dsimp only
    rw [hnone]
  · intro j p l hj hp htime y
    have hupd : ({ x with ready := ready, dests := x.dests.modify j fun d => { d with tail := d.tail.drop 1 } } : XchMember) = y := by
      rw [XchMember.dests_tail_drop hp]
    rw [State.sendTail_eq he hj hp]
    dsimp only
    rw [if_neg (Nat.not_lt.mpr htime)]
    refine ⟨fun hd => ?_, fun hd hl => ?_, fun hd hjoined hready => ?_⟩
    · rw [if_pos hd]
      exact he.sends _ hupd
    · have hl' : (!x.joined) = true ∨ (!ready.contains (j, none)) = true := by simpa using hl
      rw [hd, if_neg (by decide), if_pos hl']
    · have hl' : ¬ ((!x.joined) = true ∨ (!ready.contains (j, none)) = true) := by
        have hready' : (j, none) ∈ ready := hready
        simp [hjoined, hready']
      rw [hd, if_neg (by decide), if_neg hl']
      exact he.sends _ hupd

/-! ## SHEET_START, LOOSE_TAIL_START and READY_FLIT (R389, R390, R392) -/

section
variable (hw : s.exchanging gid = some (w, rank))
include hw

/-- An engine that has joined as it may, with what it let its sources send on its way. -/
theorem State.engine_joined (l : List OutMsg) : s.Engine { s.joinExchange w gid with outbox := l } w gid ((s.joinExchange w gid).xchAt w gid)
    ((s.joinExchange w gid).xchAt w gid).ready := by
  have hseat := State.hasSeat_exchanging hw
  have hsame : (s.joinExchange w gid).SameSeats { s.joinExchange w gid with outbox := l } := ⟨rfl, rfl, rfl⟩
  have hframe := s.joinExchange_frame w gid
  have hdt := congrArg State.dtime hframe
  have hdo := congrArg State.dtOffset hframe
  refine ⟨hsame.hasSeat (State.hasSeat_joinExchange hseat gid), ?_, hsame.xchAt w gid, hdt, hdo⟩
  rw [hsame.seated]
  rcases State.seated_joinExchange hseat gid with h | h
  · rw [h]
  · rw [h]
    rfl

/-- An engine that has joined as it may, with a ready flit that has come. -/
theorem State.engine_ready (ready : List (Nat × Option Nat)) :
    s.Engine ((s.joinExchange w gid).setXchAt w gid { (s.joinExchange w gid).xchAt w gid with ready := ready }) w gid
      ((s.joinExchange w gid).xchAt w gid) ready := by
  have hjoined := State.engine_joined hw (s.joinExchange w gid).outbox
  have hseat := State.hasSeat_joinExchange (State.hasSeat_exchanging hw) gid
  generalize hx : (s.joinExchange w gid).xchAt w gid = x at hjoined
  have hframe := (s.joinExchange w gid).setXchAt_frame w gid { x with ready := ready }
  have hdt := congrArg State.dtime hframe
  have hdo := congrArg State.dtOffset hframe
  refine ⟨State.hasSeat_reseat hseat _ _, ?_, State.xchAt_setXchAt hseat gid _, Eq.trans hdt hjoined.dtime, Eq.trans hdo hjoined.dtOffset⟩
  rw [State.seated_setXchAt hseat]
  exact hjoined.job

/-- SHEET_START of a sheet that is due lets its source send, and sends the member's own sheet (R389, R390). -/
theorem execSheetStart_due {k : Nat} {h : Grant} (hk : ((s.joinExchange w gid).xchAt w gid).grants[k]? = some h) (ht : h.tstart ≤ s.dtime) :
    execSheetStart gid k s = State.sendSheet { s with outbox := s.outbox ++ if h.src = 0xFFFF then [] else
      [.ready ⟨gid, h.src, rank, some k, ((s.joinExchange w gid).xchAt w gid).gen⟩] } w gid rank k := by
  obtain ⟨j, st, d, f, hx⟩ := State.xchAt_joinExchange_fields (State.hasSeat_exchanging hw) gid
  rw [hx] at hk ⊢
  have hk' : (s.xchAt w gid).grants[k]? = some h := hk
  rw [execSheetStart, hw]
  dsimp only
  rw [hk']
  dsimp only
  rw [if_neg (Nat.not_lt.mpr ht)]
  by_cases hs : h.src = 0xFFFF
  · rw [if_pos hs, if_pos hs, List.append_nil]
  · rw [if_neg hs, if_neg hs]

theorem execSheetStart_early {k : Nat} {h : Grant} (hk : ((s.joinExchange w gid).xchAt w gid).grants[k]? = some h) (ht : s.dtime < h.tstart) :
    execSheetStart gid k s = .next s := by
  obtain ⟨j, st, d, f, hx⟩ := State.xchAt_joinExchange_fields (State.hasSeat_exchanging hw) gid
  rw [hx] at hk
  have hk' : (s.xchAt w gid).grants[k]? = some h := hk
  rw [execSheetStart, hw]
  dsimp only
  rw [hk']
  exact if_pos ht

theorem execSheetStart_sends {k : Nat} {h : Grant} (hk : ((s.joinExchange w gid).xchAt w gid).grants[k]? = some h) (ht : h.tstart ≤ s.dtime) :
    s.SendsSheet { s.joinExchange w gid with outbox := s.outbox ++ if h.src = 0xFFFF then [] else
        [.ready ⟨gid, h.src, rank, some k, ((s.joinExchange w gid).xchAt w gid).gen⟩] } w gid rank
      ((s.joinExchange w gid).xchAt w gid) ((s.joinExchange w gid).xchAt w gid) k (execSheetStart gid k s) := by
  rw [execSheetStart_due hw hk ht]
  generalize (s.outbox ++ if h.src = 0xFFFF then [] else [.ready ⟨gid, h.src, rank, some k, ((s.joinExchange w gid).xchAt w gid).gen⟩]) = out
  have he := State.engine_joined hw out
  rw [← State.joinExchange_outbox] at he ⊢
  exact he.sendsSheet k

end

end Sys2Proof.Machine

namespace Sys2Proof.Machine
/-! # LOOSE_TAIL_START, READY_FLIT and EXCHANGE_BYTES -/

variable {s t u v : State} {w : Seat} {gid rank : Nat} {x : XchMember}

section
variable (hw : s.exchanging gid = some (w, rank))
include hw

/-! ## LOOSE_TAIL_START (R389, R390) -/

theorem execLooseTailStart_not (h : ((s.joinExchange w gid).xchAt w gid).granted = false ∨ s.dtime < ((s.joinExchange w gid).xchAt w gid).tend) :
    execLooseTailStart gid s = .next s := by
  obtain ⟨j, st, d, f, hx⟩ := State.xchAt_joinExchange_fields (State.hasSeat_exchanging hw) gid
  rw [hx] at h
  rw [execLooseTailStart, hw]
  exact if_pos (by simpa using h)

theorem execLooseTailStart_sends (hgr : ((s.joinExchange w gid).xchAt w gid).granted = true)
    (ht : ((s.joinExchange w gid).xchAt w gid).tend ≤ s.dtime) :
    s.SendsTail { s.joinExchange w gid with outbox := s.outbox ++ ((s.joinExchange w gid).xchAt w gid).tailReady rank } w gid rank
      ((s.joinExchange w gid).xchAt w gid) ((s.joinExchange w gid).xchAt w gid) (execLooseTailStart gid s) := by
  have hready : (s.xchAt w gid).tailReady rank = ((s.joinExchange w gid).xchAt w gid).tailReady rank
      ∧ ¬ ((!(s.xchAt w gid).granted) = true ∨ s.dtime < (s.xchAt w gid).tend) := by
    obtain ⟨j, st, d, f, hx⟩ := State.xchAt_joinExchange_fields (State.hasSeat_exchanging hw) gid
    rw [hx] at hgr ht ⊢
    refine ⟨rfl, not_or.mpr ⟨?_, Nat.not_lt.mpr ht⟩⟩
    simpa using hgr
  have hexec : execLooseTailStart gid s
      = State.sendTail { s with outbox := s.outbox ++ ((s.joinExchange w gid).xchAt w gid).tailReady rank } w gid rank := by
    rw [execLooseTailStart, hw, ← hready.1]
    exact if_neg hready.2
  rw [hexec]
  generalize s.outbox ++ ((s.joinExchange w gid).xchAt w gid).tailReady rank = out
  have he := State.engine_joined hw out
  rw [← State.joinExchange_outbox] at he ⊢
  exact he.sendsTail

/-! ## Joining -/

/-- A member that joins is armed, with grants and leave, and nothing that VSTP pushed before is left (R189, R388). -/
theorem State.joinExchange_joined (h : s.xchAt w gid ≠ (s.joinExchange w gid).xchAt w gid) :
    let x := (s.joinExchange w gid).xchAt w gid
    x = { s.xchAt w gid with joined := true, started := x.started, dests := x.dests, flags := x.flags } ∧ (s.xchAt w gid).joined = false
      ∧ x.armed = true ∧ x.granted = true ∧ x.disarmed = false ∧ x.after = [] ∧ s.hasLeave (xgoLeave gid) = true := by
  have hx := State.xchAt_joinExchange (State.hasSeat_exchanging hw) gid
  split at hx
  · rename_i hmay
    have hfields := (s.xchAt w gid).join_fields s.dtime
    intro x
    have hxj : x = (s.xchAt w gid).join s.dtime := hx
    simp only [State.mayJoin, Bool.and_eq_true, Bool.not_eq_true', List.isEmpty_iff] at hmay
    obtain ⟨⟨⟨⟨⟨harmed, hgranted⟩, hjoined⟩, hdisarmed⟩, hafter⟩, hleave⟩ := hmay
    rw [← hxj] at hfields
    refine ⟨hfields, hjoined, ?_, ?_, ?_, ?_, hleave⟩
    · rw [hfields]
      exact harmed
    · rw [hfields]
      exact hgranted
    · rw [hfields]
      exact hdisarmed
    · rw [hfields]
      exact hafter
  · exact absurd hx.symm h

end

/-! ## READY_FLIT (R390, R392) -/

section
variable {m : ReadyMsg} (hw : s.exchanging m.gid = some (w, rank))
include hw

theorem execReadyFlit_other (h : m.src ≠ rank) : execReadyFlit m s = .next s := by
  rw [execReadyFlit, hw]
  exact if_pos h

/-- The generation and the grants of a member are those that it has once its engine has joined. -/
theorem State.joined_calendar : ((s.joinExchange w m.gid).xchAt w m.gid).gen = (s.xchAt w m.gid).gen
    ∧ ((s.joinExchange w m.gid).xchAt w m.gid).granted = (s.xchAt w m.gid).granted
    ∧ ((s.joinExchange w m.gid).xchAt w m.gid).tend = (s.xchAt w m.gid).tend
    ∧ ((s.joinExchange w m.gid).xchAt w m.gid).ready = (s.xchAt w m.gid).ready := by
  obtain ⟨j, st, d, f, hx⟩ := State.xchAt_joinExchange_fields (State.hasSeat_exchanging hw) m.gid
  rw [hx]
  exact ⟨rfl, rfl, rfl, rfl⟩

theorem execReadyFlit_next (h : m.src = rank) (hg : (s.xchAt w m.gid).gen < m.gen) :
    execReadyFlit m s = .next (s.setXchAt w m.gid { s.xchAt w m.gid with readyNext := (s.xchAt w m.gid).readyNext ++ [m] }) := by
  rw [execReadyFlit, hw]
  exact (if_neg (not_not_intro h)).trans (if_pos hg)

theorem execReadyFlit_past (h : m.src = rank) (hle : m.gen ≤ (s.xchAt w m.gid).gen)
    (hg : (s.xchAt w m.gid).granted = false ∨ m.gen < (s.xchAt w m.gid).gen) : execReadyFlit m s = .next s := by
  have hg' : (!(s.xchAt w m.gid).granted) = true ∨ m.gen < (s.xchAt w m.gid).gen := by simpa using hg
  rw [execReadyFlit, hw]
  exact (if_neg (not_not_intro h)).trans ((if_neg (Nat.not_lt.mpr hle)).trans (if_pos hg'))

/-- The engine joins as it may where a ready flit has come (R390). -/
theorem State.engine_flit :
    (s.setXchAt w m.gid { s.xchAt w m.gid with ready := (s.xchAt w m.gid).ready ++ [(m.dst, m.sheet)] }).joinExchange w m.gid
      = (s.joinExchange w m.gid).setXchAt w m.gid
          { (s.joinExchange w m.gid).xchAt w m.gid with ready := ((s.joinExchange w m.gid).xchAt w m.gid).ready ++ [(m.dst, m.sheet)] } := by
  obtain ⟨hgen, hgranted, htend, hready⟩ := State.joined_calendar hw
  rw [State.joinExchange_ready (State.hasSeat_exchanging hw), hready]

section
variable (h : m.src = rank) (hg : m.gen = (s.xchAt w m.gid).gen) (hgr : (s.xchAt w m.gid).granted = true)
include h hg hgr

/-- A ready flit of the calendar at hand is recorded, and lets its transfer go (R390). -/
theorem execReadyFlit_goes :
    execReadyFlit m s = match m.sheet with
      | some k => (s.setXchAt w m.gid { s.xchAt w m.gid with ready := (s.xchAt w m.gid).ready ++ [(m.dst, m.sheet)] }).sendSheet w m.gid rank k
      | none => (s.setXchAt w m.gid { s.xchAt w m.gid with ready := (s.xchAt w m.gid).ready ++ [(m.dst, m.sheet)] }).sendTail w m.gid rank := by
  have hnext : ¬ (s.xchAt w m.gid).gen < m.gen := by omega
  have hpast : ¬ ((!(s.xchAt w m.gid).granted) = true ∨ m.gen < (s.xchAt w m.gid).gen) := by
    rw [hgr]
    simp [hg]
  rw [execReadyFlit, hw]
  exact (if_neg (not_not_intro h)).trans ((if_neg hnext).trans (if_neg hpast))

/-- The state that the flit leaves to its transfer, and what its transfer answers. -/
theorem execReadyFlit_engine : ∃ v : State,
    s.Engine (v.joinExchange w m.gid) w m.gid ((s.joinExchange w m.gid).xchAt w m.gid)
      (((s.joinExchange w m.gid).xchAt w m.gid).ready ++ [(m.dst, m.sheet)])
    ∧ v.joinExchange w m.gid = (s.joinExchange w m.gid).setXchAt w m.gid
        { (s.joinExchange w m.gid).xchAt w m.gid with ready := ((s.joinExchange w m.gid).xchAt w m.gid).ready ++ [(m.dst, m.sheet)] }
    ∧ (∀ k, m.sheet = some k → execReadyFlit m s = v.sendSheet w m.gid rank k)
    ∧ (m.sheet = none → execReadyFlit m s = v.sendTail w m.gid rank) := by
  have hexec := execReadyFlit_goes hw h hg hgr
  have hjoin := State.engine_flit hw
  have he := State.engine_ready hw (((s.joinExchange w m.gid).xchAt w m.gid).ready ++ [(m.dst, m.sheet)])
  rw [← hjoin] at he
  refine ⟨_, he, hjoin, fun k hk => ?_, fun hk => ?_⟩
  · generalize s.setXchAt w m.gid { s.xchAt w m.gid with ready := (s.xchAt w m.gid).ready ++ [(m.dst, m.sheet)] } = v at hexec
    rw [hexec, hk]
  · generalize s.setXchAt w m.gid { s.xchAt w m.gid with ready := (s.xchAt w m.gid).ready ++ [(m.dst, m.sheet)] } = v at hexec
    rw [hexec, hk]

theorem execReadyFlit_sheet {k : Nat} (hk : m.sheet = some k) :
    let x := (s.joinExchange w m.gid).xchAt w m.gid
    let z : XchMember := { x with ready := x.ready ++ [(m.dst, m.sheet)] }
    s.SendsSheet ((s.joinExchange w m.gid).setXchAt w m.gid z) w m.gid rank x z k (execReadyFlit m s) := by
  obtain ⟨v, he, hjoin, hsheet, htail⟩ := execReadyFlit_engine hw h hg hgr
  intro x z
  rw [hsheet k hk, ← hjoin]
  exact he.sendsSheet k

theorem execReadyFlit_tail (hk : m.sheet = none) :
    let x := (s.joinExchange w m.gid).xchAt w m.gid
    let z : XchMember := { x with ready := x.ready ++ [(m.dst, m.sheet)] }
    s.SendsTail ((s.joinExchange w m.gid).setXchAt w m.gid z) w m.gid rank x z (execReadyFlit m s) := by
  obtain ⟨v, he, hjoin, hsheet, htail⟩ := execReadyFlit_engine hw h hg hgr
  intro x z
  rw [htail hk, ← hjoin]
  exact he.sendsTail

theorem execReadyFlit_early (hk : m.sheet = none) (ht : s.dtime < ((s.joinExchange w m.gid).xchAt w m.gid).tend) :
    let x := (s.joinExchange w m.gid).xchAt w m.gid
    execReadyFlit m s = .next ((s.joinExchange w m.gid).setXchAt w m.gid { x with ready := x.ready ++ [(m.dst, m.sheet)] }) := by
  obtain ⟨v, he, hjoin, hsheet, htail⟩ := execReadyFlit_engine hw h hg hgr
  intro x
  rw [htail hk, ← hjoin]
  exact he.sendTail_early ht

end

end

/-! ## EXCHANGE_BYTES (R391, R101) -/

section
variable {m : ExchangeMsg} {y : XSource} (hw : s.exchanging m.gid = some (w, rank))
include hw

/-- Bytes that come before the grants wait for them, at the member that they are for (R390). -/
theorem execExchangeBytes_early (h : (s.xchAt w m.gid).granted = false ∨ (s.xchAt w m.gid).complete = true) :
    execExchangeBytes m s = .next (if m.dst = rank then { s with early := s.early ++ [m] } else s) := by
  obtain ⟨g, hg, hseat, hr⟩ := State.exchanging_some hw
  have hbusy : (!(s.xchAt w m.gid).granted || (s.xchAt w m.gid).complete) = true := by simpa using h
  have hkeep : s.keepEarly m = if m.dst = rank then { s with early := s.early ++ [m] } else s := by
    rw [State.keepEarly, hg, Option.bind_some, hr]
    simp only [Option.some.injEq, eq_comm (a := rank)]
  rw [execExchangeBytes, hw, ← hkeep]
  exact if_pos hbusy

section
variable (hgr : (s.xchAt w m.gid).granted = true) (hc : (s.xchAt w m.gid).complete = false) (hy : (s.xchAt w m.gid).sources[m.src]? = some y)
include hgr hc hy

theorem execExchangeBytes_granted : execExchangeBytes m s = if m.dst ≠ rank then .next s
    else if s.heldFrom m.gid m.src then .next { s with heldRemote := s.heldRemote ++ [.bytes m] } else s.takeBytes w rank m y := by
  have hbusy : ¬ (!(s.xchAt w m.gid).granted || (s.xchAt w m.gid).complete) = true := by simp [hgr, hc]
  rw [execExchangeBytes, hw]
  refine (if_neg hbusy).trans ?_
  rw [hy]

end

end

/-- A source of an exchange, once bytes of it have landed (R391). -/
def XSource.landed (y : XSource) (m : ExchangeMsg) (ks : List Nat) (waits : Bool) : XSource :=
  { y with arr := y.arr + ks.length, complete := y.complete || (m.last && !waits), keys := y.keys ++ ks }

/-- An exchange, once bytes of a source have landed (R391, R392). -/
def XchMember.landed (x : XchMember) (m : ExchangeMsg) (y : XSource) : XchMember :=
  if m.short then ({ x with sources := x.sources.set m.src y } : XchMember).flag 0 else { x with sources := x.sources.set m.src y }

/-- The source that bytes came from is as they leave it, and every other as it was; SHORT tells of bytes cut short (R392). -/
theorem XchMember.landed_fields (x : XchMember) (m : ExchangeMsg) {y₀ : XSource} (y : XSource) (h : x.sources[m.src]? = some y₀) :
    (x.landed m y).sources[m.src]? = some y ∧ (∀ j, j ≠ m.src → (x.landed m y).sources[j]? = x.sources[j]?)
      ∧ ((x.landed m y).flags.getLsbD 0 = true ↔ m.short = true ∨ x.flags.getLsbD 0 = true) := by
  have hsources : (x.landed m y).sources = x.sources.set m.src y := by
    unfold XchMember.landed
    split <;> rfl
  have hlt : m.src < x.sources.length := (List.getElem?_eq_some_iff.mp h).1
  refine ⟨?_, fun j hj => ?_, ?_⟩
  · rw [hsources, List.getElem?_set_self hlt]
  · rw [hsources, List.getElem?_set_ne (Ne.symm hj)]
  · unfold XchMember.landed
    by_cases hs : m.short = true
    · simp [hs, XchMember.flag]
    · simp [hs]

/-- The state in which bytes have landed: the area counts them, and the member's exchange too (R381, R391). -/
def State.bytesLanded (u : State) (w : Seat) (m : ExchangeMsg) (x : XchMember) (y : XSource) : State :=
  (u.putArea' (x.landed m y).area (0x40 + 8 * m.src) 8 y.arr).setXchAt w m.gid (x.landed m y)

section
variable {m : ExchangeMsg} {y : XSource} {ks : List Nat}

theorem State.takeBytes_lands (h : s.landBytes (xchWho (s.seated w) (s.xchAt w m.gid)) (s.xchAt w m.gid).rbuf (m.bytes.length / 0x8000 + 2)
      (y.roff + m.off) (m.bytes.take ((s.xchAt w m.gid).rlen.toNat - (y.roff + m.off))) = (u, ks, none)) :
    ∃ l, s.takeBytes w rank m y = .next (({ u.bytesLanded w m (s.xchAt w m.gid) (y.landed m ks false) with outbox := l } : State).xchSettle
        ((s.xchAt w m.gid).landed m (y.landed m ks false))) := by
  unfold State.takeBytes
  dsimp only
  rw [h]
  exact ⟨_, rfl⟩

theorem State.takeBytes_waits (h : s.landBytes (xchWho (s.seated w) (s.xchAt w m.gid)) (s.xchAt w m.gid).rbuf (m.bytes.length / 0x8000 + 2)
      (y.roff + m.off) (m.bytes.take ((s.xchAt w m.gid).rlen.toNat - (y.roff + m.off))) = (u, ks, some .wait)) :
    s.takeBytes w rank m y = .next { u.bytesLanded w m (s.xchAt w m.gid) (y.landed m ks true) with
        heldRemote := (u.bytesLanded w m (s.xchAt w m.gid) (y.landed m ks true)).heldRemote
          ++ [.bytes { m with off := m.off + ks.length, bytes := m.bytes.drop ks.length }] } := by
  unfold State.takeBytes
  dsimp only
  rw [h]
  rfl

theorem XchMember.landed_area (x : XchMember) (m : ExchangeMsg) (y : XSource) : (x.landed m y).area = x.area := by
  unfold XchMember.landed
  split <;> rfl

/-- The member of a seat once bytes have landed, and what the engine's stores leave (R381, R391). -/
theorem State.bytesLanded_seat (h : s.SameSeats u) (hw : s.HasSeat w) (m : ExchangeMsg) (x : XchMember) (y : XSource) :
    (u.bytesLanded w m x y).xchAt w m.gid = x.landed m y ∧ (u.bytesLanded w m x y).heldRemote = u.heldRemote
      ∧ (u.bytesLanded w m x y).mem = (u.putArea' x.area (0x40 + 8 * m.src) 8 y.arr).mem := by
  have hput := State.OnlyStores.putArea u x.area (0x40 + 8 * m.src) 8 y.arr
  rw [State.bytesLanded, XchMember.landed_area]
  generalize u.putArea' x.area (0x40 + 8 * m.src) 8 y.arr = v at hput
  have hseat := hput.sameSeats.hasSeat (h.hasSeat hw)
  have hset := v.setXchAt_frame w m.gid (x.landed m y)
  have hmem := congrArg State.mem hset
  have hheld := congrArg State.heldRemote hset
  have hheld' := congrArg State.heldRemote hput.frame
  exact ⟨State.xchAt_setXchAt hseat m.gid _, Eq.trans hheld hheld', hmem⟩

/-- Bytes of a source land, are counted in the area and in the exchange, and what the swap engine holds waits (R101, R391). -/
theorem State.takeBytes_takes {h : Option Halt} (hw : s.HasSeat w) (hy : (s.xchAt w m.gid).sources[m.src]? = some y)
    (hl : s.landBytes (xchWho (s.seated w) (s.xchAt w m.gid)) (s.xchAt w m.gid).rbuf (m.bytes.length / 0x8000 + 2)
      (y.roff + m.off) (m.bytes.take ((s.xchAt w m.gid).rlen.toNat - (y.roff + m.off))) = (u, ks, h)) (hh : h = none ∨ h = some .wait) :
    ∃ t : State, s.takeBytes w rank m y = .next t
      ∧ t.mem = (u.putArea' (s.xchAt w m.gid).area (0x40 + 8 * m.src) 8 (y.arr + ks.length)).mem
      ∧ (h = some .wait → t.heldRemote = u.heldRemote ++ [.bytes { m with off := m.off + ks.length, bytes := m.bytes.drop ks.length }])
      ∧ let z := t.xchAt w m.gid
        z.sources[m.src]? = some { y with arr := y.arr + ks.length, complete := y.complete || (m.last && h.isNone), keys := y.keys ++ ks }
        ∧ (∀ j, j ≠ m.src → z.sources[j]? = (s.xchAt w m.gid).sources[j]?)
        ∧ (z.flags.getLsbD 0 = true ↔ m.short = true ∨ (s.xchAt w m.gid).flags.getLsbD 0 = true) := by
  have hseats := (State.OnlyStores.of_landBytes hl).sameSeats
  generalize hx : s.xchAt w m.gid = x at hl hy ⊢
  rcases hh with rfl | rfl
  · obtain ⟨out, ht⟩ := State.takeBytes_lands (rank := rank) (by rw [hx]; exact hl)
    rw [hx] at ht
    obtain ⟨hxch, hheld, hmem⟩ := State.bytesLanded_seat hseats hw m x (y.landed m ks false)
    generalize u.bytesLanded w m x (y.landed m ks false) = v at ht hxch hmem
    generalize hv : ({ v with outbox := out } : State) = v' at ht
    have hsame : v.SameSeats v' := by
      rw [← hv]
      exact ⟨rfl, rfl, rfl⟩
    have hmem' : v'.mem = v.mem := by rw [← hv]
    have hsettle := congrArg State.mem (v'.xchSettle_frame (x.landed m (y.landed m ks false)))
    refine ⟨_, ht, (Eq.trans hsettle hmem').trans hmem, fun h => (by simp at h), ?_⟩
    rw [(State.sameSeats_xchSettle ..).xchAt, hsame.xchAt, hxch]
    exact x.landed_fields m (y.landed m ks false) hy
  · have ht := State.takeBytes_waits (rank := rank) (s := s) (w := w) (m := m) (y := y) (by rw [hx]; exact hl)
    rw [hx] at ht
    obtain ⟨hxch, hheld, hmem⟩ := State.bytesLanded_seat hseats hw m x (y.landed m ks true)
    generalize u.bytesLanded w m x (y.landed m ks true) = v at ht hxch hmem hheld
    generalize hv : ({ v with heldRemote := v.heldRemote ++ [.bytes { m with off := m.off + ks.length, bytes := m.bytes.drop ks.length }] }
      : State) = v' at ht
    have hsame : v.SameSeats v' := by
      rw [← hv]
      exact ⟨rfl, rfl, rfl⟩
    have hmem' : v'.mem = v.mem := by rw [← hv]
    refine ⟨_, ht, hmem'.trans hmem, fun _ => ?_, ?_⟩
    · rw [← hheld, ← hv]
    · rw [hsame.xchAt, hxch]
      exact x.landed_fields m (y.landed m ks true) hy

end

end Sys2Proof.Machine

namespace Sys2Proof.Machine
/-! # The exchange engine's steps (O58) -/

variable {s : State} {g : Group} {m : DemandMsg} {x : Imposition}

/-- The Imposition in which a row is recorded: a new one, one of the next generation where a calendar is fixed, or the one
at hand (R385, R397). -/
theorem State.eq_imposition
    (hn : s.imposer? m.gid = none →
      x = ⟨m.gid, false, [], 0, 0, none, false, [], 0, m.gen, 0, [], [], false, if s.imposerAt g 0 then 0 else 1, m.gen⟩)
    (hs : ∀ z, s.imposer? m.gid = some z → x = if z.fixedAt.isSome then
      ⟨m.gid, false, [], 0, 0, none, false, [], 0, max z.gen m.gen, 0, [], [], false, if s.imposerAt g 0 then 0 else 1, z.firstGen⟩
      else { z with gen := max z.gen m.gen }) : x = s.imposition g m := by
  unfold State.imposition
  cases h : s.imposer? m.gid with
  | none => exact hn h
  | some z => exact hs z h

section
variable {t u v z : State} {w : Seat} {gid : Nat}

/-- An area taken late by the seats of s, in a state v with the same seats: the exchange starts anew with it (R382, R385). -/
theorem State.takeArea_late {area : List (Nat × Bool)} {sb rb rl : Word} (hv : s.SameSeats v) (hd : v.dev = s.dev)
    (hw : s.memberSeat gid g = some w) (hi : (s.xchAt w gid).active = false ∨ (s.xchAt w gid).complete = true)
    (hu : State.areaBlocks ⟨some (s.seatCore w), (s.seated w).job.ctx, (s.seated w).level⟩ (s.seated w).xbase (List.range 6) v = (u, .ok area))
    (hz : u.areaHead area = (z, some (sb, rb, rl))) :
    (v.takeArea gid g).mem = z.mem
      ∧ let y := (v.takeArea gid g).xchAt w gid
        y.active = true ∧ y.posted = false ∧ y.area = area ∧ y.sbuf = sb ∧ y.rbuf = rb ∧ y.rlen = rl ∧ y.granted = false
        ∧ y.gen = (s.xchAt w gid).gen := by
  have hseats := (hv.trans (State.OnlyMaps.of_areaBlocks hu).sameSeats).trans (State.OnlyMaps.of_areaHead hz).sameSeats
  have hseat := hseats.hasSeat (State.hasSeat_memberSeat hw)
  rw [← hv.memberSeat hd] at hw
  rw [← hv.xchAt] at hi
  rw [← hv.seatCore, ← hv.seated] at hu
  have hmem := congrArg State.mem (z.setXchAt_frame w gid (v.lateXch w gid g area sb rb rl))
  rw [State.takeArea_taken hw hi hu hz, State.xchAt_setXchAt hseat, ← hv.xchAt]
  exact ⟨hmem, rfl, rfl, rfl, rfl, rfl, rfl, rfl, rfl⟩

section
variable (hg : s.group? gid = some g) (hx : s.imposer? gid = some x)
include hg hx

/-- The calendar that CALENDAR_DEADLINE fixes (R385). -/
theorem execCalendarDeadline_fixes (hl : x.leads = true) (hd : x.Due s.dtime) :
    ∃ (t : State) (y : Imposition), execCalendarDeadline gid s = .next t ∧ t.imposer? gid = some y
      ∧ y.fixedAt = some s.dtime ∧ y.gen = (x.gen + 1) % 2 ^ 32 ∧ y.written = false
      ∧ ((∀ w, s.memberSeat gid g = some w → (s.xchAt w gid).active = true ∧ (s.xchAt w gid).complete = false) →
          t.mem = s.mem ∧ t.threads = s.threads ∧ t.saved = s.saved) := by
  have hseats := s.sameSeats_setImposer (s.fixNow g x)
  have hkeep := State.KeepsCalendars.takeArea (s.setImposer (s.fixNow g x)) gid g
  have hgid := State.gid_of_imposer? hx
  refine ⟨_, s.fixNow g x, execCalendarDeadline_due hg hx hl hd, ?_, rfl, rfl, rfl, fun hbusy => ?_⟩
  · rw [State.imposer?, hkeep.imposers]
    exact s.imposer?_setImposer_of_gid (y := s.fixNow g x) hgid
  · rw [State.takeArea_busy fun w hw => ?_]
    · exact ⟨rfl, rfl, rfl⟩
    · rw [hseats.memberSeat rfl] at hw
      rw [hseats.xchAt]
      exact hbusy w hw

/-- At its deadline, or where this device does not lead, CALENDAR_DEADLINE takes the area of a member without a row. -/
theorem execCalendarDeadline_area (hd : x.leads = true → x.Due s.dtime) :
    execCalendarDeadline gid s
      = .next ((if x.place = 0 ∨ x.lead = true then s.setImposer (s.fixNow g x) else s).takeArea gid g) := by
  by_cases hl : x.leads = true
  · rw [execCalendarDeadline_due hg hx hl (hd hl), if_pos (x.leads_iff.mp hl)]
  · rw [execCalendarDeadline_standby hg hx hl, if_neg (mt x.leads_iff.mpr hl)]

end

/-- The ready flits of a generation that came before its calendar (R390). -/
theorem XchMember.mem_readyOf (x : XchMember) (gen : Nat) (r : Nat × Option Nat) :
    r ∈ (x.readyNext.filter (·.gen == gen)).map (fun q => (q.dst, q.sheet)) ↔ ∃ q ∈ x.readyNext, q.gen = gen ∧ r = (q.dst, q.sheet) := by
  simp only [List.mem_map, List.mem_filter, beq_iff_eq, and_assoc, eq_comm (a := r)]

/-- A member accepts a calendar of a higher generation, and no other (R385, R387, R390, R396). -/
theorem execGrantWrite_accepts {rank : Nat} {m : GrantsMsg} (hg : s.group? gid = some g) (hx : s.imposer? gid = none)
    (hw : s.memberSeat gid g = some w) (hr : g.rankOf s.dev = some rank) (he : ∀ e ∈ s.early, e.gid ≠ gid)
    (h : s.genOf gid (s.xchAt w gid) < m.gen) (hm : m.gen < 2 ^ 32)
    (ha : (s.xchAt w gid).active = true) (hc : (s.xchAt w gid).complete = false) :
    ∃ t : State, execGrantWrite gid (some m) s = .next t ∧ (s.latent = [] → t.seq = s.seq + 1) ∧ (t.seated w).xgen.toNat = m.gen
      ∧ FMap.get? t.xgens gid = some m.gen
      ∧ (t.xchAt w gid).HasCalendar g.n m (((s.xchAt w gid).readyNext.filter (·.gen == m.gen)).map fun r => (r.dst, r.sheet)) :=
  ⟨_, (execGrantWrite_told hg hx).trans ((State.takeGrants_noEarly he).trans (congrArg _ (State.acceptGrants_new hw hr h ha hc))),
    State.accepted_seat (State.hasSeat_memberSeat hw) gid rank ((s.xchAt w gid).hasCalendar_withGrants g.n s.dtime (s.isDead g) m) hm⟩

end

/-- Settles O58, clause by clause: the rows that reach an Imposer, its deadline, heartbeats and standby, the calendar that a
member accepts, and the sends and arrivals of its engine. -/
theorem exchangeEngineSteps : Obligations.ExchangeEngineSteps := by
  unfold Obligations.ExchangeEngineSteps
  refine ⟨fun m s g hg => ?_, fun s gid g x hg hx => ?_, fun s gid g w rank m hg hx hw hr he => ?_, fun s gid w rank hw => ?_⟩
  · intro noted
    have hback (hb : m.back = true) : exec (.demandRow m) s = _ := execDemandRow_back hg hb
    refine ⟨fun hb hr => ?_, fun w hb hr hw => ?_, fun hb hn => ?_⟩
    · rw [hback hb, if_neg hr]
    · rw [hback hb, if_pos hr, State.discardRow_own hr hw]
    · intro missed
      have hmissed : missed ↔ s.MissedRow m := .rfl
      refine ⟨fun hm => ?_, fun hm => ?_⟩
      · have hexec : exec (.demandRow m) s = _ := execDemandRow_missed hg hb hn (hmissed.mp hm)
        refine ⟨fun hr => ?_, fun w hr hw => ?_⟩
        · rw [hexec, State.discardRow_other hr]
        · rw [hexec, State.discardRow_own hr hw]
      · intro place x hnew hold old row
        obtain rfl := State.eq_imposition hnew hold
        exact execDemandRow_records hg hb hn hm
  · intro leads
    have hleads : x.leads = true ↔ leads := x.leads_iff
    refine ⟨?_, fun hf hwr hl he => ?_, fun hl heard => ?_, fun hl heard => ?_, fun h => ?_, fun hm hl => ?_⟩
    · intro due
      refine ⟨fun hl hd => execCalendarDeadline_early hg hx (hleads.mpr hl) hd, fun hl hd => execCalendarDeadline_fixes hg hx (hleads.mpr hl) hd, ?_⟩
      intro w hd hw hi v c u area z sb rb rl hu hz
      have hv : s.SameSeats v ∧ v.dev = s.dev := by
        dsimp only [v]
        split
        · exact ⟨s.sameSeats_setImposer _, rfl⟩
        · exact ⟨.refl s, rfl⟩
      exact ⟨_, execCalendarDeadline_area hg hx (fun hl => hd (hleads.mp hl)), State.takeArea_late hv.1 hv.2 hw hi hu hz⟩
    · exact execGrantWrite_writes hg hx hf hwr (hleads.mpr hl) he
    · exact execImposerHeartbeat_leads hx (hleads.mpr hl) heard
    · exact execImposerHeartbeat_standby hx (mt hleads.mp hl) heard
    · exact execStandbyTakeover_not hg hx (h.imp_right hleads.mpr)
    · exact execStandbyTakeover_takes hg hx hm (mt hleads.mp hl)
  · intro x seen
    refine ⟨fun h => ?_, fun h hm ha hc => ?_⟩
    · have hexec : exec (.grantWrite gid (some m)) s = _ := execGrantWrite_told hg hx
      rw [hexec, State.takeGrants_noEarly he, State.acceptGrants_old hw hr h]
    · obtain ⟨t, ht, hseq, hxgen, hxgens, hcal⟩ := execGrantWrite_accepts hg hx hw hr he h hm ha hc
      refine ⟨t, ht, hseq, hxgen, hxgens, hcal.granted, hcal.grants, hcal.t0, hcal.tend, hcal.gen, hcal.sources, hcal.dests, fun r => ?_⟩
      rw [hcal.ready]
      exact x.mem_readyOf m.gen r
  · intro now x dest sends sheet tail lets
    have hlets : x.tailReady rank = lets := by
      unfold XchMember.tailReady lets
      cases x.sources.findIdx? (!·.complete) <;> rfl
    refine ⟨fun k h hk => ⟨execSheetStart_early hw hk, fun ht => execSheetStart_sends hw hk ht⟩, execLooseTailStart_not hw,
      fun hgr ht => ?_, fun m hm => ?_, State.joinExchange_joined hw, fun m hm => ?_, ?_⟩
    · rw [← hlets]
      exact execLooseTailStart_sends hw hgr ht
    · subst hm
      obtain ⟨hgen, hgranted, htend, hready⟩ := State.joined_calendar hw
      refine ⟨execReadyFlit_other hw, fun h hg => execReadyFlit_next hw h (hgen ▸ hg), fun h hle hg => ?_, fun k ⟨h, hg, hgr⟩ hk => ?_,
        fun ⟨h, hg, hgr⟩ hk ht => ?_, fun ⟨h, hg, hgr⟩ hk ht => ?_⟩
      · exact execReadyFlit_past hw h (hgen ▸ hle) (hgranted ▸ hgen ▸ hg)
      · exact execReadyFlit_sheet hw h (hg.trans hgen) (hgranted.symm.trans hgr) hk
      · exact execReadyFlit_tail hw h (hg.trans hgen) (hgranted.symm.trans hgr) hk
      · exact execReadyFlit_early hw h (hg.trans hgen) (hgranted.symm.trans hgr) hk ht
    · subst hm
      exact execExchangeBytes_early hw
    · intro m y x hm hgr hc hy
      subst hm
      have hexec : exec (.exchangeBytes m) s = _ := execExchangeBytes_granted hw hgr hc hy
      refine ⟨fun hd => ?_, fun hd hh => ?_, fun hd hh u ks h hl hhalt => ?_⟩
      · rw [hexec, if_pos hd]
      · rw [hexec, if_neg (not_not_intro hd), if_pos hh]
      · rw [hexec, if_neg (not_not_intro hd), if_neg (by simp [hh])]
        exact State.takeBytes_takes (State.hasSeat_exchanging hw) hy hl hhalt

end Sys2Proof.Machine

namespace Sys2Proof.Machine
/-! # Scalar stores (R147 to R149, R441) -/

variable {s t u : State} {va : Word} {who : Who} {cls : AccClass} {acc : Acc}

/-! ## The bytes of an access -/

theorem length_mapM_ok {α β ε : Type} {f : α → Except ε β} {l : List α} {r : List β} (h : l.mapM f = .ok r) : r.length = l.length := by
  induction l generalizing r with
  | nil =>
    cases h
    rfl
  | cons a l ih =>
    rw [List.mapM_cons] at h
    cases ha : f a with
    | error e => simp [ha, bind, Except.bind] at h
    | ok b =>
      cases hl : l.mapM f with
      | error e => simp [ha, hl, bind, Except.bind] at h
      | ok m =>
        simp only [ha, hl, bind, Except.bind, pure, Except.pure, Except.ok.injEq] at h
        rw [← h, List.length_cons, List.length_cons, ih hl]

/-- An access translates no more bytes than were asked for. -/
theorem State.xlateBytes_length {bank fuel n : Nat} {l : List ByteAt} (h : State.xlateBytes bank who cls acc fuel s va n = (t, .ok l)) :
    l.length ≤ n := by
  induction fuel generalizing s va n l with
  | zero =>
    cases h
    exact n.zero_le
  | succ fuel ih =>
    unfold State.xlateBytes at h
    dsimp only at h
    split at h
    · cases h
      exact n.zero_le
    · split at h
      · cases h
      · split at h
        · cases h
        · rename_i hplace
          have hlen := length_mapM_ok hplace
          split at h
          · cases h
          · rename_i hrest
            cases h
            have := ih hrest
            simp only [List.length_append, List.length_range] at *
            omega

/-- A scalar access that translates reaches no more bytes than its size, and leaves the threads as they stand. -/
theorem State.scalarAccess_ok {addr : Word} {n : Nat} {l : List ByteAt} (h : s.scalarAccess cls acc addr n = (u, .ok l)) :
    s.SameThreads u ∧ l.length ≤ n := by
  unfold State.scalarAccess at h
  split at h
  · cases h
  · split at h
    · cases h
    · exact ⟨.span h, State.xlateBytes_length h⟩

/-! ## The copies in the data cache (R149) -/

/-- A copy that the cache holds of a stored byte becomes that byte. -/
theorem State.get?_updateCache (core : Nat) {l : List (Nat × Byte)} (hl : (l.map (·.1)).Nodup) {k : Nat} {x : Byte} (h : (k, x) ∈ l)
    (hc : (Cells.get? s.dcache (cacheKey core k)).isSome = true) :
    Cells.get? (s.updateCache core l).dcache (cacheKey core k) = some x := by
  have hfind : l.find? (fun p => cacheKey core p.1 == cacheKey core k) = some (k, x) := by
    cases hp : l.find? fun p => cacheKey core p.1 == cacheKey core k with
    | none =>
      have := List.find?_eq_none.mp hp (k, x) h
      simp at this
    | some p =>
      have hkey := List.find?_some hp
      simp only [cacheKey, beq_iff_eq, Nat.add_left_cancel_iff] at hkey
      exact congrArg some (List.inj_on_of_nodup_map hl (List.mem_of_find?_eq_some hp) h hkey)
  unfold State.updateCache
  dsimp only
  generalize s.dcache = m at hc
  induction m with
  | nil => simp [Cells.get?] at hc
  | cons c m ih =>
    obtain ⟨a, b⟩ := c
    by_cases ha : a = cacheKey core k
    · subst ha
      simp [hfind, Cells.get?]
    · simp only [Cells.get?, if_neg ha] at hc
      rw [List.map_cons, ← ih hc]
      split <;> simp [Cells.get?, ha]

/-! ## The errors that a store meets (R441) -/

/-- With no error present, a merged write takes the poison from the words that it replaces whole, and does nothing else. -/
theorem State.merged_noLatent (h : s.latent = []) (keys whole : List Nat) :
    s.merged keys whole = { s with poison := s.poison.filter (!(wholeWords whole).contains ·) } := by
  unfold State.merged
  split
  · rename_i he
    have hp : s.poison = [] := by simp_all
    rw [hp, List.filter_nil, ← hp]
  · dsimp only
    rw [h, List.filter_nil, List.foldl_fixed' fun a => State.rewrite_clean rfl a, ← h]

/-- With no error present, a store writes its bytes and takes the poison from the words that it replaces whole. -/
theorem State.write_noLatent (h : s.latent = []) (l : List (Nat × Byte)) :
    s.write l = { s.poke l with poison := s.poison.filter (!(wholeWords (l.map (·.1))).contains ·) } :=
  State.merged_noLatent (s := s.poke l) h _ _

/-! ## The store -/

/-- What a scalar store does once its access has translated. -/
theorem scalarStore_ok {f : IF} {n : Nat} {l : List ByteAt} (hfree : s.Free [f.d, f.a])
    (h : (s.seen [f.d, f.a]).scalarAccess .plain .write (s.lc.rd f.a + BitVec.ofInt 64 f.imm.toInt) n = (u, .ok l)) :
    scalarStore n f s =
      let w := (l.map (·.key)).zip (leBytes n (s.lc.rd f.d).toNat)
      .next (((u.write w).updateCache u.core w).setLc u.lc.advance) := by
  have hd : u.lc.rd f.d = s.lc.rd f.d := by rw [(State.scalarAccess_ok h).1.lc_eq, State.rd_seen]
  simp only [scalarStore, scalar_free hfree, State.rd_seen, imm15_eq_ofInt, h, hd]

theorem exec_storeRules {f : IF} {p : Instr × Nat} (hp : p ∈ storeRules f) : exec p.1 s = scalarStore p.2 f s := by
  simp only [storeRules, List.mem_cons, List.not_mem_nil, or_false] at hp
  obtain rfl | rfl | rfl | rfl := hp <;> rfl

/-- Settles O35: a store is the write of its bytes, the update of their copies and the advance of the pc (`scalarStore_ok`);
each clause is what one of the three does. -/
theorem scalarStoreResults : Obligations.ScalarStoreResults := by
  intro f p hp s u l hfree hx
  obtain ⟨hthreads, hlen⟩ := State.scalarAccess_ok hx
  set w := (l.map (·.key)).zip (leBytes p.2 (s.lc.rd f.d).toNat)
  have hkeys : w.map (·.1) = l.map (·.key) := List.map_fst_zip (by simpa using hlen)
  have hlc : { u.lc with unseen := s.lc.unseen } = s.lc := by
    obtain ⟨unseen, hseen⟩ := State.lc_seen (s := s) (gs := [f.d, f.a])
    rw [hthreads.lc_eq, hseen]
  have hpc : u.lc.pc = s.lc.pc := by
    have h := congrArg LCore.pc hlc
    exact h
  refine ⟨_, (exec_storeRules hp).trans (scalarStore_ok hfree hx), State.mem_write u w, ?_, ?_, hlc, ?_, ?_, ?_, ?_⟩
  · intro a ha
    refine (congrArg (Memory.get · a) (State.mem_write u w)).trans (Memory.get_putAll_other _ _ fun q hq hqa => ha ?_)
    rw [← hkeys, ← hqa]
    exact List.mem_map_of_mem hq
  · rw [State.lc_setLc, ← hpc]
    rfl
  · intro n hn
    rw [State.thr_setLc_other _ _ (by exact fun h => hn (h.trans (State.cur_write u w)))]
    exact congrArg (fun m => (FMap.get? m n).getD HThread.idle) (State.threads_write u w)
  · have h := congrArg (fun v : State => { v with threads := u.threads, mem := u.mem, dcache := u.dcache, unreach := u.unreach })
      (State.withErrors_write u w)
    exact h
  · intro hl
    have hwrite := State.write_noLatent hl w
    rw [hkeys] at hwrite
    rw [hwrite]
    exact ⟨rfl, rfl⟩
  · intro k x hk hnodup hc
    have hdc : (u.write w).dcache = u.dcache := State.dcache_write u w
    have hcore : (u.write w).cur = u.cur := State.cur_write u w
    have h := State.get?_updateCache (s := u.write w) u.core (by rwa [hkeys]) hk (by rwa [hdc])
    have hk' : (u.write w).core = u.core := congrArg (· / 4) hcore
    exact (congrArg (fun c => Cells.get? _ (cacheKey c k)) hk').trans h

end Sys2Proof.Machine

namespace Sys2Proof.Machine
/-! # After reset (R107, R424, R454) -/

/-- No thread holds a logical core, and each SSCR is 0. -/
theorem State.thr_reset (n : Nat) : State.reset.thr n = .idle := rfl

/-- No queue is enabled. -/
theorem State.en_queue_reset (slot : Nat) : (State.reset.queue slot).en = false := rfl

/-- No word is poisoned, and none is retired. -/
theorem State.poisoned_reset (a : Nat) : State.reset.poisoned a = false := rfl

/-- Settles O4: the lists of the reset state are empty, so each lookup answers its default (R107, R424, R446, R454). -/
theorem resetCanonical : Obligations.ResetCanonical := by
  have hthr (n : Nat) : (State.reset.thr n).occupied = false ∧ (State.reset.thr n).sscr = 0 := by
    rw [State.thr_reset]
    exact ⟨rfl, rfl⟩
  have hsecnt : ∀ n ∈ State.reset.host.secnt, n = 0 := fun _ hn => List.eq_of_mem_replicate hn
  exact ⟨State.wf_reset, fun _ _ => rfl, State.poisoned_reset, hthr, rfl, State.en_queue_reset, rfl, rfl, rfl, rfl, rfl, rfl, rfl,
    rfl, rfl, rfl, rfl, rfl, rfl, rfl, hsecnt⟩

end Sys2Proof.Machine

namespace Sys2Proof.Machine
/-! # The configuration space (R452 to R458) -/

variable {s : State} {off bytes : Nat} {v : Word}

/-! ## Which offsets take an access -/

theorem State.hostReady_iff : s.hostReady = true ↔ s.host.bootState = 3 := by simp [State.hostReady]

theorem State.hostReady_eq_false (h : s.host.bootState ≠ 3) : s.hostReady = false :=
  Bool.eq_false_iff.mpr (mt State.hostReady_iff.mp h)

theorem inAttbuf_iff : inAttbuf off = true ↔ 0x1000 ≤ off ∧ off < 0x2000 := by simp [inAttbuf]

theorem inAttbuf_eq_false (h : ¬ (0x1000 ≤ off ∧ off < 0x2000)) : inAttbuf off = false :=
  Bool.eq_false_iff.mpr (mt inAttbuf_iff.mp h)

theorem sscriOf_thread {n : Nat} (h : n < 768) : sscriOf (0x2000 + 8 * n) = some n := by
  rw [sscriOf, if_pos (by omega), Nat.add_sub_cancel_left, Nat.mul_div_cancel_left n (by decide)]

theorem sscriOf_below (h : off < 0x2000) : sscriOf off = none := if_neg (by omega)

/-! ## Accesses that reach no register (R452) -/

/-- A write of other than 8 aligned bytes is discarded. -/
theorem execConfigWrite_discarded {x : HostWrite} (h : x.bytes ≠ 8 ∨ off % 8 ≠ 0) : execConfigWrite off x s = .next s := if_pos h

theorem State.bar0Read_discarded (h : bytes ≠ 8 ∨ off % 8 ≠ 0) : s.bar0Read off bytes = 0 := by
  by_cases hb : bytes = 8
  · rw [State.bar0Read, if_pos hb, State.configRead, if_pos (h.resolve_left (not_not_intro hb))]
  · exact if_neg hb

theorem State.bar0Read_eight : s.bar0Read off 8 = s.configRead off := if_pos rfl

/-- Before READY a write of a register other than ATTCMD and ATTBUF is discarded. -/
theorem execConfigWrite_notReady (hr : s.host.bootState ≠ 3) (ho : off ≠ 0x10) (ha : inAttbuf off = false) :
    execConfigWrite off ⟨8, v⟩ s = .next s := by
  have hskip : (!s.hostReady && off != 0x10) = true := by rw [State.hostReady_eq_false hr, bne_iff_ne.mpr ho]; rfl
  rw [execConfigWrite, ha, hskip]
  exact ite_self _

/-- Before READY a register other than BOOTST, ATTCMD and ATTBUF reads 0. -/
theorem State.configRead_notReady (hr : s.host.bootState ≠ 3) (h0 : off ≠ 0) (ho : off ≠ 0x10) (ha : inAttbuf off = false) :
    s.configRead off = 0 := by
  rw [State.configRead, if_neg h0, if_neg ho, ha, State.hostReady_eq_false hr]
  exact ite_self 0

/-! ## ATTBUF (R457) -/

/-- A number read from bytes of a canonical store after it was written there. -/
theorem Memory.leNat_putAll {m : List Host.Cell} (h : Memory.wf m = true) (a n x : Nat) :
    leNat ((keysFrom a n).map (Memory.get (Memory.putAll m ((keysFrom a n).zip (leBytes n x))))) = x % 256 ^ n :=
  State.num_putNum (s := { State.reset with mem := m }) a n x h

/-- ATTBUF takes a write once step 1 of the boot has ended. -/
theorem execConfigWrite_attbuf (h8 : off % 8 = 0) (ha : inAttbuf off = true) (hl : s.host.linked = true) :
    execConfigWrite off ⟨8, v⟩ s = .next { s with host := { s.host with
      attbuf := Memory.putAll s.host.attbuf ((keysFrom (off - 0x1000) 8).zip (leBytes 8 v.toNat)) } } := by
  simp [execConfigWrite, h8, ha, hl]

theorem State.configRead_attbuf (h8 : off % 8 = 0) (ha : inAttbuf off = true) (hl : s.host.linked = true) :
    s.configRead off = BitVec.ofNat 64 (leNat ((keysFrom (off - 0x1000) 8).map (Memory.get s.host.attbuf))) := by
  obtain ⟨hlo, hhi⟩ := inAttbuf_iff.mp ha
  have h0 : off ≠ 0 := by omega
  have h1 : off ≠ 0x10 := by omega
  simp [State.configRead, h8, ha, hl, h0, h1]

/-! ## BOOTST (R455) -/

/-- The fields of BOOTST lie side by side below bit 56. -/
theorem State.bootst_toNat : s.bootst.toNat = s.host.bootState.toNat + s.host.fwver.toNat * 2 ^ 16 + s.host.rate.toNat * 2 ^ 32
    + s.host.mods.toNat * 2 ^ 36 + s.host.hbm.toNat * 2 ^ 40 + s.host.ports.toNat * 2 ^ 51 := by
  have hstate := s.host.bootState.isLt
  have hfwver := s.host.fwver.isLt
  have hrate := s.host.rate.isLt
  have hmods := s.host.mods.isLt
  have hhbm := s.host.hbm.isLt
  have hports := s.host.ports.isLt
  simp only [State.bootst, BitVec.toNat_ofNat]
  omega

/-! ## Registers once READY -/

/-- A write of SSCRI is a write of the SSCR of its thread (R424). -/
theorem execConfigWrite_sscri (hr : s.host.bootState = 3) {n : Nat} (h : n < 768) :
    execConfigWrite (0x2000 + 8 * n) ⟨8, v⟩ s = .next (s.setThr n { s.thr n with sscr := v }) := by
  have h8 : (0x2000 + 8 * n) % 8 = 0 := by omega
  have ha : inAttbuf (0x2000 + 8 * n) = false := inAttbuf_eq_false (by omega)
  simp [execConfigWrite, h8, ha, State.hostReady_iff.mpr hr, sscriOf_thread h]

/-- A write of a register below ATTBUF, other than CTXCTL, sets its fields and nothing else. -/
theorem execConfigWrite_register (hr : s.host.bootState = 3) (h8 : off % 8 = 0) (hb : off < 0x1000) (hc : off ≠ 0x58) :
    execConfigWrite off ⟨8, v⟩ s = .next { s with host := s.host.written off v } := by
  have ha : inAttbuf off = false := inAttbuf_eq_false (by omega)
  simp [execConfigWrite, h8, ha, State.hostReady_iff.mpr hr, sscriOf_below (show off < 0x2000 by omega), hc]

/-- A write of CTXCTL is an event of the sequencer (R415). -/
theorem execConfigWrite_ctxctl (hr : s.host.bootState = 3) :
    execConfigWrite 0x58 ⟨8, v⟩ s = .next { s.stamp with host := s.host.written 0x58 v } := by
  simp [execConfigWrite, inAttbuf, State.hostReady_iff.mpr hr, sscriOf, State.stamp]

/-- The registers that read back the bits written to them (R458). -/
def readBackOffsets : List Nat := [0x28, 0x30, 0x38, 0x40, 0x48, 0x68, 0x70, 0x78]

/-- Once READY, such a register reads back its writable bits. -/
theorem State.configRead_written_same (hr : s.host.bootState = 3) (h : off ∈ readBackOffsets) :
    State.configRead { s with host := s.host.written off v } off = v &&& configMask off := by
  simp only [readBackOffsets, List.mem_cons, List.not_mem_nil, or_false] at h
  obtain rfl | rfl | rfl | rfl | rfl | rfl | rfl | rfl := h <;> simp [State.configRead, HostRegs.written, State.hostReady, hr, inAttbuf]

/-- A write of such a register leaves what every other register reads as. -/
theorem State.configRead_written_other (h : off ∈ readBackOffsets) {o : Nat} (ho : o ≠ off) :
    State.configRead { s with host := s.host.written off v } o = s.configRead o := by
  simp only [readBackOffsets, List.mem_cons, List.not_mem_nil, or_false] at h
  obtain rfl | rfl | rfl | rfl | rfl | rfl | rfl | rfl := h <;>
    simp [State.configRead, HostRegs.written, State.hostReady, State.bootst, State.queue, State.thr, ho]

end Sys2Proof.Machine

namespace Sys2Proof.Machine
/-! # Loading and unloading kernels (R40, R41, R458, R459) -/

variable {s t u w : State} {v : Word} {j : LoadJob}

/-! ## The fields of KLDCMD (R458) -/

/-- The index and the context that a write of KLDCMD names, as numbers. -/
theorem HostRegs.kldFields_toNat (h : HostRegs) :
    (h.kldFields v).kldKidx.toNat = v.toNat / 2 ^ 32 % 2 ^ 16 ∧ (h.kldFields v).kldCtx.toNat = v.toNat % 2 ^ 12 := by
  simp [HostRegs.kldFields, BitVec.extractLsb'_toNat, Nat.shiftRight_eq_div_pow]

/-- Bit 62 belongs to neither: a load clears it, an unload sets it. -/
theorem HostRegs.kldFields_load (h : HostRegs) :
    (h.kldFields (v &&& ~~~(0x4000000000000000 : Word))).kldKidx.toNat = v.toNat / 2 ^ 32 % 2 ^ 16
    ∧ (h.kldFields (v &&& ~~~(0x4000000000000000 : Word))).kldCtx.toNat = v.toNat % 2 ^ 12 := by
  rw [← (h.kldFields_toNat).1, ← (h.kldFields_toNat).2]
  constructor <;> refine congrArg BitVec.toNat ((BitVec.extractLsb'_and ..).trans BitVec.and_allOnes)

theorem HostRegs.kldFields_unload (h : HostRegs) :
    (h.kldFields (v ||| 0x4000000000000000)).kldKidx.toNat = v.toNat / 2 ^ 32 % 2 ^ 16
    ∧ (h.kldFields (v ||| 0x4000000000000000)).kldCtx.toNat = v.toNat % 2 ^ 12 := by
  rw [← (h.kldFields_toNat).1, ← (h.kldFields_toNat).2]
  constructor <;> exact congrArg BitVec.toNat ((BitVec.extractLsb'_or ..).trans BitVec.or_zero)

/-! ## KERNEL_LOAD (R458) -/

/-- With no load under way, the one asked for starts. -/
theorem execKernelLoad_starts (hr : s.host.bootState = 3) (hl : s.host.loading = none) :
    execKernelLoad v s = .next { s with host := { s.host.kldFields (v &&& ~~~(0x4000000000000000 : Word)) with
      loading := some ⟨v.toNat / 2 ^ 32 % 2 ^ 16, v.toNat % 2 ^ 12, s.host.klddsc, s.host.kldtxt, s.host.kldvlt⟩ } } := by
  have hnone : (s.host.kldFields (v &&& ~~~(0x4000000000000000 : Word))).loading = none := hl
  obtain ⟨hkidx, hctx⟩ := s.host.kldFields_load (v := v)
  simp only [execKernelLoad, State.hostReady_iff.mpr hr, hkidx, hctx, hnone]
  rfl

/-- While a load is under way, another is not started. -/
theorem execKernelLoad_ignored (hr : s.host.bootState = 3) (hl : s.host.loading.isSome = true) :
    execKernelLoad v s = .next { s with host := s.host.kldFields (v &&& ~~~(0x4000000000000000 : Word)) } := by
  simp [execKernelLoad, State.hostReady_iff.mpr hr, HostRegs.kldFields, hl]

/-! ## Reads of words without errors -/

/-- A read of words that are sound, with no error present, changes nothing and gives their bytes. -/
theorem State.read_sound {keys : List Nat} (h : ∀ k ∈ keys, s.poisoned k = false ∧ ∀ l ∈ s.latent, l.word ≠ wordOf k) :
    s.read keys = (s, some (keys.map (Memory.get s.mem))) := by
  have hmeet : ∀ k ∈ wordsOf keys, s.meet k = s := by
    intro w hw
    obtain ⟨k, hk, rfl⟩ := List.mem_map.mp (List.mem_eraseDups.mp hw)
    have hnone : s.latent.find? (·.word == wordOf (wordOf k)) = none := by
      rw [wordOf_wordOf]
      exact List.find?_eq_none.mpr fun l hl => by simpa using (h k hk).2 l hl
    simp only [State.meet, hnone]
  have hmeets : s.meets keys = s := by
    unfold State.meets
    split
    · rfl
    · exact List.foldlRecOn (motive := (· = s)) _ _ rfl fun b hb a ha => hb ▸ hmeet a ha
  have hany : keys.any s.poisoned = false := List.any_eq_false.mpr fun k hk => by simp [(h k hk).1]
  simp [State.read, hmeets, hany]

/-- The descriptor of a context, read from sound words, holds its CROOT (R82). -/
theorem State.descriptor_sound {ctx : Nat}
    (h : ∀ k ∈ keysFrom (s.descKey ctx) 16, s.poisoned k = false ∧ ∀ l ∈ s.latent, l.word ≠ wordOf k) :
    ∃ flags, s.descriptor ctx = (s, some (s.croot ctx, flags)) := by
  have htake : (keysFrom (s.descKey ctx) 16).take 8 = keysFrom (s.descKey ctx) 8 := by
    simp [keysFrom, ← List.map_take, List.take_range]
  simp only [State.descriptor, State.read_sound h, ← List.map_take, htake]
  exact ⟨_, rfl⟩

/-! ## KERNEL_UNLOAD (R459) -/

/-- The state once the fields of KLDCMD have been written by an unload. -/
def State.unloading (s : State) (v : Word) : State := { s with host := s.host.kldFields (v ||| 0x4000000000000000) }

/-- An unload is ignored while a load is under way. -/
theorem execKernelUnload_loading (hr : s.host.bootState = 3) (hl : s.host.loading.isSome = true) :
    execKernelUnload v s = .next (s.unloading v) := by
  simp [execKernelUnload, State.hostReady_iff.mpr hr, HostRegs.kldFields, State.unloading, hl]

/-- The state once an unload has written its CODE, and the kernels it leaves. -/
def State.unloaded (s : State) (v : Word) (code : BitVec 16) (ks : List Kernel) : State :=
  { s.unloading v with kernels := ks, host := { (s.unloading v).host with kldCode := code } }

section
variable (hr : s.host.bootState = 3) (hl : s.host.loading = none)
  (hs : ∀ k ∈ keysFrom (s.descKey (v.toNat % 2 ^ 12)) 16, s.poisoned k = false ∧ ∀ l ∈ s.latent, l.word ≠ wordOf k)
include hr hl hs

/-- An unload checks the validity of the context, then whether the index is in use. -/
theorem execKernelUnload_sound : execKernelUnload v s = .next (
    if (s.croot (v.toNat % 2 ^ 12)).getLsbD 0 = false then s.unloaded v 0x0A04 s.kernels
    else if s.kidxUsed (v.toNat / 2 ^ 32 % 2 ^ 16) = true then s.unloaded v 0x0A03 s.kernels
    else s.unloaded v 0 (s.kernels.filter (·.kidx != v.toNat / 2 ^ 32 % 2 ^ 16))) := by
  obtain ⟨hkidx, hctx⟩ := s.host.kldFields_unload (v := v)
  have hnone : (s.host.kldFields (v ||| 0x4000000000000000)).loading.isSome = false := Option.isSome_eq_false_iff.mpr (Option.isNone_iff_eq_none.mpr hl)
  obtain ⟨flags, hd⟩ : ∃ flags, (s.unloading v).descriptor (v.toNat % 2 ^ 12) = (s.unloading v, some (s.croot (v.toNat % 2 ^ 12), flags)) :=
    State.descriptor_sound (s := s.unloading v) hs
  have hused : (s.unloading v).kidxUsed (v.toNat / 2 ^ 32 % 2 ^ 16) = s.kidxUsed (v.toNat / 2 ^ 32 % 2 ^ 16) := rfl
  unfold State.unloading at hd hused
  simp only [execKernelUnload, State.hostReady_iff.mpr hr, hkidx, hctx, hnone, hd, hused]
  cases (s.croot (v.toNat % 2 ^ 12)).getLsbD 0 <;> cases s.kidxUsed (v.toNat / 2 ^ 32 % 2 ^ 16) <;> rfl

end

/-! ## A load (R459) -/

/-- A load ends with what it has done, its CODE and the MSI-X vector 3. -/
theorem exec_kernelLoadDone (hj : s.host.loading = some j) {code : BitVec 16} (h : s.loadKernel j = (u, code)) :
    exec .kernelLoadDone s = .next { u with host := { u.host with loading := none, kldCode := code }, msix := u.msix ++ [3] } := by
  have hexec : exec .kernelLoadDone s = execKernelLoadDone s := rfl
  simp only [hexec, execKernelLoadDone, hj, h]

theorem exec_kernelLoadDone_gives (hj : s.host.loading = some j) {code : BitVec 16} (h : s.loadKernel j = (u, code)) :
    ∃ t : State, exec .kernelLoadDone s = .next t ∧ t.kernels = u.kernels ∧ t.host.kldCode = code ∧ t.host.loading = none
      ∧ t.msix = u.msix ++ [3] ∧ t.mem = u.mem := ⟨_, exec_kernelLoadDone hj h, rfl, rfl, rfl, rfl, rfl⟩

/-- A killed context is no longer resident (R423). -/
theorem State.not_mem_contexts_kill (s : State) (ctx : Nat) (cause : BitVec 8) (thr : Nat) : ctx ∉ (s.kill ctx cause thr).contexts := by
  have hended (l : List Launch) (u : State) : (l.foldl (fun (u : State) x => u.endLaunch x.seq) u).contexts = u.contexts :=
    List.foldlRecOn (motive := fun t : State => t.contexts = u.contexts) l _ rfl fun t ht x _ => ht
  simp [State.kill, hended]

theorem State.loadKernel_poisoned (h : s.descriptor j.ctx = (u, none)) :
    s.loadKernel j = (u.kill j.ctx Cause.poison.code 0, 0x0A04) := by
  simp only [State.loadKernel, h]

/-- Reading a descriptor leaves the kernels as they are. -/
theorem State.kernels_descriptor {ctx : Nat} {d : Option (Word × Word)} (h : s.descriptor ctx = (u, d)) : u.kernels = s.kernels := by
  have hk := State.OnlyMaps.descriptor s ctx
  rw [h] at hk
  have hkernels := congrArg State.kernels hk.frame
  exact hkernels

/-- An index that no kernel has is unknown to a load once it has read its descriptor. -/
theorem State.not_known {d : Option (Word × Word)} (h : s.descriptor j.ctx = (u, d)) (hk : ¬ ∃ k ∈ s.kernels, k.kidx = j.kidx) :
    u.kernels.any (·.kidx == j.kidx) = false := by
  simpa [State.kernels_descriptor h] using hk

section
variable {d : Word × Word} (h : s.descriptor j.ctx = (u, some d))
include h

theorem State.loadKernel_invalid (hd : d.1.getLsbD 0 = false) : s.loadKernel j = (u, 0x0A04) := by
  simp only [State.loadKernel, h, hd, Bool.not_false, if_true]

variable (hd : d.1.getLsbD 0 = true)
include hd

theorem State.loadKernel_known (hk : ∃ k ∈ s.kernels, k.kidx = j.kidx) : s.loadKernel j = (u, 0x0A03) := by
  have hany : u.kernels.any (·.kidx == j.kidx) = true := by simpa [State.kernels_descriptor h] using hk
  simp only [State.loadKernel, h, hd, hany, Bool.not_true, Bool.false_eq_true, if_false, if_true]

variable (hk : ¬ ∃ k ∈ s.kernels, k.kidx = j.kidx) {t : State} {b : List Byte} (hb : u.loaderRead j.ctx j.dsc 64 = (t, some b))
include hk hb

theorem State.loadKernel_badDescriptor (hbad : descBad b = true) : s.loadKernel j = (t, 0x0A02) := by
  simp only [State.loadKernel, h, hd, State.not_known h hk, hb, hbad, Bool.not_true, Bool.false_eq_true, if_false, if_true]

variable (hgood : descBad b = false) {x : List Byte} (hx : t.loaderRead j.ctx (j.dsc + 64) (16 * fieldOf b 0x1D 1) = (w, some x))
include hgood hx

theorem State.loadKernel_badVariant (hbad : (entriesOf x 16 (fieldOf b 0x1D 1)).any variantBad = true) : s.loadKernel j = (w, 0x0A02) := by
  simp only [State.loadKernel, h, hd, State.not_known h hk, hb, hgood, hx, hbad, Bool.not_true, Bool.false_eq_true, if_false, if_true]

variable (hvar : (entriesOf x 16 (fieldOf b 0x1D 1)).any variantBad = false)
include hvar

theorem State.loadKernel_noVariant (hc : chooseVariant (w.host.dmsig.toNat % 2 ^ 32) (entriesOf x 16 (fieldOf b 0x1D 1)) = none) :
    s.loadKernel j = (w, 0x0A01) := by
  simp only [State.loadKernel, h, hd, State.not_known h hk, hb, hgood, hx, hvar, hc, Bool.not_true, Bool.false_eq_true, if_false]

theorem State.loadKernel_loads {code : Nat}
    (hc : chooseVariant (w.host.dmsig.toNat % 2 ^ 32) (entriesOf x 16 (fieldOf b 0x1D 1)) = some code) :
    s.loadKernel j = ({ w with kernels := w.kernels ++ [kernelOf j b code] }, 0) := by
  simp only [State.loadKernel, h, hd, State.not_known h hk, hb, hgood, hx, hvar, hc, Bool.not_true, Bool.false_eq_true, if_false]

end

end Sys2Proof.Machine

namespace Sys2Proof.Machine
/-! # Attestation and the HDM window (R440, R451, R457) -/

variable {s t u : State} {v addr : Word} {b : List Byte}

/-! ## Stores to GLOBAL memory -/

/-- The word of a key below the vaults lies below them. -/
theorem wordOf_lt_vaultBase {k : Nat} (h : k < vaultBase) : wordOf k < vaultBase := by
  rw [wordOf, if_pos h]
  exact (Nat.div_mul_le_self k 32).trans_lt h

/-- A store of whole bytes below the vaults reads no word back (R108). -/
theorem partWords_global {keys : List Nat} (h : ∀ k ∈ keys, k < vaultBase) : partWords keys keys = [] := by
  refine List.filter_eq_nil_iff.mpr fun w hw => ?_
  obtain ⟨k, hk, rfl⟩ := List.mem_map.mp (List.mem_eraseDups.mp hw)
  have hlow := wordOf_lt_vaultBase (h k hk)
  simpa [hlow] using fun _ _ hx _ => hx

/-- A store below the vaults writes its bytes, and clears errors only. -/
theorem State.write_global {l : List (Nat × Byte)} (h : ∀ p ∈ l, p.1 < vaultBase) :
    ∃ poison latent, s.write l = { s.poke l with poison := poison, latent := latent } := by
  have hpart : partWords (l.map (·.1)) (l.map (·.1)) = [] := partWords_global (by simpa using h)
  unfold State.write State.overwritten State.merged
  split
  · exact ⟨_, _, rfl⟩
  · rw [hpart]
    exact ⟨_, _, rfl⟩

/-! ## ATTCMD_GO (R457) -/

/-- The device takes a request for a report: from VERIFIED on through the mailbox, and once READY into GLOBAL memory. -/
def State.TakesReport (s : State) (v : Word) : Prop :=
  s.host.bootState = 3 ∨ (s.host.bootState ≠ 0 ∧ s.host.bootState ≠ 8 ∧ v.getLsbD 61 = true)

/-- What a write of ATTCMD with GO asks before it starts a report. -/
theorem attcmdGo_check : (!(s.host.bootState != 0 && s.host.bootState != 8) || (s.host.bootState != 3 && !v.getLsbD 61) || s.host.attJob.isSome) = true
    ↔ ¬ s.TakesReport v ∨ s.host.attJob ≠ none := by
  by_cases h3 : s.host.bootState = 3
  · simp [State.TakesReport, h3, Option.isSome_iff_ne_none]
  · simp only [State.TakesReport, Bool.or_eq_true, Bool.and_eq_true, Bool.not_eq_true', Bool.and_eq_false_iff, bne_eq_false_iff_eq,
      bne_iff_ne, Option.isSome_iff_ne_none]
    grind

/-- A request is ignored where none is taken, or one is under way. -/
theorem execAttcmdGo_ignored (h : ¬ s.TakesReport v ∨ s.host.attJob ≠ none) :
    execAttcmdGo v s = .next { s with host := s.host.attFields v } := if_pos (attcmdGo_check.mpr h)

theorem execAttcmdGo_taken (h : s.TakesReport v) (hj : s.host.attJob = none) :
    execAttcmdGo v s = .next { s with host := { s.host.attFields v with
      attJob := some (v.getLsbD 61, v &&& 0x0000FFFFFFFFFFC0), attDone := false } } :=
  if_neg (mt attcmdGo_check.mp (by simp [h, hj]))

/-! ## ATTESTATION_REPORT (R457) -/

/-- While the measurements are taken no report is made. -/
theorem execAttestationReport_measuring (h : s.host.bootState = 1) : execAttestationReport s = .next s := by
  unfold execAttestationReport
  split
  · rfl
  · rw [h]
    rfl

/-- The report holds 3,581 bytes beside its nonce. -/
theorem State.length_report (nonce : List Byte) : (s.report nonce).length = 3581 + nonce.length := by
  simp only [State.report, List.length_append, length_leBytes, List.length_flatMap, List.map_const', List.length_range, List.sum_replicate, smul_eq_mul]
  omega

/-- A report that leaves these bytes in ATTBUF is made. -/
def State.reported (s : State) (attbuf : List Host.Cell) : State := State.attested { s with host := { s.host with attbuf := attbuf } }

theorem State.attbuf_reported (s : State) (attbuf : List Host.Cell) : (s.reported attbuf).host.attbuf = attbuf := rfl

section
variable (hb : s.host.bootState ≠ 1)
include hb

/-- A report through the mailbox is written in ATTBUF. -/
theorem execAttestationReport_mailbox (hj : s.host.attJob = some (true, addr)) {r : List Byte}
    (hr : s.report ((keysFrom 0x10 64).map (Memory.get s.host.attbuf)) = r) :
    execAttestationReport s = .next (s.reported (Memory.putAll s.host.attbuf ((keysFrom 0 r.length).zip r))) := by
  have hnot : (s.host.bootState == 1) = false := beq_false_of_ne hb
  simp only [execAttestationReport, hj, hnot, hr]
  rfl

/-- A report to a place that GLOBAL does not hold is a fault (log entry 57). -/
theorem execAttestationReport_noPlace (hj : s.host.attJob = some (false, addr)) (hg : inGlobal (addr.toNat + 4095) = false) :
    execAttestationReport s = .fault (.noSuchPlace addr.toNat) := by
  have hnot : (s.host.bootState == 1) = false := beq_false_of_ne hb
  simp only [execAttestationReport, hj, hnot, hg]
  rfl

/-- A report over a nonce that can be read is written in GLOBAL memory. -/
theorem execAttestationReport_global (hj : s.host.attJob = some (false, addr)) (hg : inGlobal (addr.toNat + 4095) = true)
    (hr : s.read (keysFrom (addr.toNat + 0x10) 64) = (u, some b)) :
    execAttestationReport s = .next (u.write ((keysFrom addr.toNat (u.report b).length).zip (u.report b))).attested := by
  have hnot : (s.host.bootState == 1) = false := beq_false_of_ne hb
  simp only [execAttestationReport, hj, hnot, hg, hr]
  rfl

end

/-- The bytes of a report in the 4 KiB buffer lie below the vaults. -/
theorem State.report_below (hg : inGlobal (addr.toNat + 4095) = true) (hlen : b.length = 64) :
    ∀ p ∈ (keysFrom addr.toNat (u.report b).length).zip (u.report b), p.1 < vaultBase := by
  intro p hp
  have hkey := mem_keysFrom.mp (List.of_mem_zip hp).1
  have hmax : addr.toNat + 4095 < Config.globalBytes := of_decide_eq_true hg
  rw [State.length_report, hlen] at hkey
  have : Config.globalBytes ≤ vaultBase := by decide
  omega

/-! ## HOST_CXL_MEM_ACCESS (R440, R451) -/

/-- From one state to the other the logical cores have forgotten groups, and no more: the contexts are as they were. -/
structure State.ForgetsGroups (s t : State) : Prop where
  contexts : t.contexts = s.contexts
  thr : ∀ n, { t.thr n with lc := { (t.thr n).lc with coll := (s.thr n).lc.coll, xchs := (s.thr n).lc.xchs } } = s.thr n

theorem State.ForgetsGroups.of_eq (hc : t.contexts = s.contexts) (ht : t.threads = s.threads) : s.ForgetsGroups t where
  contexts := hc
  thr n := by rw [State.thr, State.thr, ht]

theorem State.ForgetsGroups.trans (h : s.ForgetsGroups t) (k : t.ForgetsGroups u) : s.ForgetsGroups u where
  contexts := k.contexts.trans h.contexts
  thr n := by
    have hk := congrArg (fun x : HThread => { x with lc := { x.lc with coll := (s.thr n).lc.coll, xchs := (s.thr n).lc.xchs } }) (k.thr n)
    exact Eq.trans hk (h.thr n)

theorem State.ForgetsGroups.dropGroup (s : State) (gid : Nat) : s.ForgetsGroups (s.dropGroup gid) where
  contexts := rfl
  thr n := by
    have hget : FMap.get? (s.dropGroup gid).threads n = (FMap.get? s.threads n).map fun t => { t with lc := t.lc.dropGroup gid } :=
      FMap.get?_map s.threads (fun t : HThread => ({ t with lc := t.lc.dropGroup gid } : HThread)) n
    rw [State.thr, State.thr, hget]
    cases FMap.get? s.threads n <;> rfl

theorem State.ForgetsGroups.groupsWritten (s : State) (keys : List Nat) : s.ForgetsGroups (s.groupsWritten keys) :=
  List.foldlRecOn (motive := fun t : State => s.ForgetsGroups t) _ _ (.of_eq rfl rfl) fun _ ht gid _ => ht.trans (.dropGroup _ gid)

/-- A write outside the group table makes no group anew. -/
theorem State.groupsWritten_outside {keys : List Nat}
    (h : ∀ k ∈ keys, k < s.host.gtbase.toNat ∨ s.host.gtbase.toNat + 2 ^ 24 ≤ k) : s.groupsWritten keys = s := by
  have hnone : (keys.filter fun k => decide (s.host.gtbase.toNat ≤ k) && decide (k < s.host.gtbase.toNat + 2 ^ 24)
      && (k - s.host.gtbase.toNat) % 4096 == 0x18 && (Memory.get s.mem k).toNat % 2 == 0) = [] := by
    refine List.filter_eq_nil_iff.mpr fun k hk => ?_
    have := h k hk
    simp only [Bool.and_eq_true, decide_eq_true_eq]
    omega
  simp only [State.groupsWritten, hnone, List.map_nil, List.foldl_nil]

/-- The bytes of a host access in GLOBAL memory lie below the vaults. -/
theorem RemoteAccess.keys_below {r : RemoteAccess} (hg : inGlobal (r.addr + (r.bytes - 1)) = true) :
    ∀ p ∈ (keysFrom r.addr r.bytes).zip (leBytes r.bytes r.data), p.1 < vaultBase := by
  intro p hp
  have hkey := mem_keysFrom.mp (List.of_mem_zip hp).1
  have hmax : r.addr + (r.bytes - 1) < Config.globalBytes := of_decide_eq_true hg
  have : Config.globalBytes ≤ vaultBase := by decide
  omega

section
variable {r : RemoteAccess} (hr : s.host.bootState = 3) (hg : inGlobal (r.addr + (r.bytes - 1)) = true)
include hr hg

theorem execHostCxlMemAccess_write (hw : r.write = true) : execHostCxlMemAccess r s =
    .next ((s.write ((keysFrom r.addr r.bytes).zip (leBytes r.bytes r.data))).groupsWritten (keysFrom r.addr r.bytes)) := by
  simp [execHostCxlMemAccess, State.hostReady_iff.mpr hr, hg, hw]

theorem execHostCxlMemAccess_read (hw : r.write = false) : execHostCxlMemAccess r s =
    .next ((s.read (keysFrom r.addr r.bytes)).1.answered r.addr (s.read (keysFrom r.addr r.bytes)).2) := by
  simp [execHostCxlMemAccess, State.hostReady_iff.mpr hr, hg, hw]

end

/-- A read gives no data exactly where it meets poison (R440). -/
theorem State.read_eq_none_iff {keys : List Nat} {d : Option (List Byte)} (h : s.read keys = (u, d)) :
    d = none ↔ ∃ k ∈ keys, u.poisoned k = true := by
  cases h
  simp

end Sys2Proof.Machine

namespace Sys2Proof.Machine
/-! # Reset and boot (R107, R454 to R456) -/

variable {s : State}

/-! ## DEVICE_RESET -/

/-- What every step of a loop leaves of the package, the loop leaves. -/
theorem pkg_foldl {α : Type} {f : State → α → State} (h : ∀ u a, (f u a).pkg = u.pkg) (l : List α) (s : State) :
    (l.foldl f s).pkg = s.pkg :=
  List.foldlRecOn (motive := fun t : State => t.pkg = s.pkg) l f rfl fun u hu a _ => (h u a).trans hu

theorem State.pkg_meet (s : State) (a : Nat) : (s.meet a).pkg = s.pkg := by
  have h := congrArg State.pkg (s.withErrors_meet s a)
  exact h

theorem State.pkg_transfer (s : State) (n : Nat) (moves : List (Nat × Nat)) : (s.transfer n moves).pkg = s.pkg :=
  pkg_foldl (fun u _ => pkg_foldl (fun v _ => v.pkg_meet _) _ u) moves s

/-- A swap given up leaves the package (R104). -/
theorem State.pkg_undoSwap (s : State) (w : Swap) : (s.undoSwap w).pkg = s.pkg :=
  (State.pkg_putNum ..).trans ((State.pkg_putNum ..).trans (pkg_foldl (fun u _ => u.pkg_transfer 4096 _) _ s))

theorem State.pkg_afterReset (s : State) : s.afterReset.pkg = s.pkg := pkg_foldl State.pkg_undoSwap s.swaps s

/-- A reset ends with step 1 of the boot: UCIe has trained. -/
theorem State.boot_afterReset (s : State) : s.afterReset.boot =
    { s.afterReset with host := { State.reset.host with linked := true, mods := s.pkg.mods, rate := s.pkg.rate } } := by
  rw [← s.pkg_afterReset]
  rfl

/-- With no swap under way, a reset keeps memory. -/
theorem State.mem_afterReset (h : s.swaps = []) : s.afterReset.mem = s.mem := by
  simp [State.afterReset, h]

/-! ## The steps of the boot (R454) -/

theorem State.boot_links (h : s.host.linked = false) :
    s.boot = { s with host := { s.host with linked := true, mods := s.pkg.mods, rate := s.pkg.rate } } := by
  simp only [State.boot, h, Bool.not_false, if_true]

section
variable (hl : s.host.linked = true)
include hl

theorem State.boot_verifies (hb : s.host.bootState = 0) (hk : s.pkg.keyOk = true) (hs : s.pkg.sigOk = true) :
    s.boot = { s with host := { s.host with bootState := 1, fwver := s.pkg.fwver } } := by
  simp only [State.boot, hl, hb, hk, hs, Bool.not_true, Bool.and_true, Bool.false_eq_true, if_false, if_true]

theorem State.boot_failsSig (hb : s.host.bootState = 0) (h : ¬ (s.pkg.keyOk = true ∧ s.pkg.sigOk = true)) :
    s.boot = { s with host := { s.host with bootState := 8 } } := by
  simp only [State.boot, hl, hb, Bool.and_eq_true, h, Bool.not_true, Bool.false_eq_true, if_false, if_true]

theorem State.boot_measures (hb : s.host.bootState = 1) :
    s.boot = { s with host := { s.host with bootState := 2, measured := s.pkg.digests } } := by
  simp [State.boot, hl, hb]

theorem State.boot_failsTraining (hb : s.host.bootState = 2) (h : s.pkg.hbm ≠ 0xFF) :
    s.boot = { s with host := { s.host with bootState := 9, hbm := s.pkg.hbm } } := by
  simp only [State.boot, hl, hb, h, ne_eq, not_false_eq_true, not_true_eq_false, Bool.not_true, Bool.false_eq_true, if_false, if_true,
    show ((2 : BitVec 4) = 0) = False by decide, show ((2 : BitVec 4) = 1) = False by decide]

/-- Once the stacks have trained, the vaults are cleared and the device is READY. -/
theorem State.boot_ready (hb : s.host.bootState = 2) (h : s.pkg.hbm = 0xFF) : s.boot = { s with
    host := { s.host with bootState := 3, dmsig := publishedSig s.host.measured, hbm := s.pkg.hbm, ports := s.pkg.ports }
    mem := s.mem.filter fun c => !isVaultKey c.1
    poison := s.poison.filter (!isVaultKey ·)
    latent := s.latent.filter fun l => !isVaultKey l.word
    retired := [], remapErrors := [], remapWalks := [], msix := s.msix ++ [1] } := by
  simp [State.boot, hl, hb, h]

/-- A device that has booted, or has failed to, stays as it is. -/
theorem State.boot_ended (hb : s.host.bootState.toNat ∉ [0, 1, 2]) : s.boot = s := by
  have hne (n : BitVec 4) (h : n.toNat ∈ [0, 1, 2]) : s.host.bootState ≠ n := fun he => hb (he ▸ h)
  simp only [State.boot, hl, hne 0 (by decide), hne 1 (by decide), hne 2 (by decide), ne_eq, not_false_eq_true, Bool.not_true,
    Bool.false_eq_true, if_false, if_true]

end

/-! ## What the last step leaves of the vaults and of memory -/

theorem publishedSig_toNat (l : List (BitVec 512)) :
    (publishedSig l).toNat = (let d := (l.getD 2 0).toNat % 2 ^ 32; if d = 0 then 1 else d) := by
  unfold publishedSig
  dsimp only
  split
  · rfl
  · rw [BitVec.toNat_ofNat]
    omega

/-- A filter on keys leaves no byte at a key that it drops. -/
theorem Memory.get_filter_dropped (m : List Host.Cell) (p : Nat → Bool) {a : Nat} (h : p a = false) :
    Memory.get (m.filter fun c => p c.1) a = 0 := by
  induction m with
  | nil => rfl
  | cons c m ih =>
    rw [List.filter_cons]
    split
    · rename_i hc
      have hne : c.1 ≠ a := fun he => by simp [he, h] at hc
      rw [Memory.get, if_neg hne, ih]
    · exact ih

theorem isVaultKey_iff {a : Nat} : isVaultKey a = true ↔ vaultBase ≤ a ∧ a < vaultKey 192 0 := by simp [isVaultKey]

theorem isVaultKey_vaultKey {c o : Nat} (hc : c < 192) (ho : o < 0x400000) : isVaultKey (vaultKey c o) = true := by
  rw [isVaultKey_iff]
  unfold vaultKey
  omega

/-- The word of a key of a vault begins in the vault. -/
theorem isVaultKey_wordOf {a : Nat} (h : isVaultKey a = true) : isVaultKey (wordOf a) = true := by
  obtain ⟨hlo, hhi⟩ := isVaultKey_iff.mp h
  rw [isVaultKey_iff, wordOf, if_neg (not_lt.mpr hlo)]
  unfold vaultKey vaultBase at *
  omega

theorem isVaultKey_global {a : Nat} (h : a < 0x6000000000) : isVaultKey a = false := by
  refine Bool.eq_false_iff.mpr fun hv => ?_
  have hlo := (isVaultKey_iff.mp hv).1
  unfold vaultBase at hlo
  omega

/-- Memory with the vaults cleared reads 0 there, and as before in GLOBAL memory. -/
theorem Memory.get_clearVaults_vault (m : List Host.Cell) {c o : Nat} (hc : c < 192) (ho : o < 0x400000) :
    Memory.get (m.filter fun x => !isVaultKey x.1) (vaultKey c o) = 0 :=
  Memory.get_filter_dropped m (!isVaultKey ·) (by simp [isVaultKey_vaultKey hc ho])

theorem Memory.get_clearVaults_global (m : List Host.Cell) {a : Nat} (h : a < 0x6000000000) :
    Memory.get (m.filter fun x => !isVaultKey x.1) a = Memory.get m a :=
  Memory.get_filter m (!isVaultKey ·) (by simp [isVaultKey_global h])

/-- A poisoned word that is no longer listed, with nothing retired, can be read. -/
theorem State.poisoned_cleared (hr : s.retired = []) {l : List Nat} (hp : s.poison = l.filter (!isVaultKey ·)) {a : Nat}
    (h : isVaultKey a = true) : s.poisoned a = false := by
  simp [State.poisoned, hr, hp, isVaultKey_wordOf h]

end Sys2Proof.Machine

namespace Sys2Proof.Machine
/-! # The host interface (O60) -/

variable {s : State} {off : Nat} {v : Word}

/-- A register that reads back what is written takes a write, reads its writable bits, and leaves every other register. -/
theorem exec_configWrite_readBack (hr : s.host.bootState = 3) (h : off ∈ readBackOffsets) :
    ∃ t : State, exec (.configWrite off ⟨8, v⟩) s = .next t ∧ t.bar0Read off 8 = v &&& configMask off ∧ { t with host := s.host } = s
      ∧ ∀ o, o ≠ off → o ≠ 0 → t.bar0Read o 8 = s.bar0Read o 8 := by
  have hoff : off % 8 = 0 ∧ off < 0x1000 ∧ off ≠ 0x58 :=
    (by decide : ∀ o ∈ readBackOffsets, o % 8 = 0 ∧ o < 0x1000 ∧ o ≠ 0x58) off h
  refine ⟨_, execConfigWrite_register hr hoff.1 hoff.2.1 hoff.2.2, ?_, rfl, fun o ho _ => ?_⟩
  · rw [State.bar0Read_eight, State.configRead_written_same hr h]
  · rw [State.bar0Read_eight, State.bar0Read_eight, State.configRead_written_other h ho]

/-- ATTBUF reads back what is written to it. -/
theorem exec_configWrite_attbuf (h8 : off % 8 = 0) (ha : inAttbuf off = true) (hl : s.host.linked = true) :
    ∃ t : State, exec (.configWrite off ⟨8, v⟩) s = .next t ∧ { t with host := s.host } = s
      ∧ (Memory.wf s.host.attbuf = true → t.bar0Read off 8 = v) := by
  refine ⟨_, execConfigWrite_attbuf h8 ha hl, rfl, fun hwf => ?_⟩
  rw [State.bar0Read_eight, State.configRead_attbuf h8 ha (by exact hl), Memory.leNat_putAll hwf]
  exact BitVec.eq_of_toNat_eq (by simpa using v.isLt)

/-- A report through the mailbox sends vector 1, leaves DONE set and no job, and stands in ATTBUF. -/
theorem exec_attestationReport_mailbox {addr : Word} (hb : s.host.bootState ≠ 1) (hj : s.host.attJob = some (true, addr)) {r : List Byte}
    (hr : s.report ((keysFrom 0x10 64).map (Memory.get s.host.attbuf)) = r) :
    ∃ t : State, exec .attestationReport s = .next t ∧ t.host.attDone = true ∧ t.host.attJob = none ∧ t.msix = s.msix ++ [1] ∧ t.mem = s.mem
      ∧ t.host.attbuf = Memory.putAll s.host.attbuf ((keysFrom 0 r.length).zip r) :=
  ⟨_, execAttestationReport_mailbox hb hj hr, rfl, rfl, rfl, rfl, State.attbuf_reported ..⟩

/-- A report written in GLOBAL memory sends vector 1, and leaves DONE set and no job. -/
theorem exec_attestationReport_global {u : State} {addr : Word} {b : List Byte} (hb : s.host.bootState ≠ 1)
    (hj : s.host.attJob = some (false, addr)) (hg : inGlobal (addr.toNat + 4095) = true)
    (hr : s.read (keysFrom (addr.toNat + 0x10) 64) = (u, some b)) :
    ∃ t : State, exec .attestationReport s = .next t ∧ t.host.attDone = true ∧ t.host.attJob = none ∧ t.msix = u.msix ++ [1]
      ∧ t.mem = Memory.putAll u.mem ((keysFrom addr.toNat (u.report b).length).zip (u.report b)) := by
  have hlen : b.length = 64 := by rw [(State.read_some hr).2, List.length_map, length_keysFrom]
  obtain ⟨poison, latent, hwrite⟩ := State.write_global (s := u) (State.report_below hg hlen)
  refine ⟨_, execAttestationReport_global hb hj hg hr, rfl, rfl, ?_, ?_⟩
  · rw [hwrite]
    rfl
  · rw [hwrite]
    rfl

/-- A host write in GLOBAL memory writes its bytes; a logical core forgets groups, if the write reaches their table (R371). -/
theorem exec_hostCxlMemAccess_write {r : RemoteAccess} (hr : s.host.bootState = 3) (hg : inGlobal (r.addr + (r.bytes - 1)) = true)
    (hw : r.write = true) : ∃ t : State, exec (.hostCxlMemAccess r) s = .next t ∧ s.ForgetsGroups t
      ∧ ((∀ k ∈ keysFrom r.addr r.bytes, k < s.host.gtbase.toNat ∨ s.host.gtbase.toNat + 2 ^ 24 ≤ k) → t.threads = s.threads)
      ∧ t.mem = Memory.putAll s.mem ((keysFrom r.addr r.bytes).zip (leBytes r.bytes r.data)) := by
  set l := (keysFrom r.addr r.bytes).zip (leBytes r.bytes r.data)
  have hhost : (s.write l).host = s.host := by
    obtain ⟨poison, latent, hglobal⟩ := State.write_global (s := s) (RemoteAccess.keys_below hg)
    rw [hglobal]
    rfl
  have hwritten := State.ForgetsGroups.of_eq (State.contexts_write s l) (State.threads_write s l)
  refine ⟨_, execHostCxlMemAccess_write hr hg hw, hwritten.trans (.groupsWritten _ _), fun h => ?_, ?_⟩
  · rw [State.groupsWritten_outside (by rwa [hhost]), State.threads_write]
  · rw [State.mem_groupsWritten, State.mem_write]

/-- A host read in GLOBAL memory is answered, with poison where it meets some, and changes nothing beside errors. -/
theorem exec_hostCxlMemAccess_read {r : RemoteAccess} (hr : s.host.bootState = 3) (hg : inGlobal (r.addr + (r.bytes - 1)) = true)
    (hw : r.write = false) : ∃ t : State, exec (.hostCxlMemAccess r) s = .next t ∧ t.contexts = s.contexts ∧ t.threads = s.threads ∧ t.mem = s.mem
      ∧ ∀ u data, s.read (keysFrom r.addr r.bytes) = (u, data) →
        t.outbox = u.outbox ++ [.answer r.addr data] ∧ (data = none ↔ ∃ k ∈ keysFrom r.addr r.bytes, u.poisoned k = true) := by
  have hframe := (State.OnlyMaps.read s (keysFrom r.addr r.bytes)).frame
  have hcontexts := congrArg State.contexts hframe
  have hthreads := congrArg State.threads hframe
  refine ⟨_, execHostCxlMemAccess_read hr hg hw, hcontexts, hthreads, s.mem_read _, fun u data hu => ⟨?_, State.read_eq_none_iff hu⟩⟩
  rw [hu]
  rfl

/-- The boot takes its next step from the agenda. -/
theorem step_boot_next {l : List Act} (ha : s.agenda = .boot :: l) : step s = .next ({ s with agenda := l } : State).boot := step_act ha

/-- Settles O60, clause by clause: the registers of the configuration space, loading and unloading kernels, attestation, the
HDM window, and reset with the boot that follows it. -/
theorem hostInterfaceSteps : Obligations.HostInterfaceSteps := by
  refine ⟨fun s off bytes v => ?_, fun s v hr => ?_, fun s j hj => ?_, fun s v => ?_, fun s hb => execAttestationReport_measuring hb,
    fun s addr hb => ?_, fun s r hr hg => ?_, fun s => ?_, fun s l ha => ?_⟩
  · -- the configuration space (R452 to R458)
    refine ⟨fun h => ⟨execConfigWrite_discarded h, State.bar0Read_discarded h⟩, rfl, fun _ hr ho hb => ?_, fun h8 hlo hhi hl => ?_,
      State.bootst_toNat, fun hr => ⟨?_, ?_, ?_⟩⟩
    · have ha := inAttbuf_eq_false hb
      exact ⟨execConfigWrite_notReady hr ho ha, fun h0 => State.configRead_notReady hr h0 ho ha⟩
    · exact exec_configWrite_attbuf h8 (inAttbuf_iff.mpr ⟨hlo, hhi⟩) hl
    · rintro n hn rfl
      exact execConfigWrite_sscri hr hn
    · intro p hp ho
      have hmask : off ∈ readBackOffsets ∧ configMask off = p.2 := by
        subst ho
        exact (by decide : ∀ p ∈ _, p.1 ∈ readBackOffsets ∧ configMask p.1 = p.2) p hp
      rw [← hmask.2]
      exact exec_configWrite_readBack hr hmask.1
    · rintro rfl
      exact ⟨_, execConfigWrite_ctxctl hr, rfl, rfl⟩
  · -- KERNEL_LOAD and KERNEL_UNLOAD (R458, R459)
    refine ⟨?_, fun hl => ⟨_, execKernelUnload_loading hr hl, rfl, rfl, rfl, rfl⟩, fun hl hs => ?_⟩
    · cases hl : s.host.loading with
      | none => exact ⟨_, execKernelLoad_starts hr hl, rfl, fun _ => rfl, fun h => absurd h (by simp)⟩
      | some j => exact ⟨_, execKernelLoad_ignored hr (by simp [hl]), rfl, fun h => absurd h (by simp), fun _ => hl⟩
    · have hexec : exec (.kernelUnload v) s = _ := execKernelUnload_sound hr hl hs
      refine ⟨fun hv => ⟨_, hexec.trans (congrArg _ (if_pos hv)), rfl, rfl, rfl, rfl⟩, fun hv hu => ?_, fun hv hu => ?_⟩
      · rw [if_neg (by rw [hv]; simp), if_pos hu] at hexec
        exact ⟨_, hexec, rfl, rfl, rfl, rfl⟩
      · rw [if_neg (by rw [hv]; simp), if_neg (by rw [hu]; simp)] at hexec
        exact ⟨_, hexec, rfl, rfl, rfl, rfl⟩
  · -- KERNEL_LOAD_DONE, in the order of the checks of R459
    refine ⟨fun u h => ?_, fun s0 d h => ⟨fun hd => ?_, fun hd hk => ?_, fun hd hk u b hb => ⟨fun hbad => ?_, fun hgood w x hx => ⟨fun hbad => ?_,
      fun hvar hc => ?_, fun code hvar hc => ?_⟩⟩⟩⟩
    · exact ⟨_, exec_kernelLoadDone hj (State.loadKernel_poisoned h), rfl, rfl, State.not_mem_contexts_kill u j.ctx Cause.poison.code 0⟩
    · rw [← State.kernels_descriptor h]
      exact exec_kernelLoadDone_gives hj (State.loadKernel_invalid h hd)
    · rw [← State.kernels_descriptor h]
      exact exec_kernelLoadDone_gives hj (State.loadKernel_known h hd hk)
    · exact exec_kernelLoadDone_gives hj (State.loadKernel_badDescriptor h hd hk hb hbad)
    · exact exec_kernelLoadDone_gives hj (State.loadKernel_badVariant h hd hk hb hgood hx hbad)
    · exact exec_kernelLoadDone_gives hj (State.loadKernel_noVariant h hd hk hb hgood hx hvar hc)
    · exact exec_kernelLoadDone_gives hj (State.loadKernel_loads h hd hk hb hgood hx hvar hc)
  · -- ATTCMD_GO (R457)
    by_cases h : s.TakesReport v ∧ s.host.attJob = none
    · obtain ⟨hready, hjob⟩ := h
      exact ⟨_, execAttcmdGo_taken hready hjob, rfl, rfl, rfl, fun _ _ => ⟨rfl, rfl⟩, fun hno => (hno.elim (· hready) (· hjob)).elim⟩
    · exact ⟨_, execAttcmdGo_ignored (not_and_or.mp h), rfl, rfl, rfl, fun hready hjob => absurd ⟨hready, hjob⟩ h, fun _ => ⟨rfl, rfl⟩⟩
  · -- ATTESTATION_REPORT (R457)
    exact ⟨fun hj => exec_attestationReport_mailbox hb hj rfl,
      fun hj hg u b hr => exec_attestationReport_global hb hj hg hr, execAttestationReport_noPlace hb⟩
  · -- HOST_CXL_MEM_ACCESS (R440, R451)
    cases hw : r.write with
    | true =>
      obtain ⟨t, ht, hframe, hthreads, hmem⟩ := exec_hostCxlMemAccess_write hr hg hw
      exact ⟨t, ht, hframe.contexts, hframe.thr, fun h => hthreads (h.resolve_left (by simp)), fun _ => hmem, fun h => absurd h (by simp)⟩
    | false =>
      obtain ⟨t, ht, hcontexts, hthreads, hmem, hanswer⟩ := exec_hostCxlMemAccess_read hr hg hw
      exact ⟨t, ht, hcontexts, (State.ForgetsGroups.of_eq hcontexts hthreads).thr, fun _ => hthreads, fun h => absurd h (by simp),
        fun _ => ⟨hmem, hanswer⟩⟩
  · -- DEVICE_RESET (R107, R454)
    refine ⟨_, congrArg Host.Outcome.next s.boot_afterReset, fun n => ⟨rfl, rfl⟩, rfl, rfl, rfl, rfl, fun n => rfl, rfl, rfl, fun h a _ => ?_,
      rfl, rfl, s.pkg_afterReset⟩
    exact congrArg (Memory.get · a) (State.mem_afterReset h)
  · -- the boot (R454 to R456)
    have hstep := step_boot_next ha
    refine ⟨fun hl => hstep.trans (congrArg _ (State.boot_links hl)), fun hl => ⟨fun hb hk hs => ?_, fun hb h => ?_, fun hb => ?_, fun hb h => ?_,
      fun hb h => ?_, fun hb => ?_⟩⟩
    · exact hstep.trans (congrArg _ (State.boot_verifies hl hb hk hs))
    · exact hstep.trans (congrArg _ (State.boot_failsSig hl hb h))
    · exact hstep.trans (congrArg _ (State.boot_measures hl hb))
    · exact hstep.trans (congrArg _ (State.boot_failsTraining hl hb h))
    · rw [State.boot_ready (by exact hl) (by exact hb) (by exact h), h] at hstep
      exact ⟨_, _, hstep, rfl, rfl, by rw [h], publishedSig_toNat _,
        fun c o hc ho => ⟨Memory.get_clearVaults_vault s.mem hc ho, State.poisoned_cleared rfl rfl (isVaultKey_vaultKey hc ho)⟩,
        fun a ha => Memory.get_clearVaults_global s.mem ha⟩
    · exact hstep.trans (congrArg _ (State.boot_ended hl hb))

end Sys2Proof.Machine
